-- ==== Sys2Proof/Word.lean ====
section
/-! DEFINITION. The words of the AX1200: bytes, doublewords, lines and instruction words (R2, R152). -/

namespace Sys2Proof

/-- A byte of memory. -/
abbrev Byte := BitVec 8

/-- A 64-bit C register, CSR or generic address (R61, R146). -/
abbrev Word := BitVec 64

/-- A 32-bit instruction word (R152). -/
abbrev IWord := BitVec 32

/-- A 64-byte line, row word or stream word, taken as a little-endian 512-bit value (R121, R190). -/
abbrev Line := BitVec 512

/-- A tensor layout record (R72). -/
abbrev Tlr := BitVec 768

end Sys2Proof
end

