-- ==== Sys2Proof/Config.lean ====
section
/-! DEFINITION. What the spec leaves open, or to the implementation: constants with no body, so that nothing can be proved
of their values. Each names its log entry. -/

namespace Sys2Proof.Config

open Sys2Proof

/-- Which of the agents that can act takes the next step, when nothing else says so (log 1). -/
opaque schedule : Nat → Nat

/-- Tile cycles that pass in a step (log 5). -/
opaque cyclesOf : Nat → BitVec 64

/-- By how much a step moves the `CYCLE` counter of a tile beyond the device's count: R149 aligns no two of them (log 5). -/
opaque cycleSkew : Nat → Nat → BitVec 64

/-- The duration of a run in microseconds (16 R385, log 5). -/
opaque runMicroseconds : Nat → BitVec 64

/-- A special function's f32 result within its bound (02 R56, log 8): a function of the function's number and of
the operand alone. -/
opaque special : Nat → BitVec 32 → BitVec 32

/-- Whether a read from another die sees an X write that no release has yet made visible there (12 R312, log 7). -/
opaque crossDieOld : Nat → Bool

/-- What a read gives of an address at which the module has no device memory (00 R1, log 6). -/
opaque noMemory : Nat → BitVec 8

/-- A cache line written under one key, or in plaintext, as read under another: key numbers, line number, contents
(11 R291, log 3). Number 0 is plaintext. -/
opaque recipher : Nat → Nat → Nat → BitVec 1024 → BitVec 1024

/-- What a peer device answers to a read (11 R289, log 20). -/
opaque peerRead : Nat → Nat → BitVec 64

/-- The jet port through which the policy core's route table reaches a peer device (16 R400, log 20). -/
opaque peerPort : Nat → Nat

/-- The home slice of a 4 KiB granule of device memory, and the set of a 128-byte line in its slice (11 R293, log 9). -/
opaque homeSlice : Nat → Nat
opaque cacheSet : Nat → Nat

/-- The quadrant of a die at which the bridge from another die meets its rings (R294, log 9). -/
opaque bridgeQuadrant : Nat → Nat → Nat

/-- Whether a QUEUE endpoint feeds its tile port: by the image's and the endpoint's numbers (11 R284, log 21). -/
opaque queueFeeds : Nat → Nat → Bool

/-- What a region has emitted on an output port once it has been given these words on its input ports: by the bitstream, the
input ports' words with their kinds, and the output port (01 R16, 05 R121, log 10). -/
opaque regionOut : List (BitVec 8) → List (Nat × List (BitVec 512 × BitVec 2)) → Nat → List (BitVec 512 × BitVec 2)

/-- The quiescence signal of a region that has been given these words (05 R123, log 10). -/
opaque regionQuiet : List (BitVec 8) → List (Nat × List (BitVec 512 × BitVec 2)) → Bool

/-- The region manager accepts a bitstream for stepping B0 (01 R31, log 10). -/
opaque regionAccepts : List (BitVec 8) → Bool

/-- A bitstream is the q5 decoder of chapter 18 (18 R410-R413, log 10). -/
opaque regionIsDecoder : List (BitVec 8) → Bool

/-- The device's signature of a message under its identity key, with a context string (16 R403, log 3). -/
opaque identitySign : List (BitVec 8) → List (BitVec 8) → Vector (BitVec 8) 2420

/-- The public half of the device identity key (16 R402, log 3). -/
opaque identityKey : Vector (BitVec 8) 1312

/-- What the dump region holds of a dump: its bytes under AES-256-GCM with the device dump key, whose value no rule gives
(15 R381, log 3). -/
opaque dumpCipher : List (BitVec 8) → List (BitVec 8)

/-- The Toldavun certificate, kept in flash (16 R402, log 3). -/
opaque certificate : List (BitVec 8)

/-- Firmware of an image verifies under the fused vendor key, and its version is not below the fused minimum (16 R401,
log 3). -/
opaque firmwareVerifies : List (BitVec 8) → Bool

/-- The security version of the firmware with a digest (16 R403, log 3). -/
opaque firmwareVersion : BitVec 256 → BitVec 32

/-- The digest of the firmware that the device runs after its first boot (16 R401, log 3). -/
opaque bootDigest : BitVec 256

/-- STATUS of a `QDESTROY` that names no user queue of its function, on which the spec says nothing (04 R88, log 22). -/
opaque openStatus : Nat → BitVec 8

/-- Where firmware puts a spill ring (14 R351, log 4): only firmware reads it. -/
opaque spillBase : Nat → BitVec 64

/-- What a function's register space gives at an offset that the register table does not list (16 R395, log 27). -/
opaque reservedRegister : Nat → BitVec 64

/-- The policy core's time in microseconds (16 R395, log 5). -/
opaque policyTime : Nat → BitVec 64

/-- The configuration frame of a cell that an error or its correction concerns (05 R125, 16 R395, log 10). -/
opaque frameOf : Nat → BitVec 64

end Sys2Proof.Config
end

