-- ==== Sys2Proof/Syntax.lean ====
section
/-! DEFINITION. The abstract syntax: one constructor of `Instr` per row of spec/opcode_table.json.

The first 152 constructors are the 32-bit instruction words of the four engines (06 R152-R155), with every
operand field at its encoded width. The last 100 are the steps of the device's other agents (95): packets,
register writes and events, with the arguments that say which unit acts and what reaches it. -/

namespace Sys2Proof

/-- The four engines of a tile (R128), in the order of the ENG codes of R152 and R366. -/
inductive Engine where
  | C | L | X | S
  deriving DecidableEq, Repr

/-- The four phase-wire directions, in the order of the direction codes of R329. -/
inductive Dir where
  | north | east | south | west
  deriving DecidableEq, Repr

/-- Where a packet came from: the ring of a submission queue (R85), or a launch lane of a jet port together
with the source ID that the far end announced (R94). -/
inductive PktSrc where
  | queue (q : Nat)
  | lane (port : Nat) (source : BitVec 12)
  deriving DecidableEq, Repr

/-- The receiver of a lull marker that the Front sends (R372): a tile, or a generator by context and endpoint. -/
inductive LullTarget where
  | tile (t : Nat)
  | generator (ctx : Nat) (ep : Nat)
  deriving DecidableEq, Repr

/-- The units of the error log (R395), numbered 1 to 7 there. -/
inductive HwUnit where
  | scratchpad | cacheWay | configFrame | instrStore | registerFile | jetLink | dieBridge
  deriving DecidableEq, Repr


inductive Instr where
  /-- ADD, R165. Writes x[rs1] + x[rs2] modulo 2^64 to rd. -/
  | add (d : BitVec 5) (a : BitVec 5) (b : BitVec 5)
  /-- SUB, R165. Writes x[rs1] - x[rs2] modulo 2^64 to rd. -/
  | sub (d : BitVec 5) (a : BitVec 5) (b : BitVec 5)
  /-- MUL, R165. Writes the low 64 bits of x[rs1] times x[rs2] to rd. -/
  | mul (d : BitVec 5) (a : BitVec 5) (b : BitVec 5)
  /-- MULH, R165. Writes the high 64 bits of the signed by signed product to rd. -/
  | mulh (d : BitVec 5) (a : BitVec 5) (b : BitVec 5)
  /-- MULHSU, R165. Writes the high 64 bits of the signed by unsigned product to rd. -/
  | mulhsu (d : BitVec 5) (a : BitVec 5) (b : BitVec 5)
  /-- MULHX, R165. Writes the high 64 bits of the unsigned by unsigned product to rd. -/
  | mulhx (d : BitVec 5) (a : BitVec 5) (b : BitVec 5)
  /-- DIV, R165. Writes the signed quotient, truncated toward zero, under the division rules of R55. -/
  | div (d : BitVec 5) (a : BitVec 5) (b : BitVec 5)
  /-- DIVX, R165. Writes the unsigned quotient under the division rules of R55. -/
  | divx (d : BitVec 5) (a : BitVec 5) (b : BitVec 5)
  /-- REM, R165. Writes the signed remainder, which takes the sign of the dividend. -/
  | rem (d : BitVec 5) (a : BitVec 5) (b : BitVec 5)
  /-- REMX, R165. Writes the unsigned remainder. -/
  | remx (d : BitVec 5) (a : BitVec 5) (b : BitVec 5)
  /-- AND, R165. Writes the bitwise AND of x[rs1] and x[rs2] to rd. -/
  | and (d : BitVec 5) (a : BitVec 5) (b : BitVec 5)
  /-- OR, R165. Writes the bitwise OR of x[rs1] and x[rs2] to rd. -/
  | or (d : BitVec 5) (a : BitVec 5) (b : BitVec 5)
  /-- XOR, R165. Writes the bitwise XOR of x[rs1] and x[rs2] to rd. -/
  | xor (d : BitVec 5) (a : BitVec 5) (b : BitVec 5)
  /-- ANDN, R165. Writes x[rs1] AND NOT x[rs2] to rd. -/
  | andn (d : BitVec 5) (a : BitVec 5) (b : BitVec 5)
  /-- ORN, R165. Writes x[rs1] OR NOT x[rs2] to rd. -/
  | orn (d : BitVec 5) (a : BitVec 5) (b : BitVec 5)
  /-- SLL, R165. Shifts x[rs1] left by x[rs2][5:0]. -/
  | sll (d : BitVec 5) (a : BitVec 5) (b : BitVec 5)
  /-- SRL, R165. Shifts x[rs1] right by x[rs2][5:0], shifting in zeros. -/
  | srl (d : BitVec 5) (a : BitVec 5) (b : BitVec 5)
  /-- SRA, R165. Shifts x[rs1] right by x[rs2][5:0], shifting in sign bits. -/
  | sra (d : BitVec 5) (a : BitVec 5) (b : BitVec 5)
  /-- ROL, R165. Rotates x[rs1] left by x[rs2][5:0]. -/
  | rol (d : BitVec 5) (a : BitVec 5) (b : BitVec 5)
  /-- ROR, R165. Rotates x[rs1] right by x[rs2][5:0]. -/
  | ror (d : BitVec 5) (a : BitVec 5) (b : BitVec 5)
  /-- MIN, R165. Writes the signed minimum of the two registers. -/
  | min (d : BitVec 5) (a : BitVec 5) (b : BitVec 5)
  /-- MAX, R165. Writes the signed maximum of the two registers. -/
  | max (d : BitVec 5) (a : BitVec 5) (b : BitVec 5)
  /-- MINX, R165. Writes the unsigned minimum of the two registers. -/
  | minx (d : BitVec 5) (a : BitVec 5) (b : BitVec 5)
  /-- MAXX, R165. Writes the unsigned maximum of the two registers. -/
  | maxx (d : BitVec 5) (a : BitVec 5) (b : BitVec 5)
  /-- SLT, R165. Writes 1 if x[rs1] is less than x[rs2] as signed values, and 0 otherwise. -/
  | slt (d : BitVec 5) (a : BitVec 5) (b : BitVec 5)
  /-- SLTX, R165. Writes 1 if x[rs1] is less than x[rs2] as unsigned values, and 0 otherwise. -/
  | sltx (d : BitVec 5) (a : BitVec 5) (b : BitVec 5)
  /-- SEQ, R165. Writes 1 if the two registers are equal, and 0 otherwise. -/
  | seq (d : BitVec 5) (a : BitVec 5) (b : BitVec 5)
  /-- SNE, R165. Writes 1 if the two registers differ, and 0 otherwise. -/
  | sne (d : BitVec 5) (a : BitVec 5) (b : BitVec 5)
  /-- SEL, R165. Writes x[rs1] if the old x[rd] is non-zero, and x[rs2] otherwise. -/
  | sel (d : BitVec 5) (a : BitVec 5) (b : BitVec 5)
  /-- CLZ, R165. Counts the leading zero bits of x[rs1]. -/
  | clz (d : BitVec 5) (a : BitVec 5)
  /-- CTZ, R165. Counts the trailing zero bits of x[rs1]. -/
  | ctz (d : BitVec 5) (a : BitVec 5)
  /-- POPC, R165. Counts the set bits of x[rs1]. -/
  | popc (d : BitVec 5) (a : BitVec 5)
  /-- SEXT_B, R165. Sign-extends bits [7:0] of x[rs1] to 64 bits. -/
  | sextB (d : BitVec 5) (a : BitVec 5)
  /-- SEXT_H, R165. Sign-extends bits [15:0] of x[rs1] to 64 bits. -/
  | sextH (d : BitVec 5) (a : BitVec 5)
  /-- SEXT_W, R165. Sign-extends bits [31:0] of x[rs1] to 64 bits. -/
  | sextW (d : BitVec 5) (a : BitVec 5)
  /-- ZEXT_B, R165. Zero-extends bits [7:0] of x[rs1] to 64 bits. -/
  | zextB (d : BitVec 5) (a : BitVec 5)
  /-- ZEXT_H, R165. Zero-extends bits [15:0] of x[rs1] to 64 bits. -/
  | zextH (d : BitVec 5) (a : BitVec 5)
  /-- ZEXT_W, R165. Zero-extends bits [31:0] of x[rs1] to 64 bits. -/
  | zextW (d : BitVec 5) (a : BitVec 5)
  /-- LEA, R166. Writes x[rs1] + (x[rs2] << s) modulo 2^64, without checking the result. -/
  | lea (d : BitVec 5) (a : BitVec 5) (b : BitVec 5) (sh : BitVec 3)
  /-- MADD, R166. Adds x[rs1] times x[rs2] to the old x[rd]. -/
  | madd (d : BitVec 5) (a : BitVec 5) (b : BitVec 5)
  /-- BFE, R166. Extracts the bit field of x[rs1] that x[rs2] describes. -/
  | bfe (d : BitVec 5) (a : BitVec 5) (b : BitVec 5)
  /-- BFI, R166. Inserts the low bits of x[rs1] into the field of x[rd] that x[rs2] describes. -/
  | bfi (d : BitVec 5) (a : BitVec 5) (b : BitVec 5)
  /-- ADDI, R167. Adds the sign-extended immediate to x[rs1]. -/
  | addi (d : BitVec 5) (a : BitVec 5) (imm : BitVec 14)
  /-- ANDI, R167. ANDs x[rs1] with the sign-extended immediate. -/
  | andi (d : BitVec 5) (a : BitVec 5) (imm : BitVec 14)
  /-- ORI, R167. ORs x[rs1] with the sign-extended immediate. -/
  | ori (d : BitVec 5) (a : BitVec 5) (imm : BitVec 14)
  /-- XORI, R167. XORs x[rs1] with the sign-extended immediate. -/
  | xori (d : BitVec 5) (a : BitVec 5) (imm : BitVec 14)
  /-- SLLI, R167. Shifts x[rs1] left by an immediate amount. -/
  | slli (d : BitVec 5) (a : BitVec 5) (sh : BitVec 6)
  /-- SRLI, R167. Shifts x[rs1] right by an immediate amount, shifting in zeros. -/
  | srli (d : BitVec 5) (a : BitVec 5) (sh : BitVec 6)
  /-- SRAI, R167. Shifts x[rs1] right by an immediate amount, shifting in sign bits. -/
  | srai (d : BitVec 5) (a : BitVec 5) (sh : BitVec 6)
  /-- SLTI, R167. Writes 1 if x[rs1] is less than the immediate as signed values. -/
  | slti (d : BitVec 5) (a : BitVec 5) (imm : BitVec 14)
  /-- SLTXI, R167. Writes 1 if x[rs1] is less than the sign-extended immediate as unsigned values. -/
  | sltxi (d : BitVec 5) (a : BitVec 5) (imm : BitVec 14)
  /-- LUI, R167. Writes the sign-extended imm19 shifted left by 14. -/
  | lui (d : BitVec 5) (imm : BitVec 19)
  /-- AUIPC, R167. Writes this instruction's word index plus the sign-extended imm19. -/
  | auipc (d : BitVec 5) (imm : BitVec 19)
  /-- LD, R169. Checks the address and loads a scalar, sign-extended, optionally as an acquire. -/
  | ld (d : BitVec 5) (a : BitVec 5) (oc : BitVec 4) (ar : BitVec 1) (scope : BitVec 3) (size : BitVec 2) (disp : BitVec 4)
  /-- LDZ, R169. Checks the address and loads a scalar, zero-extended. -/
  | ldz (d : BitVec 5) (a : BitVec 5) (oc : BitVec 4) (ar : BitVec 1) (scope : BitVec 3) (size : BitVec 2) (disp : BitVec 4)
  /-- ST, R169. Checks the address and stores a scalar, optionally as a release. -/
  | st (d : BitVec 5) (a : BitVec 5) (oc : BitVec 4) (ar : BitVec 1) (scope : BitVec 3) (size : BitVec 2) (disp : BitVec 4)
  /-- AMOADD, R319. Atomically adds the operand at the home and returns the old value. -/
  | amoadd (d : BitVec 5) (a : BitVec 5) (oc : BitVec 4) (ar : BitVec 1) (scope : BitVec 3) (dbl : BitVec 1)
  /-- AMOMIN, R319. Atomic signed minimum at the home; returns the old value. -/
  | amomin (d : BitVec 5) (a : BitVec 5) (oc : BitVec 4) (ar : BitVec 1) (scope : BitVec 3) (dbl : BitVec 1)
  /-- AMOMAX, R319. Atomic signed maximum at the home; returns the old value. -/
  | amomax (d : BitVec 5) (a : BitVec 5) (oc : BitVec 4) (ar : BitVec 1) (scope : BitVec 3) (dbl : BitVec 1)
  /-- AMINX, R319. Atomic unsigned minimum at the home; returns the old value. -/
  | aminx (d : BitVec 5) (a : BitVec 5) (oc : BitVec 4) (ar : BitVec 1) (scope : BitVec 3) (dbl : BitVec 1)
  /-- AMAXX, R319. Atomic unsigned maximum at the home; returns the old value. -/
  | amaxx (d : BitVec 5) (a : BitVec 5) (oc : BitVec 4) (ar : BitVec 1) (scope : BitVec 3) (dbl : BitVec 1)
  /-- AMOAND, R319. Atomic AND at the home; returns the old value. -/
  | amoand (d : BitVec 5) (a : BitVec 5) (oc : BitVec 4) (ar : BitVec 1) (scope : BitVec 3) (dbl : BitVec 1)
  /-- AMOOR, R319. Atomic OR at the home; returns the old value. -/
  | amoor (d : BitVec 5) (a : BitVec 5) (oc : BitVec 4) (ar : BitVec 1) (scope : BitVec 3) (dbl : BitVec 1)
  /-- AMOXOR, R319. Atomic XOR at the home; returns the old value. -/
  | amoxor (d : BitVec 5) (a : BitVec 5) (oc : BitVec 4) (ar : BitVec 1) (scope : BitVec 3) (dbl : BitVec 1)
  /-- AMOSWP, R319. Atomic swap at the home; returns the old value. -/
  | amoswp (d : BitVec 5) (a : BitVec 5) (oc : BitVec 4) (ar : BitVec 1) (scope : BitVec 3) (dbl : BitVec 1)
  /-- AMOCAS, R319. Atomic compare-and-swap using the register pair rd, rd+1; returns the old value. -/
  | amocas (d : BitVec 5) (a : BitVec 5) (oc : BitVec 4) (ar : BitVec 1) (scope : BitVec 3) (dbl : BitVec 1)
  /-- AMOTAS, R319. Atomic test-and-set that writes 1 and returns the old value. -/
  | amotas (d : BitVec 5) (a : BitVec 5) (oc : BitVec 4) (ar : BitVec 1) (scope : BitVec 3) (dbl : BitVec 1)
  /-- FENCE, R321. Holds C until its earlier accesses in the masked classes are performed at the scope. -/
  | fence (scope : BitVec 3) (mask : BitVec 16)
  /-- BAR, R324. Arrives at a group barrier, optionally draining and releasing, and waits for the instance to complete. -/
  | bar (scope : BitVec 3) (drain : BitVec 1) (gsel : BitVec 6)
  /-- BART, R327. Arrives at a draining barrier whose completion opens a transfer phase. -/
  | bart (scope : BitVec 3) (gsel : BitVec 6)
  /-- TX, R329. Sends and/or receives a run of doublewords over the phase wires. -/
  | tx (d : BitVec 5) (a : BitVec 5) (b : BitVec 5) (sen : BitVec 1) (ren : BitVec 1) (diro : BitVec 2) (diri : BitVec 2)
  /-- MUX, R330. Sets the tile's phase-wire forwarding for the rest of the phase. -/
  | mux (west : BitVec 3) (south : BitVec 3) (east : BitVec 3) (north : BitVec 3)
  /-- WAITW, R333. Reads an address and sleeps on a monitor entry while it holds the expected value. -/
  | waitw (d : BitVec 5) (a : BitVec 5) (oc : BitVec 4) (ar : BitVec 1) (scope : BitVec 3) (dbl : BitVec 1)
  /-- WAITW_ARM, R333. Arms a monitor entry for a line without reading or sleeping. -/
  | waitwArm (d : BitVec 5) (a : BitVec 5) (dbl : BitVec 1)
  /-- ACQS, R338. Waits for a full stage slot owned by the role, takes its payload and acquires. -/
  | acqs (d : BitVec 5) (a : BitVec 5) (b : BitVec 5) (scope : BitVec 3)
  /-- RELS, R338. Releases, then waits for an empty stage slot and fills it for the named role. -/
  | rels (d : BitVec 5) (a : BitVec 5) (b : BitVec 5) (scope : BitVec 3)
  /-- RENQ, R339. Pushes a block of commands into another tile's L, X or S queue. -/
  | renq (a : BitVec 5) (b : BitVec 5) (scope : BitVec 3) (eng : BitVec 2)
  /-- SUB_SUBSCRIBE, R345. Creates a subscription of a local region to a publisher tile's region. -/
  | subSubscribe (d : BitVec 5) (a : BitVec 5) (b : BitVec 5)
  /-- UNSUB, R346. Deletes a subscription and frees its spill ring. -/
  | unsub (a : BitVec 5)
  /-- PFLUSH, R347. Closes the tile's open batches and waits until their updates are settled. -/
  | pflush
  /-- RESYNC, R348. Discards pending updates and copies the publisher region line by line, making the subscription LIVE. -/
  | resync (a : BitVec 5)
  /-- SUBQ, R349. Returns the state of a subscriber entry. -/
  | subq (d : BitVec 5) (a : BitVec 5)
  /-- B, R180. Unconditional branch; appends its target as the outcome. -/
  | b (off : BitVec 14)
  /-- BEQ, R180. Branches if the registers are equal, appending the continuing index as the outcome. -/
  | beq (a : BitVec 5) (b : BitVec 5) (off : BitVec 14)
  /-- BNE, R180. Branches if the registers differ. -/
  | bne (a : BitVec 5) (b : BitVec 5) (off : BitVec 14)
  /-- BLT, R180. Branches if x[rs1] is less than x[rs2] as signed values. -/
  | blt (a : BitVec 5) (b : BitVec 5) (off : BitVec 14)
  /-- BGE, R180. Branches if x[rs1] is at least x[rs2] as signed values. -/
  | bge (a : BitVec 5) (b : BitVec 5) (off : BitVec 14)
  /-- BLTX, R180. Branches if x[rs1] is less than x[rs2] as unsigned values. -/
  | bltx (a : BitVec 5) (b : BitVec 5) (off : BitVec 14)
  /-- BGEX, R180. Branches if x[rs1] is at least x[rs2] as unsigned values. -/
  | bgex (a : BitVec 5) (b : BitVec 5) (off : BitVec 14)
  /-- CALL, R181. Writes the link and continues at the target, appending the outcome. -/
  | call (r : BitVec 5) (off : BitVec 14)
  /-- RET, R181. Continues at the word index held in the register. -/
  | ret (r : BitVec 5)
  /-- LOOP, R181. Decrements the count register and branches back while it is non-zero. -/
  | loop (r : BitVec 5) (off : BitVec 14)
  /-- HALT, R136. Appends a halt mark and halts C; the tile then drains. -/
  | halt
  /-- TLSET, R177. Writes one field of a layout record from a register, unchecked. -/
  | tlset (g : BitVec 4) (a : BitVec 5) (fld : BitVec 6)
  /-- TLGET, R177. Reads one field of a layout record into a register. -/
  | tlget (d : BitVec 5) (g : BitVec 4) (fld : BitVec 6)
  /-- TLCLR, R178. Zeroes all 768 bits of a layout record. -/
  | tlclr (g : BitVec 4)
  /-- TLMOV, R178. Copies one layout record to another. -/
  | tlmov (gd : BitVec 4) (gs : BitVec 4)
  /-- TLCHK_L, R178. Reports the R77 checks of a record as an L command would make them, without trapping. -/
  | tlchkL (d : BitVec 5) (g : BitVec 4)
  /-- TLCHK_X, R178. Reports the R77 checks of a record as an X command would make them. -/
  | tlchkX (d : BitVec 5) (g : BitVec 4)
  /-- TLCHK_S, R178. Reports the R77 checks of a record as an S command would make them. -/
  | tlchkS (d : BitVec 5) (g : BitVec 4)
  /-- TLLD, R179. Loads a whole 96-byte layout record as 12 doublewords. -/
  | tlld (g : BitVec 4) (a : BitVec 5) (oc : BitVec 4) (ar : BitVec 1) (scope : BitVec 3)
  /-- TLST, R179. Stores a whole 96-byte layout record as 12 doublewords. -/
  | tlst (g : BitVec 4) (a : BitVec 5) (oc : BitVec 4) (ar : BitVec 1) (scope : BitVec 3)
  /-- SPT, R173. Tests a pointer's space, canonical form and usability without dereferencing it. -/
  | spt (d : BitVec 5) (a : BitVec 5)
  /-- SPC, R174. Converts a pointer to the same byte seen through another space. -/
  | spc (d : BitVec 5) (a : BitVec 5) (sp : BitVec 4)
  /-- MKP_LOCAL, R175. Builds a local-scratchpad pointer to a tile and offset. -/
  | mkpLocal (d : BitVec 5) (a : BitVec 5) (b : BitVec 5)
  /-- MKP_SHARED, R175. Builds a cluster-shared pointer from a relative coordinate and offset. -/
  | mkpShared (d : BitVec 5) (a : BitVec 5) (b : BitVec 5)
  /-- MKP_OPM, R175. Builds an OPM pointer to a tile and window offset. -/
  | mkpOpm (d : BitVec 5) (a : BitVec 5) (b : BitVec 5)
  /-- CSRR, R186. Reads a CSR into a register, stalling for FFLAGS and XSTAT. -/
  | csrr (d : BitVec 5) (csr : BitVec 11)
  /-- CSRW, R186. Writes a CSR under that CSR's own rules. -/
  | csrw (a : BitVec 5) (csr : BitVec 11)
  /-- CSRS, R186. Sets CSR bits in one read-modify-write. -/
  | csrs (a : BitVec 5) (csr : BitVec 11)
  /-- CSRC, R186. Clears CSR bits in one read-modify-write. -/
  | csrc (a : BitVec 5) (csr : BitVec 11)
  /-- ERET, R369. Applies RES to the trapped engine, leaves handler state and continues at TRAPPC. -/
  | eret
  /-- BRK, R187. Raises BRKPT precisely at the brk word. -/
  | brk
  /-- LPOLL, R188. Returns a mask of the link inputs that hold a word. -/
  | lpoll (d : BitVec 5)
  /-- REP, R184. Repeats the next word up to 64 times, stepping register fields or addresses. -/
  | rep (sa : BitVec 1) (s2 : BitVec 1) (s1 : BitVec 1) (sd : BitVec 1) (cnt : BitVec 6)
  /-- TRAP, R189. Raises SYSCALL with the immediate in TRAPCAUSE.INFO. -/
  | trap (imm : BitVec 14)
  /-- LDN, R266. Copies a window from any permitted space into the own scratchpad. -/
  | ldn (w : BitVec 1) (gv : BitVec 1) (gd : BitVec 4) (gs : BitVec 4) (oc : BitVec 4) (acq : BitVec 1) (rel : BitVec 1) (scope : BitVec 3) (nt : BitVec 1) (gn : BitVec 4)
  /-- LDR, R266. Copies a window of another tile's scratchpad into the own scratchpad. -/
  | ldr (w : BitVec 1) (gv : BitVec 1) (gd : BitVec 4) (gs : BitVec 4) (oc : BitVec 4) (acq : BitVec 1) (rel : BitVec 1) (scope : BitVec 3) (nt : BitVec 1) (gn : BitVec 4)
  /-- LDH, R270. Copies part of a bound host buffer into the own scratchpad. -/
  | ldh (w : BitVec 1) (gv : BitVec 1) (gd : BitVec 4) (gs : BitVec 4) (oc : BitVec 4) (acq : BitVec 1) (rel : BitVec 1) (scope : BitVec 3) (nt : BitVec 1) (gn : BitVec 4)
  /-- RCV, R272. Takes words from an inbound stream port into a window until full, end of burst, EOS or a marker. -/
  | rcv (w : BitVec 1) (gv : BitVec 1) (gd : BitVec 4) (port : BitVec 2) (e : BitVec 1) (oc : BitVec 4) (acq : BitVec 1) (rel : BitVec 1) (scope : BitVec 3) (nt : BitVec 1) (gn : BitVec 4)
  /-- GATH, R276. Sends RMW tokens to home tiles and gathers the returned values. -/
  | gath (w : BitVec 1) (gv : BitVec 1) (gval : BitVec 4) (gi : BitVec 4) (gr : BitVec 4) (slot : BitVec 2) (oc : BitVec 4) (sc : BitVec 2) (nov : BitVec 1)
  /-- PFX, R279. Asks the home slices to prefetch the lines of a window. -/
  | pfx (w : BitVec 1) (gv : BitVec 1) (gs : BitVec 4)
  /-- L_NEST, R280. Replays a body of L commands over a nest index space. -/
  | lNest (w : BitVec 1) (gv : BitVec 1) (nb : BitVec 4) (off : BitVec 15)
  /-- STN, R266. Copies a window of the own scratchpad to any permitted space. -/
  | stn (w : BitVec 1) (gv : BitVec 1) (gd : BitVec 4) (gs : BitVec 4) (oc : BitVec 4) (acq : BitVec 1) (rel : BitVec 1) (scope : BitVec 3) (nt : BitVec 1) (gn : BitVec 4)
  /-- STRM, R266. Copies a window of the own scratchpad into another tile's scratchpad. -/
  | strm (w : BitVec 1) (gv : BitVec 1) (gd : BitVec 4) (gs : BitVec 4) (oc : BitVec 4) (acq : BitVec 1) (rel : BitVec 1) (scope : BitVec 3) (nt : BitVec 1) (gn : BitVec 4)
  /-- STH, R270. Copies a window of the own scratchpad into a bound host buffer. -/
  | sth (w : BitVec 1) (gv : BitVec 1) (gd : BitVec 4) (gs : BitVec 4) (oc : BitVec 4) (acq : BitVec 1) (rel : BitVec 1) (scope : BitVec 3) (nt : BitVec 1) (gn : BitVec 4)
  /-- SND, R273. Packs a window into words and sends them to an outbound stream port. -/
  | snd (w : BitVec 1) (gv : BitVec 1) (gs : BitVec 4) (port : BitVec 2) (e : BitVec 1) (oc : BitVec 4) (acq : BitVec 1) (rel : BitVec 1) (scope : BitVec 3) (nt : BitVec 1) (gn : BitVec 4)
  /-- SCAT, R276. Sends RMW tokens with operands to their home tiles. -/
  | scat (w : BitVec 1) (gv : BitVec 1) (gval : BitVec 4) (gi : BitVec 4) (slot : BitVec 2) (oc : BitVec 4) (sc : BitVec 2)
  /-- EOS, R274. After earlier S writes are performed, sends an end-of-stream word to a port. -/
  | eos (w : BitVec 1) (gv : BitVec 1) (port : BitVec 2)
  /-- S_NEST, R280. Replays a body of S commands over a nest index space. -/
  | sNest (w : BitVec 1) (gv : BitVec 1) (nb : BitVec 4) (off : BitVec 15)
  /-- MMA, R220. Multiplies a gathered A operand by the active weight half into an accumulator bank. -/
  | mma (wl : BitVec 1) (ws : BitVec 1) (gl : BitVec 1) (gs : BitVec 1) (ga : BitVec 4) (gi : BitVec 4) (acc : BitVec 3) (af : BitVec 2) (wf : BitVec 2) (ix : BitVec 1) (iw : BitVec 1) (zs : BitVec 1) (clr : BitVec 1)
  /-- MMAS, R256. Sparse product over the forward order of the generated pattern. -/
  | mmas (wl : BitVec 1) (ws : BitVec 1) (gl : BitVec 1) (gs : BitVec 1) (ga : BitVec 4) (acc : BitVec 3) (af : BitVec 2) (wf : BitVec 2) (zs : BitVec 1) (clr : BitVec 1) (rb : BitVec 2)
  /-- MMAT, R256. Sparse product over the transposed order of an invertible pattern. -/
  | mmat (wl : BitVec 1) (ws : BitVec 1) (gl : BitVec 1) (gs : BitVec 1) (ga : BitVec 4) (acc : BitVec 3) (af : BitVec 2) (wf : BitVec 2) (zs : BitVec 1) (clr : BitVec 1) (rb : BitVec 2)
  /-- WLD, R224. Loads weights from a descriptor into the inactive weight half. -/
  | wld (wl : BitVec 1) (ws : BitVec 1) (gl : BitVec 1) (gs : BitVec 1) (gw : BitVec 4) (sf : BitVec 3)
  /-- WLD_PORT, R225. Loads weight rows from a stream port into the inactive weight half. -/
  | wldPort (wl : BitVec 1) (ws : BitVec 1) (gl : BitVec 1) (gs : BitVec 1) (port : BitVec 2) (sf : BitVec 3) (km1 : BitVec 8)
  /-- WSWAP, R227. Waits for WPEND to clear, then inverts the active weight half. -/
  | wswap (wl : BitVec 1) (ws : BitVec 1) (gl : BitVec 1) (gs : BitVec 1)
  /-- SCACC, R229. Applies scale vectors to ap and adds the result into an accumulator. -/
  | scacc (wl : BitVec 1) (ws : BitVec 1) (gl : BitVec 1) (gs : BitVec 1) (gsa : BitVec 4) (gsb : BitVec 4) (acc : BitVec 3) (sfmt : BitVec 1) (clrp : BitVec 1)
  /-- ACCCLR, R230. Sets the selected accumulator banks to +0. -/
  | accclr (wl : BitVec 1) (ws : BitVec 1) (gl : BitVec 1) (gs : BitVec 1) (mask : BitVec 5)
  /-- ACCST, R232. Converts and stores an accumulator bank to scratchpad, optionally with a release. -/
  | accst (wl : BitVec 1) (ws : BitVec 1) (gl : BitVec 1) (gs : BitVec 1) (gd : BitVec 4) (acc : BitVec 3) (efmt : BitVec 4) (rm : BitVec 3) (sat : BitVec 2) (sc : BitVec 2) (oc : BitVec 4)
  /-- ACCLD, R232. Loads and converts an accumulator bank from scratchpad, optionally with an acquire. -/
  | accld (wl : BitVec 1) (ws : BitVec 1) (gl : BitVec 1) (gs : BitVec 1) (gd : BitVec 4) (acc : BitVec 3) (efmt : BitVec 4) (rm : BitVec 3) (sat : BitVec 2) (sc : BitVec 2) (oc : BitVec 4)
  /-- EROW, R199. Runs one burst of words through the configured element row. -/
  | erow (wl : BitVec 1) (ws : BitVec 1) (gl : BitVec 1) (gs : BitVec 1) (gin : BitVec 4) (gout : BitVec 4) (gsa : BitVec 4) (gsb : BitVec 4) (sam : BitVec 2) (sbm : BitVec 2) (nout : BitVec 1)
  /-- ECFG, R202. Loads the whole row configuration from scratchpad. -/
  | ecfg (wl : BitVec 1) (ws : BitVec 1) (gl : BitVec 1) (gs : BitVec 1) (off : BitVec 15)
  /-- ECFG_ST, R202. Stores the whole row configuration to scratchpad. -/
  | ecfgSt (wl : BitVec 1) (ws : BitVec 1) (gl : BitVec 1) (gs : BitVec 1) (off : BitVec 15)
  /-- EMODE, R204. Applies a mode token from scratchpad to the lanes' configuration words. -/
  | emode (wl : BitVec 1) (ws : BitVec 1) (gl : BitVec 1) (gs : BitVec 1) (off : BitVec 15)
  /-- EMODE_PORT, R203. Applies a mode token taken from a stream port's inbound FIFO. -/
  | emodePort (wl : BitVec 1) (ws : BitVec 1) (gl : BitVec 1) (gs : BitVec 1) (port : BitVec 2)
  /-- GLD, R252. Loads and checks pattern words, then builds the pattern. -/
  | gld (wl : BitVec 1) (ws : BitVec 1) (gl : BitVec 1) (gs : BitVec 1) (nwm1 : BitVec 5) (off : BitVec 15)
  /-- GSET, R252. Sets a generator register, SEED part or PC, and marks the state dirty. -/
  | gset (wl : BitVec 1) (ws : BitVec 1) (gl : BitVec 1) (gs : BitVec 1) (sel : BitVec 4) (imm : BitVec 16)
  /-- GSAVE, R252. Writes the 256-byte generator state to scratchpad. -/
  | gsave (wl : BitVec 1) (ws : BitVec 1) (gl : BitVec 1) (gs : BitVec 1) (off : BitVec 15)
  /-- GREST, R252. Reads, checks and loads generator state, then builds. -/
  | grest (wl : BitVec 1) (ws : BitVec 1) (gl : BitVec 1) (gs : BitVec 1) (off : BitVec 15)
  /-- ZSCAN, R259. Sets or clears the zero flags of a run of 512-byte blocks by scanning them. -/
  | zscan (wl : BitVec 1) (ws : BitVec 1) (gl : BitVec 1) (gs : BitVec 1) (zf : BitVec 3) (cntm1 : BitVec 6) (blk : BitVec 12)
  /-- ZCLR, R259. Clears the zero flags of a run of blocks. -/
  | zclr (wl : BitVec 1) (ws : BitVec 1) (gl : BitVec 1) (gs : BitVec 1) (cntm1 : BitVec 6) (blk : BitVec 12)
  /-- X_NEST, R235. Replays a body of X commands over a nest index space, stepping descriptor bases. -/
  | xNest (wl : BitVec 1) (ws : BitVec 1) (gl : BitVec 1) (gs : BitVec 1) (nb : BitVec 4) (off : BitVec 15)
  /-- WORD_ISSUE, R130. A counter reads the word at its program counter and issues, skips or waits on it. -/
  | wordIssue (tile : Nat) (eng : Engine)
  /-- FLOW_OUTCOME_TAKE, R132. An L, X or S counter at a flow word consumes the next outcome and follows it. -/
  | flowOutcomeTake (tile : Nat) (eng : Engine)
  /-- COMMAND_START, R139. A queued L, X or S command starts once its tokens, range check and capture conditions hold. -/
  | commandStart (tile : Nat) (eng : Engine)
  /-- COMMAND_COMPLETE, R141. An L, X or S command completes and pushes its give tokens. -/
  | commandComplete (tile : Nat) (eng : Engine) (entry : Nat)
  /-- HELD_TOKEN_PUSH, R141. A push held on a full token FIFO is performed once the FIFO has room. -/
  | heldTokenPush (tile : Nat) (eng : Engine) (entry : Nat)
  /-- WLD_WRITE_PHASE_END, R226. The weight-load path finishes writing the inactive half and clears WPEND. -/
  | wldWritePhaseEnd (tile : Nat)
  /-- TILE_DRAIN_END, R136. After halt, draining ends and the tile either halts clean or C takes TOKERR. -/
  | tileDrainEnd (tile : Nat)
  /-- TRAP_ESCALATION, R370. The policy core halts the context's tiles, stops its generators and completes the run with CTXFAULT. -/
  | trapEscalation
  /-- FAULT_SERVICE, R371. The policy core backs a faulting page from the pool, or answers no backing, and the generator resumes. -/
  | faultService
  /-- HOST_PAGE_RESPONSE, R270. The host answers a PRI page request; the command resumes or is abandoned with STREAMFAULT. -/
  | hostPageResponse (req : Nat) (granted : Bool)
  /-- RMW_TOKEN_APPLY, R277. An RMW node applies an arriving token indivisibly at its home and returns the old value. -/
  | rmwTokenApply (k : Nat)
  /-- RENQ_ACCEPT, R339. The target queue accepts a pushed command block once N entries are free. -/
  | renqAccept (tile : Nat) (eng : Engine)
  /-- BARRIER_COMPLETE, R324. A barrier instance completes in every member once all have arrived and updates are settled, possibly opening a phase. -/
  | barrierComplete (tile : Nat) (gsel : BitVec 6)
  /-- PHASE_WORD_ARRIVAL, R328. A phase-wire word reaches a neighbour's input and is forwarded or queued. -/
  | phaseWordArrival (tile : Nat) (dir : Dir)
  /-- WAITW_WAKE, R333. A sleeping waitw wakes on a firing and re-reads its address. -/
  | waitwWake (tile : Nat)
  /-- SLOT_WAIT_SERVED, R338. A waiting acqs or rels is served when the slot reaches the needed state. -/
  | slotWaitServed (tile : Nat) (slot : Nat)
  /-- BATCH_WINDOW_EXPIRY, R357. WIN tile cycles after its first flit, an open batch leaves. -/
  | batchWindowExpiry (tile : Nat) (pub : Nat)
  /-- UPDATE_APPLY, R355. An update flit is applied at the subscriber, or spilled, or discarded and the subscription lapses. -/
  | updateApply (k : Nat)
  /-- SPILL_RING_ALLOCATION, R345. The policy core allocates a requested spill ring and the waiting sub continues. -/
  | spillRingAllocation (tile : Nat)
  /-- DOORBELL_WRITE, R82. A doorbell count is stored in the queue shadow and kicks the slot or sets the pending bit. -/
  | doorbellWrite (func : Nat) (offset : Nat) (bytes : Nat) (count : BitVec 32)
  /-- PACKET_FETCH, R85. The Front reads packets from a mapped ring whose shadow tail differs from its head. -/
  | packetFetch (q : Nat)
  /-- QUEUE_MAP, R83. The policy core loads a pending queue into a slot, unmapping an idle one if needed. -/
  | queueMap
  /-- QUEUE_QUIESCE, R84. After 50 µs with no idle slot, the longest-held busy queue is quiesced and unmapped. -/
  | queueQuiesce
  /-- NOP, R86. NOP packet completes with OK. -/
  | nop (src : PktSrc) (pkt : BitVec 512)
  /-- BIND, R89. A validated binding record enters its context's binding FIFO. -/
  | bind (src : PktSrc) (pkt : BitVec 512)
  /-- TOKEN, R98. A host ingress token is delivered to its HOST-TOKEN endpoint's token FIFO. -/
  | token (src : PktSrc) (pkt : BitVec 512)
  /-- CTXCREATE, R428. Holds a context number, copies and checks the image and backing table, and creates the context. -/
  | ctxcreate (src : PktSrc) (pkt : BitVec 512)
  /-- CTXDESTROY, R389. Destroys a context, completing its runs with KILLED and clearing its rectangle. -/
  | ctxdestroy (src : PktSrc) (pkt : BitVec 512)
  /-- QCREATE, R81. Checks a queue descriptor and creates the queue with the lowest free ID. -/
  | qcreate (src : PktSrc) (pkt : BitVec 512)
  /-- QDESTROY, R88. Destroys a queue. -/
  | qdestroy (src : PktSrc) (pkt : BitVec 512)
  /-- SHARESET, R102. Writes a bandwidth share class into every controller's share table. -/
  | shareset (src : PktSrc) (pkt : BitVec 512)
  /-- ALLOWSET, R30. Sets or clears an entry of a function's author allow list. -/
  | allowset (src : PktSrc) (pkt : BitVec 512)
  /-- LANESET, R94. Sets a launch-lane source entry of a jet port. -/
  | laneset (src : PktSrc) (pkt : BitVec 512)
  /-- LAUNCH_LANE_MESSAGE, R94. A packet from a jet-port peer is matched against source entries and validated. -/
  | launchLaneMessage (port : Nat) (source : BitVec 12) (pkt : BitVec 512)
  /-- BINDING_START, R97. The dispatcher starts a FIFO head: programs generators, writes arguments, injects start tokens. -/
  | bindingStart (ctx : Nat)
  /-- PRIORITY_AGEING, R96. Every 10 µs at the FIFO head, a binding's effective priority rises by one. -/
  | priorityAgeing (ctx : Nat)
  /-- RUN_COMPLETION, R383. When every sink's EOS is met and posted count is zero, the run's OK record is written. -/
  | runCompletion (ctx : Nat)
  /-- RUN_FAILURE, R386. The first failure event ends the run and its record is written after posted stores settle. -/
  | runFailure (ctx : Nat)
  /-- COMPLETION_RECORD_WRITE, R101. A held completion record is written when its ring has room, then MSI-X and host-token follow. -/
  | completionRecordWrite (cq : Nat)
  /-- PLACEMENT, R110. The policy core chooses an origin and places or restores a context in order of steps. -/
  | placement (ctx : Nat)
  /-- EVICTION, R388. Runs the lull sequence, seals the context and clears its rectangle. -/
  | eviction (ctx : Nat)
  /-- LULL_MARKER_ARRIVAL, R372. A tile or generator receives its lull marker and stops issue or its stream. -/
  | lullMarkerArrival (target : LullTarget)
  /-- TILE_SEAL, R373. Once commands complete and markers arrive on every inbound port, the tile saves and seals its state. -/
  | tileSeal (tile : Nat)
  /-- CONTEXT_SEAL, R372. When every agent has saved, the Front seals the context record and starts clearing. -/
  | contextSeal (ctx : Nat)
  /-- CLEARING_TOKEN, R117. A tile clears itself to reset state and passes the token east. -/
  | clearingToken (tile : Nat)
  /-- CLEARING_COMPLETE, R118. After the memory-port release, the clearing completes and is reported. -/
  | clearingComplete (ctx : Nat)
  /-- STAGE_SWAP, R124. The region manager starts a hot swap to the next stage with non-empty queues. -/
  | stageSwap (ctx : Nat) (list : Nat)
  /-- SWAP_DRAIN_END, R123. A held region's drain ends and its reload begins. -/
  | swapDrainEnd (ctx : Nat) (region : Nat)
  /-- SWAP_RELOAD_END, R123. All cells are reloaded and the input ports are released. -/
  | swapReloadEnd (ctx : Nat) (region : Nat)
  /-- SWAPTIMEOUT, R123. A drain not ended 1 ms after hold abandons the swap. -/
  | swaptimeout (ctx : Nat) (region : Nat)
  /-- SCRUB_PASS, R125. The scrubber reads every frame, corrects single-bit errors and recomputes signatures. -/
  | scrubPass (die : Nat)
  /-- CONFIG_ERROR, R126. An uncorrectable error or signature mismatch freezes the region and starts its reload. -/
  | configError (ctx : Nat) (region : Nat)
  /-- CONFIG_RELOAD_DONE, R126. The frozen region is reloaded and released; mapped tiles will take CFGERR. -/
  | configReloadDone (ctx : Nat) (region : Nat)
  /-- REGION_PORT_WORD, R121. A 64-byte word crosses a tile-region FIFO between clocks. -/
  | regionPortWord (ctx : Nat) (region : Nat) (rport : Nat)
  /-- INPUT_GENERATOR_WORD, R282. A MEM-IN or HOST-IN generator sends the next line as a word, then EOS. -/
  | inputGeneratorWord (ctx : Nat) (ep : Nat)
  /-- OUTPUT_GENERATOR_WORD, R282. A MEM-OUT or HOST-OUT generator writes a taken word, or stops at EOS and reports it. -/
  | outputGeneratorWord (ctx : Nat) (ep : Nat)
  /-- QUEUE_ENQUEUE, R284. A QUEUE generator stores a word from its port in the device-memory ring. -/
  | queueEnqueue (ctx : Nat) (ep : Nat)
  /-- QUEUE_DEQUEUE, R284. A QUEUE generator delivers the next ring word to its port. -/
  | queueDequeue (ctx : Nat) (ep : Nat)
  /-- JET_OUT_WORD, R400. A JET-OUT generator sends a word to the peer under its stream tag when it has credit. -/
  | jetOutWord (ctx : Nat) (ep : Nat)
  /-- JET_IN_WORD, R400. A JET-IN endpoint delivers an arriving word with matching tag and grants credit. -/
  | jetInWord (port : Nat)
  /-- CORNER_TURN_WORD, R237. A corner-turn node takes a word into a block buffer and emits transposed blocks. -/
  | cornerTurnWord (tile : Nat) (slot : Nat)
  /-- ARBITER_BURST, R341. An arbiter node tickets and delivers bursts and routes replies. -/
  | arbiterBurst (tile : Nat) (slot : Nat)
  /-- COUNTER_NODE_WORD, R341. A counter node adds an arriving word's i32 and sends ZSEQ when COUNT reaches zero. -/
  | counterNodeWord (tile : Nat) (slot : Nat)
  /-- MERGE_BURST, R341. A merge node delivers or combines bursts in ticket order. -/
  | mergeBurst (tile : Nat) (slot : Nat)
  /-- SLICE_REQUEST, R295. A cache slice performs a request at the home, allocating or bypassing on misses. -/
  | sliceRequest (pa : Nat) (write : Bool) (noalloc : Bool)
  /-- SLICE_MISS_RESPONSE, R296. Memory answers a miss and the miss register is freed. -/
  | sliceMissResponse (slice : Nat)
  /-- ACCOUNTING_WINDOW, R103. Each 1 µs a controller starts a new share accounting window. -/
  | accountingWindow (controller : Nat)
  /-- POSTED_STORE_ACK, R384. A peer acknowledges a posted request and the posted count falls. -/
  | postedStoreAck (request : Nat)
  /-- SELF_TEST, R378. A targeted self-test runs at a unit's quiescent point and classifies the fault. -/
  | selfTest (unit : HwUnit) (index : Nat) (lasting : Bool)
  /-- FATAL_ERROR, R381. The Front stops dispatch and firmware writes the encrypted dump. -/
  | fatalError
  /-- WATCHDOG_EXPIRY, R381. The policy core's 100 ms watchdog expires, a fatal error. -/
  | watchdogExpiry
  /-- PCIE_LINK_DOWN, R390. The host link goes down, faulting host-range work and losing security sessions. -/
  | pcieLinkDown
  /-- PCIE_LINK_UP, R391. The host link returns and held records are written once security is re-established. -/
  | pcieLinkUp
  /-- HOT_RESET, R392. Clears every context and function state; after a fatal error reruns boot from step 2. -/
  | hotReset
  /-- PF_FLR, R390. A physical function reset clears all contexts, keys and queues. -/
  | pfFlr
  /-- VF_FLR, R390. A virtual function reset destroys that function's contexts and queues. -/
  | vfFlr (func : Nat)
  /-- POWER_GOOD, R401. The device boots: ROM check, Front, firmware verification, identity key, training. -/
  | powerGood (romOk : Bool) (firmware : List (BitVec 8))
  /-- THERMAL_THROTTLE, R405. At 105 °C die temperature the pipes run at most half their cycles. -/
  | thermalThrottle
  /-- THERMAL_TRIP, R405. At 115 °C the device asserts thermal trip. -/
  | thermalTrip
  /-- POWER_CAP_WINDOW, R405. Each 10 ms window the device holds mean power at or below PWRCAP by stalling pipes. -/
  | powerCapWindow (milliwatts : Nat)
  /-- JET_LINK_UP, R397. Training and the SPDM key exchange complete and LINK becomes up. -/
  | jetLinkUp (port : Nat) (peer : BitVec 12)
  /-- TAG_RUN_CLOSE, R398. A flit run closes after TAGRUN+1 flits or 20 ns idle and its tag flit is sent. -/
  | tagRunClose (port : Nat)
  /-- TAG_FLIT_RECEIVE, R399. The receiver verifies a run's tag, releasing its flits or requesting replay. -/
  | tagFlitReceive (port : Nat) (seq : Nat) (verified : Bool)
  /-- REPLAY_REQUEST, R399. The sender replays from the requested run sequence number. -/
  | replayRequest (port : Nat) (seq : Nat)
  /-- KEY_ROTATION, R397. Link keys are rotated before a run sequence number reaches 2^48. -/
  | keyRotation (port : Nat)
  /-- SPDM_MEASUREMENTS, R403. Returns signed attestation evidence for a context. -/
  | spdmMeasurements (func : Nat) (ctx : Nat) (nonce : BitVec 256)
  /-- FIRMWARE_OPM_ACCESS, R68. Firmware reads or writes a tile's OPM window by module coordinate. -/
  | firmwareOpmAccess (tile : Nat) (offset : Nat) (data : Option (BitVec 64))
  /-- BAR4_ACCESS, R394. A host access reaches plaintext device memory of the function's allocation. -/
  | bar4Access (func : Nat) (offset : Nat) (bytes : Nat) (data : Option (List (BitVec 8)))
  /-- AQCTL, R85. A write enabling the admin queue pair with LOGN and PASID. -/
  | aqctl (func : Nat) (value : BitVec 64)
  /-- DBDROP, R395. A write of 0 clears the dropped-doorbell counter. -/
  | dbdrop (func : Nat) (value : BitVec 64)
  /-- EVICT, R388. A write requests eviction of a context. -/
  | evict (func : Nat) (value : BitVec 64)
  /-- PWRCAP, R395. A write sets the power cap, clamped to 2,000–7,500 W. -/
  | pwrcap (func : Nat) (value : BitVec 64)
  /-- JPCTL, R396. A write sets jet-port controls; setting EN starts training. -/
  | jpctl (func : Nat) (port : Nat) (value : BitVec 64)
  /-- FNSTAT, R395. A read returns function status, LINKLOST since the last read. -/
  | fnstat (func : Nat)
  /-- REGISTER_WRITE, R395. A write to a BAR0 register with no behaviour of its own stores the value, or is ignored. -/
  | registerWrite (func : Nat) (offset : Nat) (value : BitVec 64)
  /-- MEMORY_PORT_REQUEST, R289. A memory-port tile takes an edge-network request, checks its context tag, translates it through the range entries, and forwards it, refuses it or stops it on a page fault. -/
  | memoryPortRequest (port : Nat) (ctx : Nat) (gen : Nat) (va : Nat) (bytes : Nat) (data : Option (List (BitVec 8)))
  /-- IDE_ESTABLISHMENT, R391. After the link returns, the driver re-establishes PCIe IDE, and held host fetches and records resume. -/
  | ideEstablishment (func : Nat)
  /-- TDISP_LOCK_INTERFACE, R391. The host locks a function's TDISP interface, after which the function resumes host traffic and BAR4 accepts only TDI-bound requests. -/
  | tdispLockInterface (func : Nat)
  /-- SPDM_GET_CERTIFICATE, R402. An SPDM request returns the Toldavun certificate of the identity key from certificate slot 0. -/
  | spdmGetCertificate (slot : Nat)
  /-- DIE_TEMPERATURE_FALL, R405. The die temperature falls back below 105 °C and the pipes leave the half-rate restriction. -/
  | dieTemperatureFall
  deriving DecidableEq, Repr

end Sys2Proof
end

