-- ==== Sys2Proof/WellFormed.lean ====
section
/-! DEFINITION. Which terms of `Instr` are instructions.

A word is well formed when none of its operand fields holds a code that its table calls reserved, or a field
that its form leaves unused and non-zero (R3, R156); such a word meets the fate of R156 and no meaning below is
asked of it. The conditions that depend on the tile rather than on the word (an assigned CSR number, a group
that fits the rectangle, the register pair of `amocas`) are checks of the meanings. An event is well formed when
it names a unit that the device has (R1). -/

namespace Sys2Proof

/-- Codes 0 T, 1 G, 2 K, 3 D and 4 Y; 5-7 are reserved (R153). -/
def scopeOk (s : BitVec 3) : Bool := s.toNat <= 4

/-- The scope field of a scalar access: zero unless AR is set (R168, R318, R332). -/
def accessScopeOk (ar : BitVec 1) (s : BitVec 3) : Bool := scopeOk s && (ar == 1 || s == 0)

/-- The scope field of a command: zero unless ACQ or REL is set (R263). -/
def commandScopeOk (acq rel : BitVec 1) (s : BitVec 3) : Bool :=
  scopeOk s && (acq == 1 || rel == 1 || s == 0)

/-- Codes 0-4 name the source of a phase-wire output (R330). -/
def muxOk (s : BitVec 3) : Bool := s.toNat <= 4

/-- A register field that holds no link operand, as a flow word needs (R163). -/
def notLink (r : BitVec 5) : Bool := r.toNat < 28

/-- The assigned layout-record field codes (R176). -/
def fieldOk (f : BitVec 6) : Bool :=
  let n := f.toNat
  n <= 8 || (0x10 <= n && n <= 0x15) || (0x18 <= n && n <= 0x1D) || (0x20 <= n && n <= 0x25)
    || (0x28 <= n && n <= 0x2D)

/-- The space codes that R61 defines; `spc` to any other is unassigned (R172). -/
def spaceCodeOk (s : BitVec 4) : Bool := s == 0 || s == 8 || s == 9 || s == 10 || s == 11

/-- Banks 0-3 are `a0`-`a3`, 4 is `ap` (R218). -/
def bankOk (b : BitVec 3) : Bool := b.toNat <= 4

/-- The pairings of an A format and a weight format that R219 accepts. -/
def pairingOk (af wf : BitVec 2) : Bool :=
  if af.toNat <= 1 then wf != 2 else if af == 2 then wf == 2 else false

/-- Rounding modes 0-4 (R39). -/
def roundingOk (r : BitVec 3) : Bool := r.toNat <= 4

/-- A side-port field of `erow` under its mode: unused, a descriptor, or a port with its high bits zero (R198). -/
def sideOk (m : BitVec 2) (g : BitVec 4) : Bool :=
  if m == 0 then g == 0 else if m == 1 then true else if m == 2 then g.toNat < 4 else false

/-- A module coordinate `(row << 6) | col` of one of the 2,048 tiles (R1, R68). -/
def tileOk (t : Nat) : Bool := t < 2048

/-- A context number (R105). -/
def ctxOk (c : Nat) : Bool := c < 32

/-- A PCIe function: the physical function 0 or a virtual function (R395). -/
def funcOk (f : Nat) : Bool := f < 32

/-- A jet-port number (R396). -/
def portOk (p : Nat) : Bool := p < 64

/-- A queue identifier (R80). -/
def queueOk (q : Nat) : Bool := q < 4096

/-- The unit named by the source of a packet. -/
def pktSrcOk : PktSrc → Bool
  | .queue q => queueOk q
  | .lane p _ => portOk p

/-- The unit named by a lull marker. -/
def lullTargetOk : LullTarget → Bool
  | .tile t => tileOk t
  | .generator c _ => ctxOk c

/-- No reserved code and no unused field in use: the encodings of R152-R155 with the tables of each instruction,
and the units of the events. -/
def wellFormed : Instr → Bool
  | .add _ _ _ => true
  | .sub _ _ _ => true
  | .mul _ _ _ => true
  | .mulh _ _ _ => true
  | .mulhsu _ _ _ => true
  | .mulhx _ _ _ => true
  | .div _ _ _ => true
  | .divx _ _ _ => true
  | .rem _ _ _ => true
  | .remx _ _ _ => true
  | .and _ _ _ => true
  | .or _ _ _ => true
  | .xor _ _ _ => true
  | .andn _ _ _ => true
  | .orn _ _ _ => true
  | .sll _ _ _ => true
  | .srl _ _ _ => true
  | .sra _ _ _ => true
  | .rol _ _ _ => true
  | .ror _ _ _ => true
  | .min _ _ _ => true
  | .max _ _ _ => true
  | .minx _ _ _ => true
  | .maxx _ _ _ => true
  | .slt _ _ _ => true
  | .sltx _ _ _ => true
  | .seq _ _ _ => true
  | .sne _ _ _ => true
  | .sel _ _ _ => true
  | .clz _ _ => true
  | .ctz _ _ => true
  | .popc _ _ => true
  | .sextB _ _ => true
  | .sextH _ _ => true
  | .sextW _ _ => true
  | .zextB _ _ => true
  | .zextH _ _ => true
  | .zextW _ _ => true
  | .lea _ _ _ _ => true
  | .madd _ _ _ => true
  | .bfe _ _ _ => true
  | .bfi _ _ _ => true
  | .addi _ _ _ => true
  | .andi _ _ _ => true
  | .ori _ _ _ => true
  | .xori _ _ _ => true
  | .slli _ _ _ => true
  | .srli _ _ _ => true
  | .srai _ _ _ => true
  | .slti _ _ _ => true
  | .sltxi _ _ _ => true
  | .lui _ _ => true
  | .auipc _ _ => true
  | .ld _ _ _ ar scope _ _ => accessScopeOk ar scope
  | .ldz _ _ _ ar scope size _ => accessScopeOk ar scope && size != 3
  | .st _ _ _ ar scope _ _ => accessScopeOk ar scope
  | .amoadd _ _ _ ar scope _ => accessScopeOk ar scope
  | .amomin _ _ _ ar scope _ => accessScopeOk ar scope
  | .amomax _ _ _ ar scope _ => accessScopeOk ar scope
  | .aminx _ _ _ ar scope _ => accessScopeOk ar scope
  | .amaxx _ _ _ ar scope _ => accessScopeOk ar scope
  | .amoand _ _ _ ar scope _ => accessScopeOk ar scope
  | .amoor _ _ _ ar scope _ => accessScopeOk ar scope
  | .amoxor _ _ _ ar scope _ => accessScopeOk ar scope
  | .amoswp _ _ _ ar scope _ => accessScopeOk ar scope
  | .amocas _ _ _ ar scope _ => accessScopeOk ar scope
  | .amotas _ _ _ ar scope _ => accessScopeOk ar scope
  | .fence scope _ => scopeOk scope
  | .bar scope _ _ => scopeOk scope
  | .bart scope _ => scopeOk scope
  | .tx d a _ sen ren diro diri => (sen == 1 || ren == 1) && (sen == 1 || (a == 0 && diro == 0)) && (ren == 1 || (d == 0 && diri == 0))
  | .mux west south east north => muxOk west && muxOk south && muxOk east && muxOk north
  | .waitw _ _ _ ar scope _ => accessScopeOk ar scope
  | .waitwArm _ _ _ => true
  | .acqs _ _ _ scope => scopeOk scope
  | .rels _ _ _ scope => scopeOk scope
  | .renq _ _ scope eng => scopeOk scope && eng != 0
  | .subSubscribe _ _ _ => true
  | .unsub _ => true
  | .pflush => true
  | .resync _ => true
  | .subq _ _ => true
  | .b _ => true
  | .beq a b _ => notLink a && notLink b
  | .bne a b _ => notLink a && notLink b
  | .blt a b _ => notLink a && notLink b
  | .bge a b _ => notLink a && notLink b
  | .bltx a b _ => notLink a && notLink b
  | .bgex a b _ => notLink a && notLink b
  | .call r _ => notLink r
  | .ret r => notLink r
  | .loop r _ => notLink r
  | .halt => true
  | .tlset _ _ fld => fieldOk fld
  | .tlget _ _ fld => fieldOk fld
  | .tlclr _ => true
  | .tlmov _ _ => true
  | .tlchkL _ _ => true
  | .tlchkX _ _ => true
  | .tlchkS _ _ => true
  | .tlld _ _ _ ar scope => accessScopeOk ar scope
  | .tlst _ _ _ ar scope => accessScopeOk ar scope
  | .spt _ _ => true
  | .spc _ _ sp => spaceCodeOk sp
  | .mkpLocal _ _ _ => true
  | .mkpShared _ _ _ => true
  | .mkpOpm _ _ _ => true
  | .csrr _ _ => true
  | .csrw _ _ => true
  | .csrs _ _ => true
  | .csrc _ _ => true
  | .eret => true
  | .brk => true
  | .lpoll _ => true
  | .rep _ _ _ _ _ => true
  | .trap _ => true
  | .ldn _ _ _ _ _ acq rel scope nt gn => commandScopeOk acq rel scope && (nt == 1 || gn == 0)
  | .ldr _ _ _ _ _ acq rel scope nt gn => commandScopeOk acq rel scope && (nt == 1 || gn == 0)
  | .ldh _ _ _ _ _ acq rel scope nt gn => commandScopeOk acq rel scope && (nt == 1 || gn == 0)
  | .rcv _ _ _ _ _ _ acq rel scope nt gn => commandScopeOk acq rel scope && (nt == 1 || gn == 0)
  | .gath _ _ gval _ _ _ _ _ nov => nov == 0 || gval == 0
  | .pfx _ _ _ => true
  | .lNest _ _ _ _ => true
  | .stn _ _ _ _ _ acq rel scope nt gn => commandScopeOk acq rel scope && (nt == 1 || gn == 0)
  | .strm _ _ _ _ _ acq rel scope nt gn => commandScopeOk acq rel scope && (nt == 1 || gn == 0)
  | .sth _ _ _ _ _ acq rel scope nt gn => commandScopeOk acq rel scope && (nt == 1 || gn == 0)
  | .snd _ _ _ _ _ _ acq rel scope nt gn => commandScopeOk acq rel scope && (nt == 1 || gn == 0)
  | .scat _ _ _ _ _ _ _ => true
  | .eos _ _ _ => true
  | .sNest _ _ _ _ => true
  | .mma _ _ _ _ _ gi acc af wf ix iw _ _ => bankOk acc && pairingOk af wf && (ix == 1 || (gi == 0 && iw == 0))
  | .mmas _ _ _ _ _ acc af wf _ _ _ => bankOk acc && pairingOk af wf
  | .mmat _ _ _ _ _ acc af wf _ _ _ => bankOk acc && pairingOk af wf
  | .wld _ _ _ _ _ sf => sf.toNat <= 5
  | .wldPort _ _ _ _ _ sf _ => sf.toNat <= 5
  | .wswap _ _ _ _ => true
  | .scacc _ _ _ _ _ _ acc _ _ => acc.toNat <= 3
  | .accclr _ _ _ _ mask => mask != 0
  | .accst _ _ _ _ _ acc efmt rm sat _ _ => bankOk acc && efmt != 6 && efmt != 15 && roundingOk rm && sat != 3
  | .accld _ _ _ _ _ acc efmt rm sat _ _ => bankOk acc && efmt != 15 && roundingOk rm && sat != 3
  | .erow _ _ _ _ _ gout gsa gsb sam sbm nout => (nout == 0 || gout == 0) && sideOk sam gsa && sideOk sbm gsb
  | .ecfg _ _ _ _ _ => true
  | .ecfgSt _ _ _ _ _ => true
  | .emode _ _ _ _ _ => true
  | .emodePort _ _ _ _ _ => true
  | .gld _ _ _ _ _ _ => true
  | .gset _ _ _ _ sel imm => sel != 15 || imm.toNat < 32
  | .gsave _ _ _ _ _ => true
  | .grest _ _ _ _ _ => true
  | .zscan _ _ _ _ zf _ _ => zf.toNat <= 4
  | .zclr _ _ _ _ _ _ => true
  | .xNest _ _ _ _ _ _ => true
  | .wordIssue tile _ => tileOk tile
  | .flowOutcomeTake tile _ => tileOk tile
  | .commandStart tile _ => tileOk tile
  | .commandComplete tile _ _ => tileOk tile
  | .heldTokenPush tile _ _ => tileOk tile
  | .wldWritePhaseEnd tile => tileOk tile
  | .tileDrainEnd tile => tileOk tile
  | .trapEscalation => true
  | .faultService => true
  | .hostPageResponse _ _ => true
  | .rmwTokenApply _ => true
  | .renqAccept tile _ => tileOk tile
  | .barrierComplete tile _ => tileOk tile
  | .phaseWordArrival tile _ => tileOk tile
  | .waitwWake tile => tileOk tile
  | .slotWaitServed tile slot => tileOk tile && slot < 8
  | .batchWindowExpiry tile pub => tileOk tile && pub < 32
  | .updateApply _ => true
  | .spillRingAllocation tile => tileOk tile
  | .doorbellWrite func _ _ _ => funcOk func
  | .packetFetch q => queueOk q
  | .queueMap => true
  | .queueQuiesce => true
  | .nop src _ => pktSrcOk src
  | .bind src _ => pktSrcOk src
  | .token src _ => pktSrcOk src
  | .ctxcreate src _ => pktSrcOk src
  | .ctxdestroy src _ => pktSrcOk src
  | .qcreate src _ => pktSrcOk src
  | .qdestroy src _ => pktSrcOk src
  | .shareset src _ => pktSrcOk src
  | .allowset src _ => pktSrcOk src
  | .laneset src _ => pktSrcOk src
  | .launchLaneMessage port _ _ => portOk port
  | .bindingStart ctx => ctxOk ctx
  | .priorityAgeing ctx => ctxOk ctx
  | .runCompletion ctx => ctxOk ctx
  | .runFailure ctx => ctxOk ctx
  | .completionRecordWrite cq => queueOk cq
  | .placement ctx => ctxOk ctx
  | .eviction ctx => ctxOk ctx
  | .lullMarkerArrival target => lullTargetOk target
  | .tileSeal tile => tileOk tile
  | .contextSeal ctx => ctxOk ctx
  | .clearingToken tile => tileOk tile
  | .clearingComplete ctx => ctxOk ctx
  | .stageSwap ctx _ => ctxOk ctx
  | .swapDrainEnd ctx _ => ctxOk ctx
  | .swapReloadEnd ctx _ => ctxOk ctx
  | .swaptimeout ctx _ => ctxOk ctx
  | .scrubPass die => die < 8
  | .configError ctx _ => ctxOk ctx
  | .configReloadDone ctx _ => ctxOk ctx
  | .regionPortWord ctx _ _ => ctxOk ctx
  | .inputGeneratorWord ctx _ => ctxOk ctx
  | .outputGeneratorWord ctx _ => ctxOk ctx
  | .queueEnqueue ctx _ => ctxOk ctx
  | .queueDequeue ctx _ => ctxOk ctx
  | .jetOutWord ctx _ => ctxOk ctx
  | .jetInWord port => portOk port
  | .cornerTurnWord tile slot => tileOk tile && slot < 4
  | .arbiterBurst tile slot => tileOk tile && slot < 4
  | .counterNodeWord tile slot => tileOk tile && slot < 4
  | .mergeBurst tile slot => tileOk tile && slot < 4
  | .sliceRequest _ _ _ => true
  | .sliceMissResponse slice => slice < 512
  | .accountingWindow controller => controller < 32
  | .postedStoreAck _ => true
  | .selfTest _ _ _ => true
  | .fatalError => true
  | .watchdogExpiry => true
  | .pcieLinkDown => true
  | .pcieLinkUp => true
  | .hotReset => true
  | .pfFlr => true
  | .vfFlr func => funcOk func
  | .powerGood _ _ => true
  | .thermalThrottle => true
  | .thermalTrip => true
  | .powerCapWindow _ => true
  | .jetLinkUp port _ => portOk port
  | .tagRunClose port => portOk port
  | .tagFlitReceive port _ _ => portOk port
  | .replayRequest port _ => portOk port
  | .keyRotation port => portOk port
  | .spdmMeasurements func ctx _ => funcOk func && ctxOk ctx
  | .firmwareOpmAccess tile _ _ => tileOk tile
  | .bar4Access func _ _ _ => funcOk func
  | .aqctl func _ => funcOk func
  | .dbdrop func _ => funcOk func
  | .evict func _ => funcOk func
  | .pwrcap func _ => funcOk func
  | .jpctl func port _ => funcOk func && portOk port
  | .fnstat func => funcOk func
  | .registerWrite func _ _ => funcOk func
  | .memoryPortRequest port ctx _ _ _ _ => port < 256 && ctxOk ctx
  | .ideEstablishment func => funcOk func
  | .tdispLockInterface func => funcOk func
  | .spdmGetCertificate _ => true
  | .dieTemperatureFall => true

end Sys2Proof
end

