-- ==== Sys2Proof/Decode.lean ====
section
/-! DEFINITION. Decoding and encoding instruction words (06 R131, R152-R156, and the table of each instruction).

`decode` is total: a word is an instruction, or it is unassigned, or it has a reserved field or code. The two
refusals have one fate (R156: ILLOP in its own engine). The candidate of a word is read from its ENG, OP6, CLASS
and sub-function fields, and it is accepted only if encoding it gives the word back, which is what says that
every bit outside its fields is zero, and only if none of its fields holds a reserved code. -/

namespace Sys2Proof

/-- The words of OP6 0x00, by bits [8:0]. -/
def candidateC00 (w : IWord) : Option Instr :=
  match (w.extractLsb' 0 9).toNat with
  | 0x0 => some (.add (w.extractLsb' 19 5) (w.extractLsb' 14 5) (w.extractLsb' 9 5))
  | 0x1 => some (.sub (w.extractLsb' 19 5) (w.extractLsb' 14 5) (w.extractLsb' 9 5))
  | 0x2 => some (.mul (w.extractLsb' 19 5) (w.extractLsb' 14 5) (w.extractLsb' 9 5))
  | 0x3 => some (.mulh (w.extractLsb' 19 5) (w.extractLsb' 14 5) (w.extractLsb' 9 5))
  | 0x4 => some (.mulhsu (w.extractLsb' 19 5) (w.extractLsb' 14 5) (w.extractLsb' 9 5))
  | 0x5 => some (.mulhx (w.extractLsb' 19 5) (w.extractLsb' 14 5) (w.extractLsb' 9 5))
  | 0x6 => some (.div (w.extractLsb' 19 5) (w.extractLsb' 14 5) (w.extractLsb' 9 5))
  | 0x7 => some (.divx (w.extractLsb' 19 5) (w.extractLsb' 14 5) (w.extractLsb' 9 5))
  | 0x8 => some (.rem (w.extractLsb' 19 5) (w.extractLsb' 14 5) (w.extractLsb' 9 5))
  | 0x9 => some (.remx (w.extractLsb' 19 5) (w.extractLsb' 14 5) (w.extractLsb' 9 5))
  | 0x10 => some (.and (w.extractLsb' 19 5) (w.extractLsb' 14 5) (w.extractLsb' 9 5))
  | 0x11 => some (.or (w.extractLsb' 19 5) (w.extractLsb' 14 5) (w.extractLsb' 9 5))
  | 0x12 => some (.xor (w.extractLsb' 19 5) (w.extractLsb' 14 5) (w.extractLsb' 9 5))
  | 0x13 => some (.andn (w.extractLsb' 19 5) (w.extractLsb' 14 5) (w.extractLsb' 9 5))
  | 0x14 => some (.orn (w.extractLsb' 19 5) (w.extractLsb' 14 5) (w.extractLsb' 9 5))
  | 0x18 => some (.sll (w.extractLsb' 19 5) (w.extractLsb' 14 5) (w.extractLsb' 9 5))
  | 0x19 => some (.srl (w.extractLsb' 19 5) (w.extractLsb' 14 5) (w.extractLsb' 9 5))
  | 0x1a => some (.sra (w.extractLsb' 19 5) (w.extractLsb' 14 5) (w.extractLsb' 9 5))
  | 0x1b => some (.rol (w.extractLsb' 19 5) (w.extractLsb' 14 5) (w.extractLsb' 9 5))
  | 0x1c => some (.ror (w.extractLsb' 19 5) (w.extractLsb' 14 5) (w.extractLsb' 9 5))
  | 0x20 => some (.min (w.extractLsb' 19 5) (w.extractLsb' 14 5) (w.extractLsb' 9 5))
  | 0x21 => some (.max (w.extractLsb' 19 5) (w.extractLsb' 14 5) (w.extractLsb' 9 5))
  | 0x22 => some (.minx (w.extractLsb' 19 5) (w.extractLsb' 14 5) (w.extractLsb' 9 5))
  | 0x23 => some (.maxx (w.extractLsb' 19 5) (w.extractLsb' 14 5) (w.extractLsb' 9 5))
  | 0x24 => some (.slt (w.extractLsb' 19 5) (w.extractLsb' 14 5) (w.extractLsb' 9 5))
  | 0x25 => some (.sltx (w.extractLsb' 19 5) (w.extractLsb' 14 5) (w.extractLsb' 9 5))
  | 0x26 => some (.seq (w.extractLsb' 19 5) (w.extractLsb' 14 5) (w.extractLsb' 9 5))
  | 0x27 => some (.sne (w.extractLsb' 19 5) (w.extractLsb' 14 5) (w.extractLsb' 9 5))
  | 0x28 => some (.sel (w.extractLsb' 19 5) (w.extractLsb' 14 5) (w.extractLsb' 9 5))
  | 0x30 => some (.clz (w.extractLsb' 19 5) (w.extractLsb' 14 5))
  | 0x31 => some (.ctz (w.extractLsb' 19 5) (w.extractLsb' 14 5))
  | 0x32 => some (.popc (w.extractLsb' 19 5) (w.extractLsb' 14 5))
  | 0x34 => some (.sextB (w.extractLsb' 19 5) (w.extractLsb' 14 5))
  | 0x35 => some (.sextH (w.extractLsb' 19 5) (w.extractLsb' 14 5))
  | 0x36 => some (.sextW (w.extractLsb' 19 5) (w.extractLsb' 14 5))
  | 0x38 => some (.zextB (w.extractLsb' 19 5) (w.extractLsb' 14 5))
  | 0x39 => some (.zextH (w.extractLsb' 19 5) (w.extractLsb' 14 5))
  | 0x3a => some (.zextW (w.extractLsb' 19 5) (w.extractLsb' 14 5))
  | _ => none

/-- The words of OP6 0x01, by bits [8:0]. -/
def candidateC01 (w : IWord) : Option Instr :=
  match (w.extractLsb' 0 9).toNat with
  | 0x0 | 0x1 | 0x2 | 0x3 | 0x4 | 0x5 | 0x6 | 0x7 => some (.lea (w.extractLsb' 19 5) (w.extractLsb' 14 5) (w.extractLsb' 9 5) (w.extractLsb' 0 3))
  | 0x10 => some (.madd (w.extractLsb' 19 5) (w.extractLsb' 14 5) (w.extractLsb' 9 5))
  | 0x11 => some (.bfe (w.extractLsb' 19 5) (w.extractLsb' 14 5) (w.extractLsb' 9 5))
  | 0x12 => some (.bfi (w.extractLsb' 19 5) (w.extractLsb' 14 5) (w.extractLsb' 9 5))
  | _ => none

/-- The words of OP6 0x28, by bits [3:0]. -/
def candidateC28 (w : IWord) : Option Instr :=
  match (w.extractLsb' 0 4).toNat with
  | 0x0 => some (.amoadd (w.extractLsb' 19 5) (w.extractLsb' 14 5) (w.extractLsb' 10 4) (w.extractLsb' 9 1) (w.extractLsb' 6 3) (w.extractLsb' 4 1))
  | 0x1 => some (.amomin (w.extractLsb' 19 5) (w.extractLsb' 14 5) (w.extractLsb' 10 4) (w.extractLsb' 9 1) (w.extractLsb' 6 3) (w.extractLsb' 4 1))
  | 0x2 => some (.amomax (w.extractLsb' 19 5) (w.extractLsb' 14 5) (w.extractLsb' 10 4) (w.extractLsb' 9 1) (w.extractLsb' 6 3) (w.extractLsb' 4 1))
  | 0x3 => some (.aminx (w.extractLsb' 19 5) (w.extractLsb' 14 5) (w.extractLsb' 10 4) (w.extractLsb' 9 1) (w.extractLsb' 6 3) (w.extractLsb' 4 1))
  | 0x4 => some (.amaxx (w.extractLsb' 19 5) (w.extractLsb' 14 5) (w.extractLsb' 10 4) (w.extractLsb' 9 1) (w.extractLsb' 6 3) (w.extractLsb' 4 1))
  | 0x5 => some (.amoand (w.extractLsb' 19 5) (w.extractLsb' 14 5) (w.extractLsb' 10 4) (w.extractLsb' 9 1) (w.extractLsb' 6 3) (w.extractLsb' 4 1))
  | 0x6 => some (.amoor (w.extractLsb' 19 5) (w.extractLsb' 14 5) (w.extractLsb' 10 4) (w.extractLsb' 9 1) (w.extractLsb' 6 3) (w.extractLsb' 4 1))
  | 0x7 => some (.amoxor (w.extractLsb' 19 5) (w.extractLsb' 14 5) (w.extractLsb' 10 4) (w.extractLsb' 9 1) (w.extractLsb' 6 3) (w.extractLsb' 4 1))
  | 0x8 => some (.amoswp (w.extractLsb' 19 5) (w.extractLsb' 14 5) (w.extractLsb' 10 4) (w.extractLsb' 9 1) (w.extractLsb' 6 3) (w.extractLsb' 4 1))
  | 0x9 => some (.amocas (w.extractLsb' 19 5) (w.extractLsb' 14 5) (w.extractLsb' 10 4) (w.extractLsb' 9 1) (w.extractLsb' 6 3) (w.extractLsb' 4 1))
  | 0xa => some (.amotas (w.extractLsb' 19 5) (w.extractLsb' 14 5) (w.extractLsb' 10 4) (w.extractLsb' 9 1) (w.extractLsb' 6 3) (w.extractLsb' 4 1))
  | _ => none

/-- The words of OP6 0x2A, by bits [23:21]. -/
def candidateC2A (w : IWord) : Option Instr :=
  match (w.extractLsb' 21 3).toNat with
  | 0x0 => some (.bar (w.extractLsb' 18 3) (w.extractLsb' 17 1) (w.extractLsb' 0 6))
  | 0x1 => some (.bart (w.extractLsb' 18 3) (w.extractLsb' 0 6))
  | _ => none

/-- The words of OP6 0x2C, by bits [3:3]. -/
def candidateC2C (w : IWord) : Option Instr :=
  match (w.extractLsb' 3 1).toNat with
  | 0x0 => some (.waitw (w.extractLsb' 19 5) (w.extractLsb' 14 5) (w.extractLsb' 10 4) (w.extractLsb' 9 1) (w.extractLsb' 6 3) (w.extractLsb' 4 1))
  | 0x1 => some (.waitwArm (w.extractLsb' 19 5) (w.extractLsb' 14 5) (w.extractLsb' 4 1))
  | _ => none

/-- The words of OP6 0x2D, by bits [3:0]. -/
def candidateC2D (w : IWord) : Option Instr :=
  match (w.extractLsb' 0 4).toNat with
  | 0x0 => some (.acqs (w.extractLsb' 19 5) (w.extractLsb' 14 5) (w.extractLsb' 9 5) (w.extractLsb' 6 3))
  | 0x1 => some (.rels (w.extractLsb' 19 5) (w.extractLsb' 14 5) (w.extractLsb' 9 5) (w.extractLsb' 6 3))
  | 0x2 => some (.renq (w.extractLsb' 14 5) (w.extractLsb' 9 5) (w.extractLsb' 6 3) (w.extractLsb' 4 2))
  | _ => none

/-- The words of OP6 0x2E, by bits [3:0]. -/
def candidateC2E (w : IWord) : Option Instr :=
  match (w.extractLsb' 0 4).toNat with
  | 0x0 => some (.subSubscribe (w.extractLsb' 19 5) (w.extractLsb' 14 5) (w.extractLsb' 9 5))
  | 0x1 => some (.unsub (w.extractLsb' 14 5))
  | 0x2 => some (.pflush)
  | 0x3 => some (.resync (w.extractLsb' 14 5))
  | 0x4 => some (.subq (w.extractLsb' 19 5) (w.extractLsb' 14 5))
  | _ => none

/-- The words of OP6 0x37, by bits [23:21]. -/
def candidateC37 (w : IWord) : Option Instr :=
  match (w.extractLsb' 21 3).toNat with
  | 0x0 => some (.call (w.extractLsb' 16 5) (w.extractLsb' 0 14))
  | 0x1 => some (.ret (w.extractLsb' 16 5))
  | 0x2 => some (.loop (w.extractLsb' 16 5) (w.extractLsb' 0 14))
  | 0x3 => some (.halt)
  | _ => none

/-- The words of OP6 0x3A, by bits [8:0]. -/
def candidateC3A (w : IWord) : Option Instr :=
  match (w.extractLsb' 0 9).toNat with
  | 0x0 => some (.tlclr (w.extractLsb' 19 4))
  | 0x1 => some (.tlmov (w.extractLsb' 19 4) (w.extractLsb' 14 4))
  | 0x11 => some (.tlchkL (w.extractLsb' 19 5) (w.extractLsb' 14 4))
  | 0x12 => some (.tlchkX (w.extractLsb' 19 5) (w.extractLsb' 14 4))
  | 0x13 => some (.tlchkS (w.extractLsb' 19 5) (w.extractLsb' 14 4))
  | _ => none

/-- The words of OP6 0x3B, by bits [0:0]. -/
def candidateC3B (w : IWord) : Option Instr :=
  match (w.extractLsb' 0 1).toNat with
  | 0x0 => some (.tlld (w.extractLsb' 19 4) (w.extractLsb' 14 5) (w.extractLsb' 10 4) (w.extractLsb' 9 1) (w.extractLsb' 6 3))
  | 0x1 => some (.tlst (w.extractLsb' 19 4) (w.extractLsb' 14 5) (w.extractLsb' 10 4) (w.extractLsb' 9 1) (w.extractLsb' 6 3))
  | _ => none

/-- The words of OP6 0x3C, by bits [8:0]. -/
def candidateC3C (w : IWord) : Option Instr :=
  match (w.extractLsb' 0 9).toNat with
  | 0x0 => some (.spt (w.extractLsb' 19 5) (w.extractLsb' 14 5))
  | 0x10 | 0x11 | 0x12 | 0x13 | 0x14 | 0x15 | 0x16 | 0x17 | 0x18 | 0x19 | 0x1a | 0x1b | 0x1c | 0x1d | 0x1e | 0x1f => some (.spc (w.extractLsb' 19 5) (w.extractLsb' 14 5) (w.extractLsb' 0 4))
  | 0x28 => some (.mkpLocal (w.extractLsb' 19 5) (w.extractLsb' 14 5) (w.extractLsb' 9 5))
  | 0x29 => some (.mkpShared (w.extractLsb' 19 5) (w.extractLsb' 14 5) (w.extractLsb' 9 5))
  | 0x2b => some (.mkpOpm (w.extractLsb' 19 5) (w.extractLsb' 14 5) (w.extractLsb' 9 5))
  | _ => none

/-- The words of OP6 0x3D, by bits [13:11]. -/
def candidateC3D (w : IWord) : Option Instr :=
  match (w.extractLsb' 11 3).toNat with
  | 0x0 => some (.csrr (w.extractLsb' 19 5) (w.extractLsb' 0 11))
  | 0x1 => some (.csrw (w.extractLsb' 14 5) (w.extractLsb' 0 11))
  | 0x2 => some (.csrs (w.extractLsb' 14 5) (w.extractLsb' 0 11))
  | 0x3 => some (.csrc (w.extractLsb' 14 5) (w.extractLsb' 0 11))
  | 0x4 => some (.eret)
  | 0x5 => some (.brk)
  | 0x6 => some (.lpoll (w.extractLsb' 19 5))
  | _ => none

/-- The words of X class 3, by bits [14:14]. -/
def candidateX03 (w : IWord) : Option Instr :=
  match (w.extractLsb' 14 1).toNat with
  | 0x0 => some (.wld (w.extractLsb' 29 1) (w.extractLsb' 28 1) (w.extractLsb' 27 1) (w.extractLsb' 26 1) (w.extractLsb' 18 4) (w.extractLsb' 15 3))
  | 0x1 => some (.wldPort (w.extractLsb' 29 1) (w.extractLsb' 28 1) (w.extractLsb' 27 1) (w.extractLsb' 26 1) (w.extractLsb' 18 2) (w.extractLsb' 15 3) (w.extractLsb' 6 8))
  | _ => none

/-- The words of X class 10, by bits [15:15]. -/
def candidateX0A (w : IWord) : Option Instr :=
  match (w.extractLsb' 15 1).toNat with
  | 0x0 => some (.ecfg (w.extractLsb' 29 1) (w.extractLsb' 28 1) (w.extractLsb' 27 1) (w.extractLsb' 26 1) (w.extractLsb' 0 15))
  | 0x1 => some (.ecfgSt (w.extractLsb' 29 1) (w.extractLsb' 28 1) (w.extractLsb' 27 1) (w.extractLsb' 26 1) (w.extractLsb' 0 15))
  | _ => none

/-- The words of X class 11, by bits [16:16]. -/
def candidateX0B (w : IWord) : Option Instr :=
  match (w.extractLsb' 16 1).toNat with
  | 0x0 => some (.emode (w.extractLsb' 29 1) (w.extractLsb' 28 1) (w.extractLsb' 27 1) (w.extractLsb' 26 1) (w.extractLsb' 0 15))
  | 0x1 => some (.emodePort (w.extractLsb' 29 1) (w.extractLsb' 28 1) (w.extractLsb' 27 1) (w.extractLsb' 26 1) (w.extractLsb' 0 2))
  | _ => none

/-- The words of X class 12, by bits [21:20]. -/
def candidateX0C (w : IWord) : Option Instr :=
  match (w.extractLsb' 20 2).toNat with
  | 0x0 => some (.gld (w.extractLsb' 29 1) (w.extractLsb' 28 1) (w.extractLsb' 27 1) (w.extractLsb' 26 1) (w.extractLsb' 15 5) (w.extractLsb' 0 15))
  | 0x1 => some (.gset (w.extractLsb' 29 1) (w.extractLsb' 28 1) (w.extractLsb' 27 1) (w.extractLsb' 26 1) (w.extractLsb' 16 4) (w.extractLsb' 0 16))
  | 0x2 => some (.gsave (w.extractLsb' 29 1) (w.extractLsb' 28 1) (w.extractLsb' 27 1) (w.extractLsb' 26 1) (w.extractLsb' 0 15))
  | 0x3 => some (.grest (w.extractLsb' 29 1) (w.extractLsb' 28 1) (w.extractLsb' 27 1) (w.extractLsb' 26 1) (w.extractLsb' 0 15))
  | _ => none

/-- The words of X class 13, by bits [21:21]. -/
def candidateX0D (w : IWord) : Option Instr :=
  match (w.extractLsb' 21 1).toNat with
  | 0x0 => some (.zscan (w.extractLsb' 29 1) (w.extractLsb' 28 1) (w.extractLsb' 27 1) (w.extractLsb' 26 1) (w.extractLsb' 18 3) (w.extractLsb' 12 6) (w.extractLsb' 0 12))
  | 0x1 => some (.zclr (w.extractLsb' 29 1) (w.extractLsb' 28 1) (w.extractLsb' 27 1) (w.extractLsb' 26 1) (w.extractLsb' 12 6) (w.extractLsb' 0 12))
  | _ => none

/-- The C words, by OP6 (R154). -/
def candidateC (w : IWord) : Option Instr :=
  match (w.extractLsb' 24 6).toNat with
  | 0x0 => candidateC00 w
  | 0x1 => candidateC01 w
  | 0x10 => some (.addi (w.extractLsb' 19 5) (w.extractLsb' 14 5) (w.extractLsb' 0 14))
  | 0x11 => some (.andi (w.extractLsb' 19 5) (w.extractLsb' 14 5) (w.extractLsb' 0 14))
  | 0x12 => some (.ori (w.extractLsb' 19 5) (w.extractLsb' 14 5) (w.extractLsb' 0 14))
  | 0x13 => some (.xori (w.extractLsb' 19 5) (w.extractLsb' 14 5) (w.extractLsb' 0 14))
  | 0x14 => some (.slli (w.extractLsb' 19 5) (w.extractLsb' 14 5) (w.extractLsb' 0 6))
  | 0x15 => some (.srli (w.extractLsb' 19 5) (w.extractLsb' 14 5) (w.extractLsb' 0 6))
  | 0x16 => some (.srai (w.extractLsb' 19 5) (w.extractLsb' 14 5) (w.extractLsb' 0 6))
  | 0x17 => some (.slti (w.extractLsb' 19 5) (w.extractLsb' 14 5) (w.extractLsb' 0 14))
  | 0x18 => some (.sltxi (w.extractLsb' 19 5) (w.extractLsb' 14 5) (w.extractLsb' 0 14))
  | 0x19 => some (.lui (w.extractLsb' 19 5) (w.extractLsb' 0 19))
  | 0x1a => some (.auipc (w.extractLsb' 19 5) (w.extractLsb' 0 19))
  | 0x20 => some (.ld (w.extractLsb' 19 5) (w.extractLsb' 14 5) (w.extractLsb' 10 4) (w.extractLsb' 9 1) (w.extractLsb' 6 3) (w.extractLsb' 4 2) (w.extractLsb' 0 4))
  | 0x21 => some (.ldz (w.extractLsb' 19 5) (w.extractLsb' 14 5) (w.extractLsb' 10 4) (w.extractLsb' 9 1) (w.extractLsb' 6 3) (w.extractLsb' 4 2) (w.extractLsb' 0 4))
  | 0x22 => some (.st (w.extractLsb' 19 5) (w.extractLsb' 14 5) (w.extractLsb' 10 4) (w.extractLsb' 9 1) (w.extractLsb' 6 3) (w.extractLsb' 4 2) (w.extractLsb' 0 4))
  | 0x28 => candidateC28 w
  | 0x29 => some (.fence (w.extractLsb' 16 3) (w.extractLsb' 0 16))
  | 0x2a => candidateC2A w
  | 0x2b => some (.tx (w.extractLsb' 19 5) (w.extractLsb' 14 5) (w.extractLsb' 9 5) (w.extractLsb' 8 1) (w.extractLsb' 7 1) (w.extractLsb' 5 2) (w.extractLsb' 3 2))
  | 0x2c => candidateC2C w
  | 0x2d => candidateC2D w
  | 0x2e => candidateC2E w
  | 0x2f => some (.mux (w.extractLsb' 9 3) (w.extractLsb' 6 3) (w.extractLsb' 3 3) (w.extractLsb' 0 3))
  | 0x30 => some (.b (w.extractLsb' 0 14))
  | 0x31 => some (.beq (w.extractLsb' 19 5) (w.extractLsb' 14 5) (w.extractLsb' 0 14))
  | 0x32 => some (.bne (w.extractLsb' 19 5) (w.extractLsb' 14 5) (w.extractLsb' 0 14))
  | 0x33 => some (.blt (w.extractLsb' 19 5) (w.extractLsb' 14 5) (w.extractLsb' 0 14))
  | 0x34 => some (.bge (w.extractLsb' 19 5) (w.extractLsb' 14 5) (w.extractLsb' 0 14))
  | 0x35 => some (.bltx (w.extractLsb' 19 5) (w.extractLsb' 14 5) (w.extractLsb' 0 14))
  | 0x36 => some (.bgex (w.extractLsb' 19 5) (w.extractLsb' 14 5) (w.extractLsb' 0 14))
  | 0x37 => candidateC37 w
  | 0x38 => some (.tlset (w.extractLsb' 19 4) (w.extractLsb' 14 5) (w.extractLsb' 0 6))
  | 0x39 => some (.tlget (w.extractLsb' 19 5) (w.extractLsb' 14 4) (w.extractLsb' 0 6))
  | 0x3a => candidateC3A w
  | 0x3b => candidateC3B w
  | 0x3c => candidateC3C w
  | 0x3d => candidateC3D w
  | 0x3e => some (.rep (w.extractLsb' 9 1) (w.extractLsb' 8 1) (w.extractLsb' 7 1) (w.extractLsb' 6 1) (w.extractLsb' 0 6))
  | 0x3f => some (.trap (w.extractLsb' 0 14))
  | _ => none

/-- The L words, by CLASS (R155). -/
def candidateL (w : IWord) : Option Instr :=
  match (w.extractLsb' 22 4).toNat with
  | 0x0 => some (.ldn (w.extractLsb' 29 1) (w.extractLsb' 27 1) (w.extractLsb' 18 4) (w.extractLsb' 14 4) (w.extractLsb' 10 4) (w.extractLsb' 9 1) (w.extractLsb' 8 1) (w.extractLsb' 5 3) (w.extractLsb' 4 1) (w.extractLsb' 0 4))
  | 0x1 => some (.ldr (w.extractLsb' 29 1) (w.extractLsb' 27 1) (w.extractLsb' 18 4) (w.extractLsb' 14 4) (w.extractLsb' 10 4) (w.extractLsb' 9 1) (w.extractLsb' 8 1) (w.extractLsb' 5 3) (w.extractLsb' 4 1) (w.extractLsb' 0 4))
  | 0x2 => some (.ldh (w.extractLsb' 29 1) (w.extractLsb' 27 1) (w.extractLsb' 18 4) (w.extractLsb' 14 4) (w.extractLsb' 10 4) (w.extractLsb' 9 1) (w.extractLsb' 8 1) (w.extractLsb' 5 3) (w.extractLsb' 4 1) (w.extractLsb' 0 4))
  | 0x3 => some (.rcv (w.extractLsb' 29 1) (w.extractLsb' 27 1) (w.extractLsb' 18 4) (w.extractLsb' 16 2) (w.extractLsb' 15 1) (w.extractLsb' 10 4) (w.extractLsb' 9 1) (w.extractLsb' 8 1) (w.extractLsb' 5 3) (w.extractLsb' 4 1) (w.extractLsb' 0 4))
  | 0x4 => some (.gath (w.extractLsb' 29 1) (w.extractLsb' 27 1) (w.extractLsb' 18 4) (w.extractLsb' 14 4) (w.extractLsb' 10 4) (w.extractLsb' 8 2) (w.extractLsb' 4 4) (w.extractLsb' 2 2) (w.extractLsb' 1 1))
  | 0x5 => some (.pfx (w.extractLsb' 29 1) (w.extractLsb' 27 1) (w.extractLsb' 14 4))
  | 0xf => some (.lNest (w.extractLsb' 29 1) (w.extractLsb' 27 1) (w.extractLsb' 18 4) (w.extractLsb' 0 15))
  | _ => none

/-- The X words, by CLASS (R155). -/
def candidateX (w : IWord) : Option Instr :=
  match (w.extractLsb' 22 4).toNat with
  | 0x0 => some (.mma (w.extractLsb' 29 1) (w.extractLsb' 28 1) (w.extractLsb' 27 1) (w.extractLsb' 26 1) (w.extractLsb' 18 4) (w.extractLsb' 14 4) (w.extractLsb' 11 3) (w.extractLsb' 9 2) (w.extractLsb' 7 2) (w.extractLsb' 6 1) (w.extractLsb' 5 1) (w.extractLsb' 4 1) (w.extractLsb' 3 1))
  | 0x1 => some (.mmas (w.extractLsb' 29 1) (w.extractLsb' 28 1) (w.extractLsb' 27 1) (w.extractLsb' 26 1) (w.extractLsb' 18 4) (w.extractLsb' 15 3) (w.extractLsb' 13 2) (w.extractLsb' 11 2) (w.extractLsb' 10 1) (w.extractLsb' 9 1) (w.extractLsb' 7 2))
  | 0x2 => some (.mmat (w.extractLsb' 29 1) (w.extractLsb' 28 1) (w.extractLsb' 27 1) (w.extractLsb' 26 1) (w.extractLsb' 18 4) (w.extractLsb' 15 3) (w.extractLsb' 13 2) (w.extractLsb' 11 2) (w.extractLsb' 10 1) (w.extractLsb' 9 1) (w.extractLsb' 7 2))
  | 0x3 => candidateX03 w
  | 0x4 => some (.wswap (w.extractLsb' 29 1) (w.extractLsb' 28 1) (w.extractLsb' 27 1) (w.extractLsb' 26 1))
  | 0x5 => some (.scacc (w.extractLsb' 29 1) (w.extractLsb' 28 1) (w.extractLsb' 27 1) (w.extractLsb' 26 1) (w.extractLsb' 18 4) (w.extractLsb' 14 4) (w.extractLsb' 11 3) (w.extractLsb' 10 1) (w.extractLsb' 9 1))
  | 0x6 => some (.accclr (w.extractLsb' 29 1) (w.extractLsb' 28 1) (w.extractLsb' 27 1) (w.extractLsb' 26 1) (w.extractLsb' 17 5))
  | 0x7 => some (.accst (w.extractLsb' 29 1) (w.extractLsb' 28 1) (w.extractLsb' 27 1) (w.extractLsb' 26 1) (w.extractLsb' 18 4) (w.extractLsb' 15 3) (w.extractLsb' 11 4) (w.extractLsb' 8 3) (w.extractLsb' 6 2) (w.extractLsb' 4 2) (w.extractLsb' 0 4))
  | 0x8 => some (.accld (w.extractLsb' 29 1) (w.extractLsb' 28 1) (w.extractLsb' 27 1) (w.extractLsb' 26 1) (w.extractLsb' 18 4) (w.extractLsb' 15 3) (w.extractLsb' 11 4) (w.extractLsb' 8 3) (w.extractLsb' 6 2) (w.extractLsb' 4 2) (w.extractLsb' 0 4))
  | 0x9 => some (.erow (w.extractLsb' 29 1) (w.extractLsb' 28 1) (w.extractLsb' 27 1) (w.extractLsb' 26 1) (w.extractLsb' 18 4) (w.extractLsb' 14 4) (w.extractLsb' 10 4) (w.extractLsb' 6 4) (w.extractLsb' 4 2) (w.extractLsb' 2 2) (w.extractLsb' 1 1))
  | 0xa => candidateX0A w
  | 0xb => candidateX0B w
  | 0xc => candidateX0C w
  | 0xd => candidateX0D w
  | 0xf => some (.xNest (w.extractLsb' 29 1) (w.extractLsb' 28 1) (w.extractLsb' 27 1) (w.extractLsb' 26 1) (w.extractLsb' 18 4) (w.extractLsb' 0 15))
  | _ => none

/-- The S words, by CLASS (R155). -/
def candidateS (w : IWord) : Option Instr :=
  match (w.extractLsb' 22 4).toNat with
  | 0x0 => some (.stn (w.extractLsb' 29 1) (w.extractLsb' 27 1) (w.extractLsb' 18 4) (w.extractLsb' 14 4) (w.extractLsb' 10 4) (w.extractLsb' 9 1) (w.extractLsb' 8 1) (w.extractLsb' 5 3) (w.extractLsb' 4 1) (w.extractLsb' 0 4))
  | 0x1 => some (.strm (w.extractLsb' 29 1) (w.extractLsb' 27 1) (w.extractLsb' 18 4) (w.extractLsb' 14 4) (w.extractLsb' 10 4) (w.extractLsb' 9 1) (w.extractLsb' 8 1) (w.extractLsb' 5 3) (w.extractLsb' 4 1) (w.extractLsb' 0 4))
  | 0x2 => some (.sth (w.extractLsb' 29 1) (w.extractLsb' 27 1) (w.extractLsb' 18 4) (w.extractLsb' 14 4) (w.extractLsb' 10 4) (w.extractLsb' 9 1) (w.extractLsb' 8 1) (w.extractLsb' 5 3) (w.extractLsb' 4 1) (w.extractLsb' 0 4))
  | 0x3 => some (.snd (w.extractLsb' 29 1) (w.extractLsb' 27 1) (w.extractLsb' 18 4) (w.extractLsb' 16 2) (w.extractLsb' 15 1) (w.extractLsb' 10 4) (w.extractLsb' 9 1) (w.extractLsb' 8 1) (w.extractLsb' 5 3) (w.extractLsb' 4 1) (w.extractLsb' 0 4))
  | 0x4 => some (.scat (w.extractLsb' 29 1) (w.extractLsb' 27 1) (w.extractLsb' 18 4) (w.extractLsb' 14 4) (w.extractLsb' 8 2) (w.extractLsb' 4 4) (w.extractLsb' 2 2))
  | 0x5 => some (.eos (w.extractLsb' 29 1) (w.extractLsb' 27 1) (w.extractLsb' 16 2))
  | 0xf => some (.sNest (w.extractLsb' 29 1) (w.extractLsb' 27 1) (w.extractLsb' 18 4) (w.extractLsb' 0 15))
  | _ => none

/-- The instruction whose fields a word would hold, before its reserved bits and codes are looked at. -/
def candidate (w : IWord) : Option Instr :=
  match (w.extractLsb' 30 2).toNat with
  | 0 => candidateC w
  | 1 => candidateL w
  | 2 => candidateX w
  | _ => candidateS w

/-- The word of an instruction, bits [31] down to [0] in the order of its layout; an event has none. -/
def encode : Instr → Option IWord
  | .add d a b => some (0#2 ++ 0#6 ++ d ++ a ++ b ++ 0#9)
  | .sub d a b => some (0#2 ++ 0#6 ++ d ++ a ++ b ++ 1#9)
  | .mul d a b => some (0#2 ++ 0#6 ++ d ++ a ++ b ++ 2#9)
  | .mulh d a b => some (0#2 ++ 0#6 ++ d ++ a ++ b ++ 3#9)
  | .mulhsu d a b => some (0#2 ++ 0#6 ++ d ++ a ++ b ++ 4#9)
  | .mulhx d a b => some (0#2 ++ 0#6 ++ d ++ a ++ b ++ 5#9)
  | .div d a b => some (0#2 ++ 0#6 ++ d ++ a ++ b ++ 6#9)
  | .divx d a b => some (0#2 ++ 0#6 ++ d ++ a ++ b ++ 7#9)
  | .rem d a b => some (0#2 ++ 0#6 ++ d ++ a ++ b ++ 8#9)
  | .remx d a b => some (0#2 ++ 0#6 ++ d ++ a ++ b ++ 9#9)
  | .and d a b => some (0#2 ++ 0#6 ++ d ++ a ++ b ++ 0x10#9)
  | .or d a b => some (0#2 ++ 0#6 ++ d ++ a ++ b ++ 0x11#9)
  | .xor d a b => some (0#2 ++ 0#6 ++ d ++ a ++ b ++ 0x12#9)
  | .andn d a b => some (0#2 ++ 0#6 ++ d ++ a ++ b ++ 0x13#9)
  | .orn d a b => some (0#2 ++ 0#6 ++ d ++ a ++ b ++ 0x14#9)
  | .sll d a b => some (0#2 ++ 0#6 ++ d ++ a ++ b ++ 0x18#9)
  | .srl d a b => some (0#2 ++ 0#6 ++ d ++ a ++ b ++ 0x19#9)
  | .sra d a b => some (0#2 ++ 0#6 ++ d ++ a ++ b ++ 0x1a#9)
  | .rol d a b => some (0#2 ++ 0#6 ++ d ++ a ++ b ++ 0x1b#9)
  | .ror d a b => some (0#2 ++ 0#6 ++ d ++ a ++ b ++ 0x1c#9)
  | .min d a b => some (0#2 ++ 0#6 ++ d ++ a ++ b ++ 0x20#9)
  | .max d a b => some (0#2 ++ 0#6 ++ d ++ a ++ b ++ 0x21#9)
  | .minx d a b => some (0#2 ++ 0#6 ++ d ++ a ++ b ++ 0x22#9)
  | .maxx d a b => some (0#2 ++ 0#6 ++ d ++ a ++ b ++ 0x23#9)
  | .slt d a b => some (0#2 ++ 0#6 ++ d ++ a ++ b ++ 0x24#9)
  | .sltx d a b => some (0#2 ++ 0#6 ++ d ++ a ++ b ++ 0x25#9)
  | .seq d a b => some (0#2 ++ 0#6 ++ d ++ a ++ b ++ 0x26#9)
  | .sne d a b => some (0#2 ++ 0#6 ++ d ++ a ++ b ++ 0x27#9)
  | .sel d a b => some (0#2 ++ 0#6 ++ d ++ a ++ b ++ 0x28#9)
  | .clz d a => some (0#2 ++ 0#6 ++ d ++ a ++ 0x30#14)
  | .ctz d a => some (0#2 ++ 0#6 ++ d ++ a ++ 0x31#14)
  | .popc d a => some (0#2 ++ 0#6 ++ d ++ a ++ 0x32#14)
  | .sextB d a => some (0#2 ++ 0#6 ++ d ++ a ++ 0x34#14)
  | .sextH d a => some (0#2 ++ 0#6 ++ d ++ a ++ 0x35#14)
  | .sextW d a => some (0#2 ++ 0#6 ++ d ++ a ++ 0x36#14)
  | .zextB d a => some (0#2 ++ 0#6 ++ d ++ a ++ 0x38#14)
  | .zextH d a => some (0#2 ++ 0#6 ++ d ++ a ++ 0x39#14)
  | .zextW d a => some (0#2 ++ 0#6 ++ d ++ a ++ 0x3a#14)
  | .lea d a b sh => some (0#2 ++ 1#6 ++ d ++ a ++ b ++ 0#6 ++ sh)
  | .madd d a b => some (0#2 ++ 1#6 ++ d ++ a ++ b ++ 0x10#9)
  | .bfe d a b => some (0#2 ++ 1#6 ++ d ++ a ++ b ++ 0x11#9)
  | .bfi d a b => some (0#2 ++ 1#6 ++ d ++ a ++ b ++ 0x12#9)
  | .addi d a imm => some (0#2 ++ 0x10#6 ++ d ++ a ++ imm)
  | .andi d a imm => some (0#2 ++ 0x11#6 ++ d ++ a ++ imm)
  | .ori d a imm => some (0#2 ++ 0x12#6 ++ d ++ a ++ imm)
  | .xori d a imm => some (0#2 ++ 0x13#6 ++ d ++ a ++ imm)
  | .slli d a sh => some (0#2 ++ 0x14#6 ++ d ++ a ++ 0#8 ++ sh)
  | .srli d a sh => some (0#2 ++ 0x15#6 ++ d ++ a ++ 0#8 ++ sh)
  | .srai d a sh => some (0#2 ++ 0x16#6 ++ d ++ a ++ 0#8 ++ sh)
  | .slti d a imm => some (0#2 ++ 0x17#6 ++ d ++ a ++ imm)
  | .sltxi d a imm => some (0#2 ++ 0x18#6 ++ d ++ a ++ imm)
  | .lui d imm => some (0#2 ++ 0x19#6 ++ d ++ imm)
  | .auipc d imm => some (0#2 ++ 0x1a#6 ++ d ++ imm)
  | .ld d a oc ar scope size disp => some (0#2 ++ 0x20#6 ++ d ++ a ++ oc ++ ar ++ scope ++ size ++ disp)
  | .ldz d a oc ar scope size disp => some (0#2 ++ 0x21#6 ++ d ++ a ++ oc ++ ar ++ scope ++ size ++ disp)
  | .st d a oc ar scope size disp => some (0#2 ++ 0x22#6 ++ d ++ a ++ oc ++ ar ++ scope ++ size ++ disp)
  | .amoadd d a oc ar scope dbl => some (0#2 ++ 0x28#6 ++ d ++ a ++ oc ++ ar ++ scope ++ 1#1 ++ dbl ++ 0#4)
  | .amomin d a oc ar scope dbl => some (0#2 ++ 0x28#6 ++ d ++ a ++ oc ++ ar ++ scope ++ 1#1 ++ dbl ++ 1#4)
  | .amomax d a oc ar scope dbl => some (0#2 ++ 0x28#6 ++ d ++ a ++ oc ++ ar ++ scope ++ 1#1 ++ dbl ++ 2#4)
  | .aminx d a oc ar scope dbl => some (0#2 ++ 0x28#6 ++ d ++ a ++ oc ++ ar ++ scope ++ 1#1 ++ dbl ++ 3#4)
  | .amaxx d a oc ar scope dbl => some (0#2 ++ 0x28#6 ++ d ++ a ++ oc ++ ar ++ scope ++ 1#1 ++ dbl ++ 4#4)
  | .amoand d a oc ar scope dbl => some (0#2 ++ 0x28#6 ++ d ++ a ++ oc ++ ar ++ scope ++ 1#1 ++ dbl ++ 5#4)
  | .amoor d a oc ar scope dbl => some (0#2 ++ 0x28#6 ++ d ++ a ++ oc ++ ar ++ scope ++ 1#1 ++ dbl ++ 6#4)
  | .amoxor d a oc ar scope dbl => some (0#2 ++ 0x28#6 ++ d ++ a ++ oc ++ ar ++ scope ++ 1#1 ++ dbl ++ 7#4)
  | .amoswp d a oc ar scope dbl => some (0#2 ++ 0x28#6 ++ d ++ a ++ oc ++ ar ++ scope ++ 1#1 ++ dbl ++ 8#4)
  | .amocas d a oc ar scope dbl => some (0#2 ++ 0x28#6 ++ d ++ a ++ oc ++ ar ++ scope ++ 1#1 ++ dbl ++ 9#4)
  | .amotas d a oc ar scope dbl => some (0#2 ++ 0x28#6 ++ d ++ a ++ oc ++ ar ++ scope ++ 1#1 ++ dbl ++ 0xa#4)
  | .fence scope mask => some (0#2 ++ 0x29#6 ++ 0#5 ++ scope ++ mask)
  | .bar scope drain gsel => some (0#2 ++ 0x2a#6 ++ 0#3 ++ scope ++ drain ++ 0#11 ++ gsel)
  | .bart scope gsel => some (0#2 ++ 0x2a#6 ++ 1#3 ++ scope ++ 0#12 ++ gsel)
  | .tx d a b sen ren diro diri => some (0#2 ++ 0x2b#6 ++ d ++ a ++ b ++ sen ++ ren ++ diro ++ diri ++ 0#3)
  | .mux west south east north => some (0#2 ++ 0x2f#6 ++ 0#12 ++ west ++ south ++ east ++ north)
  | .waitw d a oc ar scope dbl => some (0#2 ++ 0x2c#6 ++ d ++ a ++ oc ++ ar ++ scope ++ 1#1 ++ dbl ++ 0#4)
  | .waitwArm d a dbl => some (0#2 ++ 0x2c#6 ++ d ++ a ++ 1#9 ++ dbl ++ 8#4)
  | .acqs d a b scope => some (0#2 ++ 0x2d#6 ++ d ++ a ++ b ++ scope ++ 0#6)
  | .rels d a b scope => some (0#2 ++ 0x2d#6 ++ d ++ a ++ b ++ scope ++ 1#6)
  | .renq a b scope eng => some (0#2 ++ 0x2d#6 ++ 0#5 ++ a ++ b ++ scope ++ eng ++ 2#4)
  | .subSubscribe d a b => some (0#2 ++ 0x2e#6 ++ d ++ a ++ b ++ 0#9)
  | .unsub a => some (0#2 ++ 0x2e#6 ++ 0#5 ++ a ++ 1#14)
  | .pflush => some (0#2 ++ 0x2e#6 ++ 2#24)
  | .resync a => some (0#2 ++ 0x2e#6 ++ 0#5 ++ a ++ 3#14)
  | .subq d a => some (0#2 ++ 0x2e#6 ++ d ++ a ++ 4#14)
  | .b off => some (0#2 ++ 0x30#6 ++ 0#10 ++ off)
  | .beq a b off => some (0#2 ++ 0x31#6 ++ a ++ b ++ off)
  | .bne a b off => some (0#2 ++ 0x32#6 ++ a ++ b ++ off)
  | .blt a b off => some (0#2 ++ 0x33#6 ++ a ++ b ++ off)
  | .bge a b off => some (0#2 ++ 0x34#6 ++ a ++ b ++ off)
  | .bltx a b off => some (0#2 ++ 0x35#6 ++ a ++ b ++ off)
  | .bgex a b off => some (0#2 ++ 0x36#6 ++ a ++ b ++ off)
  | .call r off => some (0#2 ++ 0x37#6 ++ 0#3 ++ r ++ 0#2 ++ off)
  | .ret r => some (0#2 ++ 0x37#6 ++ 1#3 ++ r ++ 0#16)
  | .loop r off => some (0#2 ++ 0x37#6 ++ 2#3 ++ r ++ 0#2 ++ off)
  | .halt => some (0#2 ++ 0x37#6 ++ 0x600000#24)
  | .tlset g a fld => some (0#2 ++ 0x38#6 ++ 0#1 ++ g ++ a ++ 0#8 ++ fld)
  | .tlget d g fld => some (0#2 ++ 0x39#6 ++ d ++ 0#1 ++ g ++ 0#8 ++ fld)
  | .tlclr g => some (0#2 ++ 0x3a#6 ++ 0#1 ++ g ++ 0#19)
  | .tlmov gd gs => some (0#2 ++ 0x3a#6 ++ 0#1 ++ gd ++ 0#1 ++ gs ++ 1#14)
  | .tlchkL d g => some (0#2 ++ 0x3a#6 ++ d ++ 0#1 ++ g ++ 0x11#14)
  | .tlchkX d g => some (0#2 ++ 0x3a#6 ++ d ++ 0#1 ++ g ++ 0x12#14)
  | .tlchkS d g => some (0#2 ++ 0x3a#6 ++ d ++ 0#1 ++ g ++ 0x13#14)
  | .tlld g a oc ar scope => some (0#2 ++ 0x3b#6 ++ 0#1 ++ g ++ a ++ oc ++ ar ++ scope ++ 0#6)
  | .tlst g a oc ar scope => some (0#2 ++ 0x3b#6 ++ 0#1 ++ g ++ a ++ oc ++ ar ++ scope ++ 1#6)
  | .spt d a => some (0#2 ++ 0x3c#6 ++ d ++ a ++ 0#14)
  | .spc d a sp => some (0#2 ++ 0x3c#6 ++ d ++ a ++ 1#10 ++ sp)
  | .mkpLocal d a b => some (0#2 ++ 0x3c#6 ++ d ++ a ++ b ++ 0x28#9)
  | .mkpShared d a b => some (0#2 ++ 0x3c#6 ++ d ++ a ++ b ++ 0x29#9)
  | .mkpOpm d a b => some (0#2 ++ 0x3c#6 ++ d ++ a ++ b ++ 0x2b#9)
  | .csrr d csr => some (0#2 ++ 0x3d#6 ++ d ++ 0#8 ++ csr)
  | .csrw a csr => some (0#2 ++ 0x3d#6 ++ 0#5 ++ a ++ 1#3 ++ csr)
  | .csrs a csr => some (0#2 ++ 0x3d#6 ++ 0#5 ++ a ++ 2#3 ++ csr)
  | .csrc a csr => some (0#2 ++ 0x3d#6 ++ 0#5 ++ a ++ 3#3 ++ csr)
  | .eret => some (0#2 ++ 0x3d#6 ++ 0x2000#24)
  | .brk => some (0#2 ++ 0x3d#6 ++ 0x2800#24)
  | .lpoll d => some (0#2 ++ 0x3d#6 ++ d ++ 0x3000#19)
  | .rep sa s2 s1 sd cnt => some (0#2 ++ 0x3e#6 ++ 0#14 ++ sa ++ s2 ++ s1 ++ sd ++ cnt)
  | .trap imm => some (0#2 ++ 0x3f#6 ++ 0#10 ++ imm)
  | .ldn w gv gd gs oc acq rel scope nt gn => some (1#2 ++ w ++ 0#1 ++ gv ++ 0#1 ++ 0#4 ++ gd ++ gs ++ oc ++ acq ++ rel ++ scope ++ nt ++ gn)
  | .ldr w gv gd gs oc acq rel scope nt gn => some (1#2 ++ w ++ 0#1 ++ gv ++ 0#1 ++ 1#4 ++ gd ++ gs ++ oc ++ acq ++ rel ++ scope ++ nt ++ gn)
  | .ldh w gv gd gs oc acq rel scope nt gn => some (1#2 ++ w ++ 0#1 ++ gv ++ 0#1 ++ 2#4 ++ gd ++ gs ++ oc ++ acq ++ rel ++ scope ++ nt ++ gn)
  | .rcv w gv gd port e oc acq rel scope nt gn => some (1#2 ++ w ++ 0#1 ++ gv ++ 0#1 ++ 3#4 ++ gd ++ port ++ e ++ 0#1 ++ oc ++ acq ++ rel ++ scope ++ nt ++ gn)
  | .gath w gv gval gi gr slot oc sc nov => some (1#2 ++ w ++ 0#1 ++ gv ++ 0#1 ++ 4#4 ++ gval ++ gi ++ gr ++ slot ++ oc ++ sc ++ nov ++ 0#1)
  | .pfx w gv gs => some (1#2 ++ w ++ 0#1 ++ gv ++ 0#1 ++ 5#4 ++ 0#4 ++ gs ++ 0#14)
  | .lNest w gv nb off => some (1#2 ++ w ++ 0#1 ++ gv ++ 0#1 ++ 0xf#4 ++ nb ++ 0#3 ++ off)
  | .stn w gv gd gs oc acq rel scope nt gn => some (3#2 ++ w ++ 0#1 ++ gv ++ 0#1 ++ 0#4 ++ gd ++ gs ++ oc ++ acq ++ rel ++ scope ++ nt ++ gn)
  | .strm w gv gd gs oc acq rel scope nt gn => some (3#2 ++ w ++ 0#1 ++ gv ++ 0#1 ++ 1#4 ++ gd ++ gs ++ oc ++ acq ++ rel ++ scope ++ nt ++ gn)
  | .sth w gv gd gs oc acq rel scope nt gn => some (3#2 ++ w ++ 0#1 ++ gv ++ 0#1 ++ 2#4 ++ gd ++ gs ++ oc ++ acq ++ rel ++ scope ++ nt ++ gn)
  | .snd w gv gs port e oc acq rel scope nt gn => some (3#2 ++ w ++ 0#1 ++ gv ++ 0#1 ++ 3#4 ++ gs ++ port ++ e ++ 0#1 ++ oc ++ acq ++ rel ++ scope ++ nt ++ gn)
  | .scat w gv gval gi slot oc sc => some (3#2 ++ w ++ 0#1 ++ gv ++ 0#1 ++ 4#4 ++ gval ++ gi ++ 0#4 ++ slot ++ oc ++ sc ++ 0#2)
  | .eos w gv port => some (3#2 ++ w ++ 0#1 ++ gv ++ 0#1 ++ 5#4 ++ 0#4 ++ port ++ 0#16)
  | .sNest w gv nb off => some (3#2 ++ w ++ 0#1 ++ gv ++ 0#1 ++ 0xf#4 ++ nb ++ 0#3 ++ off)
  | .mma wl ws gl gs ga gi acc af wf ix iw zs clr => some (2#2 ++ wl ++ ws ++ gl ++ gs ++ 0#4 ++ ga ++ gi ++ acc ++ af ++ wf ++ ix ++ iw ++ zs ++ clr ++ 0#3)
  | .mmas wl ws gl gs ga acc af wf zs clr rb => some (2#2 ++ wl ++ ws ++ gl ++ gs ++ 1#4 ++ ga ++ acc ++ af ++ wf ++ zs ++ clr ++ rb ++ 0#7)
  | .mmat wl ws gl gs ga acc af wf zs clr rb => some (2#2 ++ wl ++ ws ++ gl ++ gs ++ 2#4 ++ ga ++ acc ++ af ++ wf ++ zs ++ clr ++ rb ++ 0#7)
  | .wld wl ws gl gs gw sf => some (2#2 ++ wl ++ ws ++ gl ++ gs ++ 3#4 ++ gw ++ sf ++ 0#15)
  | .wldPort wl ws gl gs port sf km1 => some (2#2 ++ wl ++ ws ++ gl ++ gs ++ 3#4 ++ 0#2 ++ port ++ sf ++ 1#1 ++ km1 ++ 0#6)
  | .wswap wl ws gl gs => some (2#2 ++ wl ++ ws ++ gl ++ gs ++ 4#4 ++ 0#22)
  | .scacc wl ws gl gs gsa gsb acc sfmt clrp => some (2#2 ++ wl ++ ws ++ gl ++ gs ++ 5#4 ++ gsa ++ gsb ++ acc ++ sfmt ++ clrp ++ 0#9)
  | .accclr wl ws gl gs mask => some (2#2 ++ wl ++ ws ++ gl ++ gs ++ 6#4 ++ mask ++ 0#17)
  | .accst wl ws gl gs gd acc efmt rm sat sc oc => some (2#2 ++ wl ++ ws ++ gl ++ gs ++ 7#4 ++ gd ++ acc ++ efmt ++ rm ++ sat ++ sc ++ oc)
  | .accld wl ws gl gs gd acc efmt rm sat sc oc => some (2#2 ++ wl ++ ws ++ gl ++ gs ++ 8#4 ++ gd ++ acc ++ efmt ++ rm ++ sat ++ sc ++ oc)
  | .erow wl ws gl gs gin gout gsa gsb sam sbm nout => some (2#2 ++ wl ++ ws ++ gl ++ gs ++ 9#4 ++ gin ++ gout ++ gsa ++ gsb ++ sam ++ sbm ++ nout ++ 0#1)
  | .ecfg wl ws gl gs off => some (2#2 ++ wl ++ ws ++ gl ++ gs ++ 0xa#4 ++ 0#7 ++ off)
  | .ecfgSt wl ws gl gs off => some (2#2 ++ wl ++ ws ++ gl ++ gs ++ 0xa#4 ++ 1#7 ++ off)
  | .emode wl ws gl gs off => some (2#2 ++ wl ++ ws ++ gl ++ gs ++ 0xb#4 ++ 0#7 ++ off)
  | .emodePort wl ws gl gs port => some (2#2 ++ wl ++ ws ++ gl ++ gs ++ 0xb#4 ++ 0x4000#20 ++ port)
  | .gld wl ws gl gs nwm1 off => some (2#2 ++ wl ++ ws ++ gl ++ gs ++ 0xc#4 ++ 0#2 ++ nwm1 ++ off)
  | .gset wl ws gl gs sel imm => some (2#2 ++ wl ++ ws ++ gl ++ gs ++ 0xc#4 ++ 1#2 ++ sel ++ imm)
  | .gsave wl ws gl gs off => some (2#2 ++ wl ++ ws ++ gl ++ gs ++ 0xc#4 ++ 0x40#7 ++ off)
  | .grest wl ws gl gs off => some (2#2 ++ wl ++ ws ++ gl ++ gs ++ 0xc#4 ++ 0x60#7 ++ off)
  | .zscan wl ws gl gs zf cntm1 blk => some (2#2 ++ wl ++ ws ++ gl ++ gs ++ 0xd#4 ++ 0#1 ++ zf ++ cntm1 ++ blk)
  | .zclr wl ws gl gs cntm1 blk => some (2#2 ++ wl ++ ws ++ gl ++ gs ++ 0xd#4 ++ 8#4 ++ cntm1 ++ blk)
  | .xNest wl ws gl gs nb off => some (2#2 ++ wl ++ ws ++ gl ++ gs ++ 0xf#4 ++ nb ++ 0#3 ++ off)
  | .wordIssue _ _ => none
  | .flowOutcomeTake _ _ => none
  | .commandStart _ _ => none
  | .commandComplete _ _ _ => none
  | .heldTokenPush _ _ _ => none
  | .wldWritePhaseEnd _ => none
  | .tileDrainEnd _ => none
  | .trapEscalation => none
  | .faultService => none
  | .hostPageResponse _ _ => none
  | .rmwTokenApply _ => none
  | .renqAccept _ _ => none
  | .barrierComplete _ _ => none
  | .phaseWordArrival _ _ => none
  | .waitwWake _ => none
  | .slotWaitServed _ _ => none
  | .batchWindowExpiry _ _ => none
  | .updateApply _ => none
  | .spillRingAllocation _ => none
  | .doorbellWrite _ _ _ _ => none
  | .packetFetch _ => none
  | .queueMap => none
  | .queueQuiesce => none
  | .nop _ _ => none
  | .bind _ _ => none
  | .token _ _ => none
  | .ctxcreate _ _ => none
  | .ctxdestroy _ _ => none
  | .qcreate _ _ => none
  | .qdestroy _ _ => none
  | .shareset _ _ => none
  | .allowset _ _ => none
  | .laneset _ _ => none
  | .launchLaneMessage _ _ _ => none
  | .bindingStart _ => none
  | .priorityAgeing _ => none
  | .runCompletion _ => none
  | .runFailure _ => none
  | .completionRecordWrite _ => none
  | .placement _ => none
  | .eviction _ => none
  | .lullMarkerArrival _ => none
  | .tileSeal _ => none
  | .contextSeal _ => none
  | .clearingToken _ => none
  | .clearingComplete _ => none
  | .stageSwap _ _ => none
  | .swapDrainEnd _ _ => none
  | .swapReloadEnd _ _ => none
  | .swaptimeout _ _ => none
  | .scrubPass _ => none
  | .configError _ _ => none
  | .configReloadDone _ _ => none
  | .regionPortWord _ _ _ => none
  | .inputGeneratorWord _ _ => none
  | .outputGeneratorWord _ _ => none
  | .queueEnqueue _ _ => none
  | .queueDequeue _ _ => none
  | .jetOutWord _ _ => none
  | .jetInWord _ => none
  | .cornerTurnWord _ _ => none
  | .arbiterBurst _ _ => none
  | .counterNodeWord _ _ => none
  | .mergeBurst _ _ => none
  | .sliceRequest _ _ _ => none
  | .sliceMissResponse _ => none
  | .accountingWindow _ => none
  | .postedStoreAck _ => none
  | .selfTest _ _ _ => none
  | .fatalError => none
  | .watchdogExpiry => none
  | .pcieLinkDown => none
  | .pcieLinkUp => none
  | .hotReset => none
  | .pfFlr => none
  | .vfFlr _ => none
  | .powerGood _ _ => none
  | .thermalThrottle => none
  | .thermalTrip => none
  | .powerCapWindow _ => none
  | .jetLinkUp _ _ => none
  | .tagRunClose _ => none
  | .tagFlitReceive _ _ _ => none
  | .replayRequest _ _ => none
  | .keyRotation _ => none
  | .spdmMeasurements _ _ _ => none
  | .firmwareOpmAccess _ _ _ => none
  | .bar4Access _ _ _ _ => none
  | .aqctl _ _ => none
  | .dbdrop _ _ => none
  | .evict _ _ => none
  | .pwrcap _ _ => none
  | .jpctl _ _ _ => none
  | .fnstat _ => none
  | .registerWrite _ _ _ => none
  | .memoryPortRequest _ _ _ _ _ _ => none
  | .ideEstablishment _ => none
  | .tdispLockInterface _ => none
  | .spdmGetCertificate _ => none
  | .dieTemperatureFall => none

/-- Why a word is no instruction (R156). -/
inductive DecodeError where
  /-- The opcode, class or sub-function is not assigned. -/
  | unassigned
  /-- A reserved field is non-zero, or a field holds a reserved code. -/
  | reserved
  /-- Fewer bytes than a word. -/
  | truncated
  deriving DecidableEq, Repr

/-- Reads one instruction word. -/
def decode (w : IWord) : Except DecodeError Instr :=
  match candidate w with
  | none => .error .unassigned
  | some i => if encode i = some w && wellFormed i then .ok i else .error .reserved

/-- The word held little-endian in the first four bytes of a list (R2), with the bytes that follow it. -/
def wordOfBytes : List Byte → Option (IWord × List Byte)
  | b0 :: b1 :: b2 :: b3 :: rest => some (b3 ++ b2 ++ b1 ++ b0, rest)
  | _ => none

/-- The four bytes of a word, the lowest address first (R2). -/
def bytesOfWord (w : IWord) : List Byte :=
  [w.extractLsb' 0 8, w.extractLsb' 8 8, w.extractLsb' 16 8, w.extractLsb' 24 8]

/-- Reads one instruction from a list of bytes, and the bytes after it. -/
def decodeBytes (bs : List Byte) : Except DecodeError (Instr × List Byte) :=
  match wordOfBytes bs with
  | none => .error .truncated
  | some (w, rest) => match decode w with
    | .error e => .error e
    | .ok i => .ok (i, rest)

/-- The instruction read from a word of the opcode table, of `nbits` bits (R152: every word has 32). -/
def decodeTableWord (nbits w : Nat) : Option Instr :=
  if nbits ≤ 32 then
    match decodeBytes (bytesOfWord (BitVec.ofNat 32 w)) with
    | .ok (i, _) => some i
    | .error _ => none
  else none

/-- The ENG field of a word (R152). -/
def engOf (w : IWord) : Engine :=
  match (w.extractLsb' 30 2).toNat with
  | 0 => .C
  | 1 => .L
  | 2 => .X
  | _ => .S

/-- A word that all four counters act on, told by its ENG, OP6 and FSUB fields alone (R131). -/
def isFlow (w : IWord) : Bool :=
  let op := (w.extractLsb' 24 6).toNat
  (w.extractLsb' 30 2) == 0 && ((0x30 <= op && op <= 0x36) || (op == 0x37 && (w.extractLsb' 21 3).toNat <= 3))

/-- The CLASS field of an L, X or S word (R152). -/
def classOf (w : IWord) : Nat := (w.extractLsb' 22 4).toNat

/-- The token bits [29:26] of an L, X or S word (R140). -/
def tokOf (w : IWord) : BitVec 4 := w.extractLsb' 26 4

/-- A `nest` word: class 15 of L, X or S (R155). -/
def isNest (w : IWord) : Bool := engOf w != .C && classOf w == 15

/-- The X classes of the element-row pipe, 9-11; every other class uses the matrix pipe (R139). -/
def isRowPipe (w : IWord) : Bool := 9 <= classOf w && classOf w <= 11

/-- The body count N of a `nest` word, from 1 to 16 (R144, R233). -/
def nestCount (w : IWord) : Nat := (w.extractLsb' 18 4).toNat + 1

end Sys2Proof
end

