-- ==== Sys2Proof/Machine/Maps.lean ====
section
/-! DEFINITION. Sparse storage: the memories, register files and tables of the device.

A map lists the entries that differ from one default, with strictly rising keys, so that equal contents are equal
data. A memory is such a map of bytes, a list of `Host.Cell`. -/

namespace Sys2Proof.Machine

/-- A table with rising keys; a key it does not list holds the table's default. -/
abbrev Table (α : Type) := List (Nat × α)

/-- The entry listed under a key. -/
def tFind {α : Type} : Table α → Nat → Option α
  | [], _ => none
  | (k', v) :: rest, k => if k = k' then some v else tFind rest k

/-- The value under a key, or the default. -/
def tGet {α : Type} (d : α) (m : Table α) (k : Nat) : α := (tFind m k).getD d

/-- Lists a value under a key, at its place. -/
def tInsert {α : Type} : Table α → Nat → α → Table α
  | [], k, v => [(k, v)]
  | (k', v') :: rest, k, v =>
    if k = k' then (k, v) :: rest
    else if k < k' then (k, v) :: (k', v') :: rest
    else (k', v') :: tInsert rest k v

/-- Lists nothing under a key. -/
def tErase {α : Type} : Table α → Nat → Table α
  | [], _ => []
  | (k', v') :: rest, k =>
    if k = k' then tErase rest k else (k', v') :: tErase rest k

/-- Writes a value under a key; writing the default unlists the key. -/
def tSet {α : Type} [DecidableEq α] (d : α) (m : Table α) (k : Nat) (v : α) : Table α :=
  if v = d then tErase m k else tInsert m k v

/-- The keys rise, and no key is below `lo`. -/
def tSorted {α : Type} : Nat → Table α → Bool
  | _, [] => true
  | lo, (k, _) :: rest => lo ≤ k && tSorted (k + 1) rest

/-- The canonical form: rising keys, and no entry equal to the default. -/
def tWf {α : Type} [DecidableEq α] (d : α) (m : Table α) : Bool :=
  tSorted 0 m && m.all (fun e => decide (e.2 ≠ d))

/-- The number of entries listed. -/
def tSize {α : Type} (m : Table α) : Nat := m.length

/-- The bytes of a memory: every unlisted address reads as zero. For a scratchpad that is what clearing leaves
(R117); for device and host memory it is the model's choice (log 6). -/
abbrev Memory := List Host.Cell

/-- What an unlisted address of a memory reads as (log 6). -/
def unlistedByte : Byte := 0

namespace Memory

/-- The canonical form of a memory. -/
def wf (m : Memory) : Bool := tWf unlistedByte m

/-- Reads one byte. -/
def byte (m : Memory) (a : Nat) : Byte := tGet unlistedByte m a

/-- Writes one byte. -/
def setByte (m : Memory) (a : Nat) (b : Byte) : Memory := tSet unlistedByte m a b

/-- Reads `n` bytes from `a` upwards as one little-endian number (R2). -/
def readNat (m : Memory) (a : Nat) : Nat → Nat
  | 0 => 0
  | n + 1 => (m.byte a).toNat + 256 * readNat m (a + 1) n

/-- Writes the low `n` bytes of a number from `a` upwards, the least significant byte first (R2). -/
def writeNat (m : Memory) (a : Nat) : Nat → Nat → Memory
  | 0, _ => m
  | n + 1, v => writeNat (m.setByte a (BitVec.ofNat 8 v)) (a + 1) n (v / 256)

/-- Reads `n` bytes from `a` upwards. -/
def readBytes (m : Memory) (a : Nat) : Nat → List Byte
  | 0 => []
  | n + 1 => m.byte a :: readBytes m (a + 1) n

/-- Writes a list of bytes from `a` upwards. -/
def writeBytes (m : Memory) (a : Nat) : List Byte → Memory
  | [] => m
  | b :: bs => writeBytes (m.setByte a b) (a + 1) bs

end Memory

end Sys2Proof.Machine
end

