-- ==== Sys2Proof/Machine/Tile.lean ====
section
/-! DEFINITION. The state of one tile: its sequencer, its engines' registers, its memories and tables (01 R1, R128-R151,
the register files of R147, the windows of R69, and the mechanisms of 08-15). Every field is plain data. -/

namespace Sys2Proof.Machine

open Sys2Proof

/-- The trap causes of R365. -/
inductive Cause where
  | ILLOP | RSVD | ALIGN | ASPACE | SPOWN | PERM | RANGE | MEMERR | NONINV | PATLIM | TOKERR | LAPSED
  | BRKPT | WATCH | STEP | SYSCALL | CFGERR | PRIVSTK | LINKPH
  deriving DecidableEq, Repr

/-- The three states of a program counter (R129). -/
inductive CounterState where
  | running | waiting | halted
  deriving DecidableEq, Repr

/-- One of the four program counters (R128, R129). `ended` says that it has raised its ILLOP at NWORDS and now waits
there for an outcome (R130). -/
structure Counter where
  pc : Nat
  st : CounterState
  ended : Bool
  deriving DecidableEq, Repr

/-- One entry of the branch-outcome queue (R132). -/
inductive FlowOutcome where
  | goto (i : Nat)
  | halt
  deriving DecidableEq, Repr

/-- A word of a stream port with its kind: 0 data, 1 data that ends a burst, 2 EOS, 3 lull marker (R121). -/
structure StreamWord where
  data : Line
  kind : BitVec 2
  deriving DecidableEq, Repr

/-- Where a queued command stands (R138-R141). -/
inductive CmdPhase where
  /-- In the queue, not started. -/
  | queued
  /-- Started, and waiting for something its own work needs: a stream word, room, a page, a token. -/
  | running
  /-- All its accesses are performed; it has still to complete (R141). -/
  | performed
  /-- Completed but for a give push that a full token FIFO holds (R141). -/
  | held
  /-- Its trap has been taken, and `eret` will retry or discard it (R369). -/
  | trapped
  deriving DecidableEq, Repr

/-- How far a started command has come. -/
structure CmdProgress where
  /-- The checks at start have been made. -/
  begun : Bool
  /-- Elements, words or tokens done, in walk order. -/
  count : Nat
  /-- Stream words taken and not yet used up (R225), or returned to the port if a marker is met (R372). -/
  words : List StreamWord
  /-- Stream words taken by an `rcv`, for its note (R267). -/
  taken : Nat
  /-- Side ports A and B have met an EOS or a marker (R201). -/
  endA : Bool
  endB : Bool
  /-- Words that `tee` lanes hold, by lane (R210). -/
  tees : Table Line
  /-- A word of a burst that waits at a `tee` lane, with its two side words (R210). -/
  pinned : Option (Line × Line × Line)
  /-- Flags raised so far (R216). -/
  flags : BitVec 6
  /-- RMW tokens sent (R276). -/
  tokens : Nat
  /-- The refusal that an RMW token met, with its INFO (R268, R278, R363). -/
  tokErr : Option (Cause × BitVec 14)
  /-- The reads and writes are done; release, note and completion remain. -/
  done : Bool
  /-- Stopped on a page: the address, and what fault service answered (R371). -/
  page : Option (Nat × Option Bool)
  /-- Updates with a stamp below this may be of the command's own writes (R267). -/
  stamp : Nat
  /-- A release that waits: updates with a stamp, and posted stores with a number, below these are those it waits for (R305,
  R315, R358). -/
  relSince : Option (Nat × Nat)
  /-- Elements that have been read and not written: the command is stopped at the write of the first of them (R268). -/
  ahead : List Nat
  /-- Every read of the command is done (R268). -/
  readsDone : Bool
  deriving DecidableEq, Repr

/-- A command that has done nothing yet. -/
def CmdProgress.start : CmdProgress :=
  { begun := false, count := 0, words := [], taken := 0, endA := false, endB := false, tees := [], pinned := none, flags := 0,
    tokens := 0, tokErr := none, done := false, page := none, stamp := 0, relSince := none, ahead := [], readsDone := false }

/-- The replay that a `nest` has reached: its block, the number of the point and of the body word (R235). -/
structure NestState where
  block : Line
  point : Nat
  body : Nat
  /-- The current body word has started. -/
  started : Bool
  /-- Its wait tokens have been popped: a retry of the replay pops none again (R369). -/
  popped : Bool
  /-- A replayed `wld` has completed its read phase: its give bits, pushed when its write phase ends (R226). -/
  wgive : Option (BitVec 2)
  deriving DecidableEq, Repr

/-- An entry of an engine queue (R138). -/
structure QEntry where
  /-- The model's name for the entry, never reused within a tile. -/
  id : Nat
  word : IWord
  /-- The word index, or 0x4000 plus the position in its block for a pushed command (R339). -/
  index : Nat
  pushed : Bool
  /-- The outcomes that its counter had consumed at issue: with `index`, its place in the text (R74, R54). -/
  epoch : Nat
  /-- The body of a `nest`, copied at issue: this engine's loop buffer (R144). -/
  body : List IWord
  /-- The nest met one of the ILLOP cases of R144. -/
  badNest : Bool
  phase : CmdPhase
  /-- Its wait tokens have been popped (R369: a retry pops none again). -/
  popped : Bool
  /-- The captured layout records (R74). -/
  caps : Table Tlr
  prog : CmdProgress
  nest : Option NestState
  /-- `eret` asked that it stay stopped (R369). -/
  stopped : Bool
  /-- Give pushes still held on a full FIFO: bit 1 the first give, bit 0 the second (R141). -/
  owed : BitVec 2
  /-- Give pushes of later replays of a `nest` that wait behind those, oldest first (R141, R144). -/
  more : List (BitVec 2)
  deriving DecidableEq, Repr

/-- The completion note of an S command that has completed, still to be written (R267): the command's entry and word index, the
note's record and class, the other tile that the command wrote to, and the stamp below which its updates lie. -/
structure PendingNote where
  entry : Nat
  index : Nat
  record : Tlr
  cls : BitVec 4
  far : Option Nat
  stamp : Nat
  deriving DecidableEq, Repr

/-- A monitor-table entry (R427). -/
structure MonEntry where
  line : Word
  wide : Bool
  armed : Bool
  deriving DecidableEq, Repr

/-- A stage-ring slot (R336). -/
structure Slot where
  data : Word
  full : Bool
  owner : BitVec 4
  deriving DecidableEq, Repr

/-- A request that waits on a stage slot at its tile (R338). -/
structure SlotRequest where
  tile : Nat
  slot : Nat
  acquire : Bool
  role : BitVec 4
  data : Word
  deriving DecidableEq, Repr

/-- A block that `renq` has sent to a queue and that has not been accepted (R339). -/
structure Push where
  tile : Nat
  words : List IWord
  deriving DecidableEq, Repr

/-- A publisher-table entry (R350). -/
structure PubEntry where
  valid : Bool
  subTile : BitVec 11
  subIdx : BitVec 5
  lines : BitVec 13
  poff : BitVec 21
  deriving DecidableEq, Repr

/-- A subscriber-table entry (R351). `state` is 0 none, 1 LIVE, 2 LAPSED. -/
structure SubEntry where
  state : BitVec 2
  pub : BitVec 11
  pubIdx : BitVec 5
  lines : BitVec 13
  soff : BitVec 21
  poff : BitVec 21
  spillK : BitVec 16
  spillBase : BitVec 64
  spillCnt : BitVec 32
  deriving DecidableEq, Repr

/-- One update flit: a line of the subscriber, the bytes it carries, and its class (R357). -/
structure Flit where
  line : Nat
  bytes : Table Byte
  cls : BitVec 4
  /-- The order in which its writes were performed, for `pflush` and barriers (R347, R359). -/
  stamp : Nat
  deriving DecidableEq, Repr

/-- An arrival at a barrier of one GSEL (R324). -/
structure Arrival where
  /-- Arrivals made so far with this GSEL. -/
  count : Nat
  /-- The last arrival's instance has not completed. -/
  waiting : Bool
  /-- It has completed, and C has not yet passed the barrier word. -/
  done : Bool
  bart : Bool
  scope : BitVec 3
  /-- Updates with a stamp below this are the member's pre-barrier updates (R359). -/
  stamp : Nat
  deriving DecidableEq, Repr

/-- The halves of a `tx` in progress (R329). -/
structure TxState where
  toSend : List Word
  outDir : BitVec 2
  toRecv : Nat
  inDir : BitVec 2
  /-- Scratchpad offset that the next received word goes to. -/
  dest : Nat
  deriving DecidableEq, Repr

/-- What C waits for inside an instruction that has begun (R343). -/
inductive CWait where
  /-- At a barrier word, arrived (R324). -/
  | barrier (gsel : BitVec 6)
  /-- Asleep in `waitw` (R333). -/
  | asleep
  /-- In `acqs` or `rels`, at a slot of a tile (R338). -/
  | slot (tile : Nat) (slot : Nat)
  /-- In `renq`, for a queue of a tile (R339). -/
  | renq (tile : Nat) (eng : Engine)
  /-- In `sub`, for a spill ring of so many units; `answer` once the policy core has answered (R345). -/
  | spill (units : Nat) (answer : Option Bool)
  /-- In `pflush`, until updates older than the stamp are settled (R347). -/
  | flush (stamp : Nat)
  /-- In `resync`, of a subscriber entry, with the lines below `line` copied (R348). -/
  | resync (entry line : Nat)
  /-- In `tx` (R329). -/
  | tx (st : TxState)
  /-- On a page that is not present; `answer` is what fault service found (R171, R371). -/
  | page (va : Nat) (answer : Option Bool)
  deriving DecidableEq, Repr

/-- A trap that waits to be delivered (R368, R373). -/
structure PendingTrap where
  eng : Engine
  cause : Cause
  info : BitVec 14
  index : Nat
  /-- It was saved in the context image: it is delivered with DEF = 1 (R374). -/
  saved : Bool
  /-- The queue entry of the command that it stopped, if it stopped one (R130, R367). -/
  entry : Option Nat
  deriving DecidableEq, Repr

/-- The sticky fields of `LSTAT` or `SSTAT` (R281). -/
structure EngineStatus where
  fpage : BitVec 52
  eos : BitVec 4
  opmBusy : Bool
  hfail : Bool
  deriving DecidableEq, Repr

/-- A term of a pattern (R244, R245). -/
inductive Term where
  | band (lo hi : Int)
  | dil (base : Int) (count step : Nat)
  | bdiag (h w : Nat)
  | hash (count salt seed : Nat) (declared : Bool)
  | kron (h2 w2 : Nat) (p1 p2 : Term)
  | perm (m v : Nat) (t : Term)
  deriving DecidableEq, Repr

/-- What a build leaves in the generator beside its saved state (R243, R247). -/
structure Build where
  /-- The emitted terms in emit order, each with the NR and NC of its `emit`. -/
  terms : List (Term × Nat × Nat)
  nr : Nat
  nc : Nat
  /-- Column and row of every entry of the verified term's inverse table. -/
  inverse : Table Nat
  deriving DecidableEq, Repr

/-- The index generator's context state (R248, R249). -/
structure GenState where
  c : Table (BitVec 32)
  o : Table (BitVec 32)
  seed : BitVec 48
  pc : Byte
  nw : Byte
  store : Table (BitVec 32)
  /-- STATUS. -/
  steps : BitVec 11
  nterm : BitVec 4
  hv : Bool
  decl : Bool
  inv : Bool
  dirty : Bool
  isBuilt : Bool
  /-- The term list, not part of the saved state (R247). -/
  built : Option Build
  deriving DecidableEq, Repr

/-- The cleared generator (R253). -/
def GenState.zero : GenState :=
  { c := [], o := [], seed := 0, pc := 0, nw := 0, store := [], steps := 0, nterm := 0, hv := false, decl := false,
    inv := false, dirty := false, isBuilt := false, built := none }

/-- A route element in a router (R18): a corner-turn node (R237), an RMW node (R277), or an arbiter, counter or merge
node (R340, R341). Each kind uses the fields its rule gives it. -/
structure RouteNode where
  kind : Nat
  /-- The section entry, whose bits keep their numbers. -/
  param : BitVec 128
  /-- A corner-turn node: the word that waits for a block buffer. -/
  inq : List StreamWord
  /-- A corner-turn node: words of the block being filled. -/
  block : List StreamWord
  /-- Words to emit: a turned block, a counter's words, what a merge has combined. -/
  out : List StreamWord
  /-- Words received on each arc and not yet delivered or combined. -/
  arcs : Table (List StreamWord)
  /-- Arcs of the bursts not yet delivered whole, in ticket order. -/
  tickets : List Nat
  /-- An arc's last received word leaves its burst open. -/
  openArcs : List Nat
  /-- The arbiter's grant FIFO. -/
  grants : List Nat
  /-- Arcs that have sent EOS, and arcs that have sent a lull marker. -/
  eos : List Nat
  lulls : List Nat
  /-- Arcs that an EOS reply has still to reach. -/
  replyEos : List Nat
  count : BitVec 32
  zseq : BitVec 32
  deriving DecidableEq, Repr

/-- The pre-emption state of a tile (R372). -/
inductive LullState where
  /-- No marker has reached the tile. -/
  | none
  /-- Its own marker has come: issue has stopped. `sent` once its own markers have left. -/
  | lulled (sent : Bool) (seen : List Nat)
  /-- Saved and sealed. -/
  | sealed
  deriving DecidableEq, Repr

/-- One tile. -/
structure Tile where
  -- C registers and links (R146, R328, R330, R327)
  x : Table Word
  linkIn : Table (List Word)
  /-- Words sent on each output and not yet in the neighbour's input (R328). -/
  linkOut : Table (List Word)
  forward : Table (BitVec 3)
  phase : Option (BitVec 6)
  -- layout records (R72)
  g : Table Tlr
  -- the sequencer (R128-R145)
  cntC : Counter
  cntL : Counter
  cntX : Counter
  cntS : Counter
  outcomes : List FlowOutcome
  /-- Outcomes freed so far; with the list, the number appended (R132). -/
  freed : Nat
  consL : Nat
  consX : Nat
  consS : Nat
  qL : List QEntry
  qX : List QEntry
  qS : List QEntry
  nextId : Nat
  tokLX : Nat
  tokXL : Nat
  tokXS : Nat
  tokSX : Nat
  -- the program (R11, R14, R128)
  hasText : Bool
  nwords : Nat
  entry : Nat
  istore : Table IWord
  istoreBad : Table Bool
  istoreWritten : Bool
  -- traps (R182, R366, R368)
  inHandler : Bool
  /-- C's place in the text when its handler was entered. -/
  resumePc : Nat
  pending : List PendingTrap
  /-- The trap in `TRAPCAUSE` stopped no command: RES has no effect (R130). -/
  trapNoCmd : Bool
  /-- The trap in `TRAPCAUSE` is the ILLOP of a counter at NWORDS: RES has no effect at all (R130). -/
  trapAtEnd : Bool
  /-- The queue entry of the command that the trap in `TRAPCAUSE` stopped (R369). -/
  trapEntry : Option Nat
  cwait : Option CWait
  /-- C stands between two repetitions of the `rep` at its counter: it has begun that word (R184, R375). -/
  repOn : Bool
  /-- The `halt` C last executed (R136, R339). -/
  haltedAt : Option Nat
  /-- The tile has been restored, and its C has executed no `halt` since (R339). -/
  restored : Bool
  /-- The tile has halted clean after draining (R136). -/
  drained : Bool
  /-- A trap escalated and the tile's counters halted (R370). -/
  escalated : Bool
  -- CSRs (R148)
  tileId : BitVec 11
  origin : BitVec 11
  drift : BitVec 7
  trapVec : BitVec 15
  trapCause : Word
  trapPc : BitVec 15
  repIdx : BitVec 6
  subBatch : BitVec 16
  groupMask : BitVec 6
  fflags : BitVec 6
  lstat : EngineStatus
  sstat : EngineStatus
  fired : BitVec 16
  phDrop : Bool
  monFull : Bool
  bkpt : Table Word
  watch : Table Word
  dbgCtl : BitVec 3
  -- memories (R12, R128, R258, R311, R378)
  scratch : Memory
  poison : Table Bool
  spares : Table Nat
  zflags : Table Bool
  /-- Bytes that X has written and not yet released at D or Y, with what they held before (R312). -/
  xOld : Table Byte
  /-- Words of registers and tables with an uncorrectable error, by OPM window offset (R380). -/
  badRegs : Table Bool
  -- X engine (R147, R222, R194-R196, R248)
  acc : Table (BitVec 32)
  latch : Table Byte
  lw0 : Nat
  lw1 : Nat
  actW : Bool
  /-- A weight load in its write phase: the lines it writes, and its line count (R226). -/
  wpend : Option (Table Byte × Nat)
  lanes : Table Line
  rowOps : Table (BitVec 32)
  rowCfg : Table (BitVec 32)
  rowSw : Table (BitVec 16)
  gen : GenState
  -- synchronisation (R324, R333, R336, R338, R339)
  arrivals : Table Arrival
  mon : Table MonEntry
  ring : Table Slot
  slotWaits : List SlotRequest
  pushL : List Push
  pushX : List Push
  pushS : List Push
  /-- Updates with a stamp below this may be of writes that S has made to other tiles (R274). -/
  sStamp : Nat
  /-- Notes that completed S commands still owe, oldest first (R267). -/
  notes : List PendingNote
  /-- C waits in a release: updates with a stamp, and posted stores with a number, below these are those it waits for (R305,
  R315, R358). -/
  relSince : Option (Nat × Nat)
  -- subscriptions (R350, R351, R357)
  pubs : Table PubEntry
  subs : Table SubEntry
  batches : Table (List Flit)
  -- stream ports (R121), and configuration errors owed to them (R126)
  inPorts : Table (List StreamWord)
  outPorts : Table (List StreamWord)
  cfgErr : Table Nat
  /-- The route elements of the tile's router, by slot (R18). -/
  routes : Table RouteNode
  -- placement and pre-emption (R110, R116, R119, R372, R378)
  owner : Option Nat
  clearing : Bool
  excluded : Bool
  lull : LullState
  deriving DecidableEq, Repr

/-- The branch counter as it stands after clearing: halted (R117). The word index is the model's choice (log 4). -/
def Counter.halted : Counter := { pc := 0, st := .halted, ended := false }

/-- Status registers after reset (R148). -/
def EngineStatus.zero : EngineStatus := { fpage := 0, eos := 0, opmBusy := false, hfail := false }

/-- A tile after device reset and after clearing (R117, R148, R196; log 4 for what they leave open). -/
def Tile.reset : Tile :=
  { x := [], linkIn := [], linkOut := [], forward := [], phase := none, g := [],
    cntC := .halted, cntL := .halted, cntX := .halted, cntS := .halted,
    outcomes := [], freed := 0, consL := 0, consX := 0, consS := 0, qL := [], qX := [], qS := [], nextId := 0,
    tokLX := 0, tokXL := 0, tokXS := 0, tokSX := 0,
    hasText := false, nwords := 0, entry := 0, istore := [], istoreBad := [], istoreWritten := false,
    inHandler := false, resumePc := 0, pending := [], trapNoCmd := false, trapAtEnd := false, trapEntry := none, cwait := none, repOn := false,
    haltedAt := none, restored := false,
    drained := true,
    escalated := false,
    tileId := 0, origin := 0, drift := 16, trapVec := 0, trapCause := 0, trapPc := 0, repIdx := 0, subBatch := 64,
    groupMask := 0, fflags := 0, lstat := .zero, sstat := .zero, fired := 0, phDrop := false, monFull := false,
    bkpt := [], watch := [], dbgCtl := 0,
    scratch := [], poison := [], spares := [], zflags := [], xOld := [], badRegs := [],
    acc := [], latch := [], lw0 := 0, lw1 := 0, actW := false, wpend := none, lanes := [], rowOps := [], rowCfg := [],
    rowSw := [], gen := .zero,
    arrivals := [], mon := [], ring := [], slotWaits := [], pushL := [], pushX := [], pushS := [], sStamp := 0,
    notes := [], relSince := none,
    pubs := [], subs := [], batches := [], inPorts := [], outPorts := [], cfgErr := [], routes := [],
    owner := none, clearing := false, excluded := false, lull := .none }

end Sys2Proof.Machine
end

