-- ==== Sys2Proof/Machine/State.lean ====
section
/-! DEFINITION. The state of the device, its reset, and the reasons a step can stop. -/

namespace Sys2Proof.Machine

open Sys2Proof

/-! ### Accepted images (01) -/

/-- A tile program text section (R11). -/
structure TextSec where
  words : List IWord
  entry : Nat
  doff : Nat
  data : List Byte
  deriving DecidableEq, Repr

/-- A port-map entry of a region (R16). -/
structure PortMap where
  rport : Nat
  /-- DIR: the region feeds the tile port. -/
  toTile : Bool
  tport : Nat
  tile : Nat
  deriving DecidableEq, Repr

/-- A logic-region section (R16). -/
structure RegionSec where
  corg : Nat
  cwidth : Nat
  cheight : Nat
  clock : Nat
  ports : List PortMap
  bits : List Byte
  deriving DecidableEq, Repr

/-- A route-element entry (R18). -/
structure RouteSec where
  tile : Nat
  slot : Nat
  kind : Nat
  /-- The entry as one 128-bit value: PARAM keeps its bit numbers. -/
  param : BitVec 128
  deriving DecidableEq, Repr

/-- The endpoint kinds (R19), in the order of their codes. -/
inductive EpKind where
  | memIn | memOut | hostIn | hostOut | hostToken | jetIn | jetOut | queue
  deriving DecidableEq, Repr

/-- An endpoint of the endpoint table (R19). -/
structure Endpoint where
  name : BitVec 128
  epid : BitVec 16
  kind : EpKind
  sink : Bool
  tile : Nat
  port : Nat
  burst : Nat
  fmt : Nat
  range : Nat
  jetIdx : Nat
  oc : BitVec 4
  deriving DecidableEq, Repr

/-- A range-entry template (R20). -/
structure Template where
  vbase : Nat
  vlimit : Nat
  canRead : Bool
  canWrite : Bool
  plain : Bool
  share : Nat
  posted : Bool
  peer : Bool
  deriving DecidableEq, Repr

/-- A subscription declaration (R22). -/
structure SubDecl where
  pub : Nat
  subTile : Nat
  poff : Nat
  soff : Nat
  lines : Nat
  spillK : Nat
  deriving DecidableEq, Repr

/-- What an accepted image says (R6-R23), with its measurement (R25). -/
structure Image where
  authKey : BitVec 256
  imageId : BitVec 64
  prot : Bool
  measurement : BitVec 256
  totLen : Nat
  width : Nat
  height : Nat
  /-- EDGES: bit 0 north, bit 1 east, bit 2 south, bit 3 west. -/
  edges : BitVec 4
  memPorts : Nat
  jetPorts : Nat
  hostEp : Bool
  texts : List TextSec
  /-- Text index of every tile in row-major order; 0xFFFF for a tile with no program (R14). -/
  tileMap : List Nat
  /-- Element-row configurations by relative tile: 160 bytes as one number (R15). -/
  rowCfgs : Table (BitVec 1280)
  regions : Table RegionSec
  routes : List RouteSec
  endpoints : List Endpoint
  templates : List Template
  subs : List SubDecl
  stageLists : List (List Nat)
  deriving DecidableEq, Repr

/-! ### Device memory behind the ports (11) -/

/-- A range entry as the memory-port tiles of its context hold it (R287). -/
structure RangeEntry where
  ctx : Nat
  gen : BitVec 16
  keyId : Nat
  plain : Bool
  share : Nat
  noAlloc : Bool
  posted : Bool
  peer : Bool
  paged : Bool
  canRead : Bool
  canWrite : Bool
  peerId : Nat
  pbase : Nat
  vlimit : Nat
  vbase : Nat
  deriving DecidableEq, Repr

/-- An entry of the backing table (R288). -/
structure Backing where
  peerId : Nat
  paged : Bool
  pbase : Nat
  deriving DecidableEq, Repr

/-- A translation that a memory-port tile caches (R290). -/
structure CachedXlat where
  ctx : Nat
  gen : BitVec 16
  page : Nat
  pa : Nat
  deriving DecidableEq, Repr

/-- A line that a cache slice holds, with a valid bit for each 64-byte half (R295). -/
structure CacheLine where
  line : Nat
  valid : BitVec 2
  dirty : Bool
  deriving DecidableEq, Repr

/-- A request of a slice to its controller (R296). -/
structure Miss where
  line : Nat
  half : Nat
  write : Bool
  alloc : Bool
  share : Nat
  /-- The port that sent it and its ordering class: memory's answer goes back there (R294). -/
  back : Option (Nat × BitVec 4)
  deriving DecidableEq, Repr

/-- A memory-side cache slice (R295, R296, R378). -/
structure Slice where
  /-- Lines held, the most recently used first. -/
  lines : List CacheLine
  /-- Requests that hold a miss register, oldest first. -/
  misses : List Miss
  /-- Reads that bypass the slice, oldest first. -/
  bypass : List Miss
  /-- Writes that wait for a miss register, oldest first. -/
  waiting : List Miss
  ways : Nat
  spareWays : Nat
  deriving DecidableEq, Repr

/-- A request on its way from a memory-port tile to a slice, or a response on its way back, in an ordering class (R294, R296). -/
structure Transit where
  port : Nat
  slice : Nat
  cls : BitVec 4
  miss : Miss
  deriving DecidableEq, Repr

/-- A read that a port has translated, with the 128-byte line that holds its first byte (R292). -/
structure SeenRead where
  ctx : Nat
  gen : BitVec 16
  va : Nat
  line : BitVec 1024
  deriving DecidableEq, Repr

/-- What an indirect prefetcher has been trained on (R292): the elements of the index array, each multiplied by `scale`
and added to `base`, give the addresses that are read. -/
structure IndexPattern where
  ctx : Nat
  gen : BitVec 16
  /-- Elements of i64 rather than i32. -/
  wide : Bool
  scale : Int
  base : Int
  /-- The line of the index array that was read last, and the last that has been read ahead, by address over 128. -/
  line : Nat
  ahead : Nat
  /-- An address of the target range. -/
  target : Nat
  deriving DecidableEq, Repr

/-- The indirect prefetcher of a memory-port tile (R292). -/
structure Prefetcher where
  /-- The last reads, the newest first. -/
  seen : List SeenRead
  pattern : Option IndexPattern
  deriving DecidableEq, Repr

/-! ### Queues and packets (04) -/

/-- A window of a queue descriptor, in bytes (R80). -/
structure Window where
  enabled : Bool
  host : Bool
  base : Nat
  limit : Nat
  deriving DecidableEq, Repr

/-- What submission and completion descriptors share (R80), and the ring's counts. -/
structure Ring where
  func : Nat
  pasid : Nat
  /-- RLOC: the ring lies in host memory. -/
  host : Bool
  base : Nat
  /-- Entries: 2^(LOGN + 6). -/
  size : Nat
  dcq : Nat
  msix : Nat
  hwb : Nat
  /-- A submission ring: packets taken. A completion ring: records written. -/
  count : BitVec 32
  /-- The shadow: the last doorbell count (R82). -/
  shadow : BitVec 32
  stopped : Bool
  deriving DecidableEq, Repr

/-- A submission queue (R80). -/
structure SubQueue where
  ring : Ring
  opmask : BitVec 32
  ctxmask : BitVec 32
  prioMax : Nat
  windows : List Window
  deriving DecidableEq, Repr

/-- A hardware slot: the queue it holds (R83, R84). -/
structure SlotUse where
  queue : Nat
  quiescing : Bool
  deriving DecidableEq, Repr

/-- A completion record that waits for its ring or its link (R101, R391). -/
structure HeldRecord where
  cq : Nat
  body : BitVec 256
  ctok : Bool
  cirq : Bool
  /-- The context that stays busy until the record is written (R95, R101). -/
  ctx : Option Nat
  deriving DecidableEq, Repr

/-- What a binding connects an endpoint to (R90, R283). -/
inductive Operand where
  | none
  | mem (va lines : Nat)
  | host (space iova lines : Nat)
  | jetOut (peer : BitVec 12) (stag : BitVec 24)
  | jetIn (stag : BitVec 24)
  | queue (base cap : Nat)
  deriving DecidableEq, Repr

/-- A validated binding (R89, R95). -/
structure Binding where
  src : PktSrc
  runtag : BitVec 32
  cq : Nat
  prio : Nat
  shovr : Bool
  share : Nat
  ctok : Bool
  cirq : Bool
  args : List Byte
  /-- Operands by endpoint index, for the endpoints it names. -/
  ops : Table Operand
  /-- The order in which it passed validation (R96). -/
  stamp : Nat
  /-- What ageing has added to its priority (R96). -/
  aged : Nat
  deriving DecidableEq, Repr

/-- The failure of a run (R386). -/
structure RunFail where
  status : Nat
  epid : BitVec 16
  addr : Word
  result : Word
  deriving DecidableEq, Repr

/-- The active run of a context. -/
structure Run where
  binding : Binding
  fail : Option RunFail
  /-- Steps 3 and 4 of R370 have been carried out for the failure. -/
  stopped : Bool
  deriving DecidableEq, Repr

/-! ### Contexts (05) -/

/-- Where a generator stands in the lull sequence (R372). -/
inductive GenLull where
  | none | asked | saved
  deriving DecidableEq, Repr

/-- An endpoint's generator (R282-R285, R400). -/
structure Generator where
  /-- A run has started it, and its stream has not ended. -/
  active : Bool
  /-- The next line, or the number of words taken. -/
  next : Nat
  /-- It has sent, taken, enqueued or dequeued the EOS. -/
  eos : Bool
  /-- Its sink condition is met (R382). -/
  met : Bool
  /-- The last word it delivered leaves a burst open. -/
  midBurst : Bool
  /-- Stopped on a page: the address, and what fault service or the host answered. -/
  page : Option (Nat × Option Bool)
  /-- The page is of host memory (R270). -/
  hostPage : Bool
  /-- HOST-TOKEN: the token FIFO (R98). -/
  tokens : List Line
  /-- Words taken and kept for the next run, or not yet sent (R372). -/
  unsent : List StreamWord
  /-- JET-OUT: words it may still send (R400). -/
  credit : Nat
  lull : GenLull
  deriving DecidableEq, Repr

/-- A queue in device memory that QUEUE endpoints share (R284): the numbers of words dequeued and enqueued. -/
structure QueueRing where
  base : Nat
  cap : Nat
  head : Nat
  tail : Nat
  deriving DecidableEq, Repr

/-- The state of a region's configuration (R123, R126). -/
inductive RegionState where
  | running
  /-- Hold and drain, before a reload with this region's configuration. -/
  | holding (next : Nat)
  | reloading (next : Nat)
  /-- Frozen for a configuration error; `swap` says what a hot swap had under way. -/
  | frozen
  deriving DecidableEq, Repr

/-- A logic region, or the region of a stage-swap list (R120-R127). -/
structure Region where
  /-- The region number of the loaded configuration. -/
  stage : Nat
  state : RegionState
  /-- Words taken on each input port since the region's state was last reset: the model's stand-in for its
  flip-flops and block RAM (log 10). -/
  given : Table (List StreamWord)
  /-- Words emitted on each output port since then. -/
  emitted : Table Nat
  /-- The configuration frames as the cells hold them, in address order (R125). -/
  store : List Byte
  /-- Their signature, computed when the region was loaded (R125). -/
  sig : BitVec 64
  /-- Single-bit errors that the scrubber has not yet corrected: the cell, relative to the region's north-west cell, and the
  number of its frame (R125). -/
  upsets : List (Nat × Nat)
  /-- A frame holds an uncorrectable error, or the signature does not match (R126). -/
  bad : Bool
  /-- The cell of that frame, relative to the region's north-west cell, and its number in the cell. -/
  badCell : Nat
  badFrame : Nat
  /-- A CFGERR is owed for the hot swap's repair (R127). -/
  owed : Bool
  /-- Input ports on which a lull marker has been taken (R372). -/
  markers : List Nat
  /-- Its markers have been emitted on these output ports. -/
  sent : List Nat
  deriving DecidableEq, Repr

/-- Where a context stands (R105, R116, R372). -/
inductive CtxPhase where
  | resident | placed | lulling | clearing
  /-- Destroyed while it was not placed: it holds no tile (R106, R389). -/
  | leaving
  deriving DecidableEq, Repr

/-- The position that a generator has saved (R372, R373): its next line or word, whether a burst is open, and the words before
its marker that it has not sent. -/
structure GenPos where
  next : Nat
  midBurst : Bool
  unsent : List StreamWord
  deriving DecidableEq, Repr

/-- What a sealed context record says: its tiles by relative coordinate, its regions, and the positions of its generators by
endpoint (R373). -/
structure SealedRecord where
  tiles : Table Tile
  regions : Table Region
  gens : Table GenPos
  deriving DecidableEq, Repr

/-- The `CTXDESTROY` that a context's clearing ends (R389): the packet's source, tag and queue. -/
structure Destroy where
  src : PktSrc
  runtag : BitVec 32
  /-- A reset asks for no record (R390). -/
  silent : Bool
  deriving DecidableEq, Repr

/-- A context. -/
structure Context where
  func : Nat
  gen : BitVec 16
  row : Nat
  col : Nat
  width : Nat
  height : Nat
  memPorts : Nat
  ranges : List RangeEntry
  /-- The number of the key its encrypted lines are written under (R291). -/
  key : Nat
  /-- Its copy in the image store (R32). -/
  copy : Nat
  backing : List Backing
  phase : CtxPhase
  /-- The assigned memory-port and jet-port tiles, ascending (R108). -/
  ports : List Nat
  jets : List Nat
  fifo : List Binding
  run : Option Run
  /-- The record of the last run has not been written (R95). -/
  busy : Bool
  /-- The RESULT that an escalation without a run holds for the next binding (R370). -/
  heldFault : Option Word
  /-- Operands that the last run bound (R91). -/
  lastOps : Table Operand
  gens : Table Generator
  queues : List QueueRing
  regions : Table Region
  sealedRec : Option SealedRecord
  /-- An eviction has been asked for (R388). -/
  evictAsked : Bool
  /-- Tiles that the clearing token has still to clear (R116). -/
  toClear : List Nat
  destroy : Option Destroy
  /-- The order in which it became idle (R109). -/
  idleSince : Nat
  /-- Ageing of a run that waits to be placed again (R388). -/
  aged : Nat
  /-- A placement found no room, and waits for a clearing to complete (R109). -/
  waitsRoom : Bool
  deriving DecidableEq, Repr

/-! ### Faults and messages on their way -/

/-- Who stopped on a page (R268, R171, R285). -/
inductive PageWaiter where
  | c (tile : Nat)
  | command (tile : Nat) (eng : Engine) (entry : Nat)
  | generator (ctx : Nat) (ep : Nat)
  /-- A request that came to a port by itself: nothing in the model resumes. -/
  | request (port : Nat)
  deriving DecidableEq, Repr

/-- A fault record on the escalation path (R371). -/
structure PageFault where
  ctx : Nat
  gen : BitVec 16
  va : Nat
  who : PageWaiter
  deriving DecidableEq, Repr

/-- A PRI page request to the host (R270): its number, and the page of the host space asked for. -/
structure HostRequest where
  number : Nat
  ctx : Nat
  gen : BitVec 16
  space : Nat
  iova : Nat
  /-- The endpoint whose buffer it is. -/
  epid : BitVec 16
  who : PageWaiter
  deriving DecidableEq, Repr

/-- An escalated trap reported to the Front (R370). -/
structure Report where
  /-- The tile, by module coordinate and, in its context, by relative coordinate. -/
  tile : Nat
  rel : BitVec 11
  /-- The context whose tile it was, and its generation. -/
  ctx : Option Nat
  gen : BitVec 16
  cause : Cause
  eng : Engine
  index : Nat
  deriving DecidableEq, Repr

/-- An RMW token on its way to its home (R276, R278). -/
structure RmwToken where
  src : Nat
  eng : Engine
  entry : Nat
  home : Nat
  offset : Nat
  slot : Nat
  cls : BitVec 4
  size : Nat
  operand : Nat
  gather : Bool
  /-- Element number in walk order, for a gather's result. -/
  elem : Nat
  deriving DecidableEq, Repr

/-- An update flit between two tiles (R355, R357). -/
structure FlitInFlight where
  pubTile : Nat
  pubIdx : Nat
  subTile : Nat
  subIdx : Nat
  flit : Flit
  deriving DecidableEq, Repr

/-- The agent that made an access (R297). -/
inductive Author where
  /-- An engine of a tile, for the command of a queue entry; C's accesses name no entry. -/
  | engine (tile : Nat) (eng : Engine) (entry : Nat)
  | generator (ctx : Nat) (ep : Nat)
  /-- A memory-port tile's edge network, the Front, firmware, or the host. -/
  | outside
  deriving DecidableEq, Repr

/-- A request to a peer device under a posted entry, not yet acknowledged (R315, R384). -/
structure PeerStore where
  author : Author
  cls : BitVec 4
  number : Nat
  ctx : Nat
  gen : BitVec 16
  peer : Nat
  /-- The virtual address of its first byte. -/
  va : Nat
  addr : Nat
  bytes : List Byte
  deriving DecidableEq, Repr

/-- A message on a jet link (16). -/
inductive JetMsg where
  | word (stag : BitVec 24) (w : StreamWord)
  | credit (stag : BitVec 24) (n : Nat)
  | packet (pkt : BitVec 512)
  | record (body : BitVec 256)
  deriving DecidableEq, Repr

/-- One 256-bit flit of a message; the message is complete with its last flit (R398). -/
structure JetFlit where
  msg : JetMsg
  part : Nat
  parts : Nat
  deriving DecidableEq, Repr

/-- A source entry of a launch lane (R94). -/
structure LaneSource where
  srcId : BitVec 12
  srcMask : BitVec 12
  ctxmask : BitVec 32
  deriving DecidableEq, Repr

/-- The state of a jet link: LINK of `JPCTL` (R396). -/
inductive LinkState where
  | down | training | up | failed
  deriving DecidableEq, Repr

/-- A jet-port tile (R396-R400). -/
structure JetPort where
  enabled : Bool
  tagRun : BitVec 6
  srcId : BitVec 12
  link : LinkState
  fails : Nat
  /-- The source ID that the far end announced. -/
  peer : BitVec 12
  sources : Table LaneSource
  /-- Flits to send, and the sequence number of the next run. -/
  txq : List JetFlit
  seq : Nat
  /-- Runs sent and not acknowledged. -/
  unacked : List (Nat × List JetFlit)
  /-- Flits held until their run's tag verifies. -/
  rx : List JetFlit
  expect : Nat
  /-- Runs that have failed one after another. -/
  strikes : Nat
  /-- Replays that the far end has asked for one after another. -/
  asked : Nat
  /-- Stream words released and not yet delivered. -/
  arrived : List (BitVec 24 × StreamWord)
  /-- Launch-lane packets released and not yet taken. -/
  lane : List (BitVec 512)
  keyEpoch : Nat
  deriving DecidableEq, Repr

/-- The state of a PCIe function (R395, R391). -/
structure Function where
  aqBase : Word
  aqCtl : Word
  acqBase : Word
  htBase : Word
  dbDrop : Word
  linkLost : Bool
  allocBase : Word
  allocSize : Word
  poolBase : Word
  poolSize : Word
  /-- The author allow list (R30). -/
  allow : Table (BitVec 256)
  ideUsed : Bool
  ideUp : Bool
  tdispUsed : Bool
  tdispLocked : Bool
  /-- The function's BAR4 requests are TDI-bound and arrive under IDE (R394). -/
  tdiBound : Bool
  /-- Host-token counts by position in the host-token page (R387). -/
  tokens : Table Word
  deriving DecidableEq, Repr

/-- A class of the share table (R102). -/
structure Share where
  min : Nat
  weight : Nat
  ceil : Nat
  deriving DecidableEq, Repr

/-- What leaves the device. -/
inductive Emission where
  | msix (func vector : Nat)
  | peerWrite (peer addr : Nat) (bytes : List Byte)
  /-- A write of one nibble of a byte, merged at the peer (R309). -/
  | peerNibble (peer addr : Nat) (high : Bool) (value : BitVec 4)
  | jetRun (port seq : Nat) (flits : List JetFlit)
  | jetReplayAsked (port seq : Nat)
  | jetRunAck (port seq : Nat)
  | pageRequest (number space iova : Nat)
  | registerRead (func : Nat) (value : Word)
  | bar4Data (func : Nat) (bytes : List Byte)
  | unsupportedRequest (func : Nat)
  | opmData (tile : Nat) (value : Word)
  /-- Firmware's access at an offset in no window, or not aligned (R68, R70). -/
  | opmRefused (tile : Nat) (cause : Cause)
  /-- The answer of a memory-port tile to a request of its edge network (R289): data, a refusal, or an acceptance. -/
  | portData (port ctx : Nat) (bytes : List Byte)
  | portRefused (port ctx : Nat) (cause : Cause)
  | portDone (port ctx : Nat)
  | spdm (bytes : List Byte)
  /-- A TDISP interface report of a function (R403). -/
  | interfaceReport (func : Nat) (bytes : List Byte)
  | thermalTrip
  deriving DecidableEq, Repr

/-- The device's own condition (R381, R401). -/
inductive DeviceMode where
  | off | recovery | ready | fatal
  deriving DecidableEq, Repr

/-- The dump region (R381): the bytes written, encrypted under the device dump key, and TRUNC. -/
structure Dump where
  bytes : List Byte
  trunc : Bool
  deriving DecidableEq, Repr

/-- One direction of a die bridge, both its ends (R115, R398, R399). -/
structure DieBridge where
  /-- Flits that are to be sealed, oldest first, and the sequence number of the next run. -/
  txq : List (BitVec 256)
  seq : Nat
  /-- Runs sent and not acknowledged: kept for a replay. -/
  unacked : List (Nat × List (BitVec 256))
  /-- The numbers of the runs on the wires, oldest first: the far end holds each until its tag flit is there. -/
  wire : List Nat
  /-- The number of the next run that the far end releases, and the flits that it has released, in order. -/
  expect : Nat
  released : List (BitVec 256)
  /-- Runs that have failed one after another. -/
  strikes : Nat
  deriving DecidableEq, Repr

/-- A firmware access to an OPM word of a tile under clearing: the value, if it writes (R119). -/
structure HeldAccess where
  tile : Nat
  offset : Nat
  value : Option Word
  deriving DecidableEq, Repr

/-- A spill ring, in firmware's memory, of one subscription of a tile that has saved its state (R361). -/
structure SpillRing where
  ctx : Nat
  rel : Nat
  idx : Nat
  flits : List Flit
  deriving DecidableEq, Repr

/-- The tile and the queue entry that a meaning acts for. -/
structure Focus where
  tile : Nat
  entry : Nat
  deriving DecidableEq, Repr

/-- A hardware error that strikes storage (R125, R311, R374, R378-R380). -/
inductive Upset where
  /-- A corrected error in a scratchpad line, or in a way of a slice. -/
  | scratchBit (tile line : Nat)
  | wayBit (slice way : Nat)
  /-- A corrected error in an instruction-store word, or in a register or table word, by its OPM window offset in words. -/
  | storeBit (tile word : Nat)
  | registerBit (tile word : Nat)
  /-- An uncorrectable error in a scratchpad line. -/
  | scratchLine (tile line : Nat)
  /-- An uncorrectable error in a 64-byte half of a device-memory line, met in a way of its slice. -/
  | memoryHalf (half way : Nat)
  /-- An uncorrectable error in an instruction-store word. -/
  | storeWord (tile word : Nat)
  /-- An uncorrectable error in a register or table word, by its OPM window offset in words. -/
  | registerWord (tile word : Nat)
  /-- A single-bit error in a configuration frame of a cell. -/
  | frameBit (ctx region cell frame : Nat)
  /-- An uncorrectable error in a configuration frame of a cell. -/
  | frame (ctx region cell frame : Nat)
  /-- An error that no ECC word of a region's frames shows: these are its frames now. -/
  | frames (ctx region : Nat) (store : List Byte)
  /-- An error in the sealed record of a context: this is the record now. -/
  | sealedRecord (ctx : Nat) (record : SealedRecord)
  deriving DecidableEq, Repr

/-- An input that the next step takes. -/
inductive Stimulus where
  /-- A step of one of the device's agents, or an input that is one of the rows of the table. -/
  | act (i : Instr)
  /-- The host writes its own memory. -/
  | hostWrite (space addr : Nat) (bytes : List Byte)
  /-- Flits arrive on a jet link. -/
  | jetFlits (port : Nat) (flits : List JetFlit)
  /-- The far end acknowledges runs up to a number (R398). -/
  | runAck (port seq : Nat)
  | upset (u : Upset)
  /-- What the sensors give for `POWER` and `TEMP` (R395). -/
  | sensors (power temp : Word)
  /-- Flits come to the sending end of a die bridge (R399). -/
  | bridgeFlits (bridge : Nat) (flits : List (BitVec 256))
  /-- 20 ns have passed at the sending end with no flit to send (R398). -/
  | bridgeIdle (bridge : Nat)
  /-- The tag flit of the oldest run on the wires reaches the receiving end of a die bridge (R399). -/
  | bridgeRun (bridge : Nat) (verified : Bool)
  /-- A read of a doubleword of a function's BAR0 (R395). -/
  | registerRead (func offset : Nat)
  /-- Whether the function's BAR4 requests from here on are TDI-bound and arrive under IDE (R394). -/
  | tdiRequests (func : Nat) (bound : Bool)
  /-- A requester asks for a function's TDISP interface report, with the evidence of a context (R403). -/
  | interfaceReport (func ctx : Nat) (nonce : BitVec 256)
  deriving DecidableEq, Repr

/-- The state of the device. -/
structure State where
  tiles : Table Tile
  ctxs : Table Context
  /-- The generation of each context number (R114). -/
  gens : Table (BitVec 16)
  /-- `FENCEDROP` of each context number (R113). -/
  fenceDrop : Table (BitVec 32)
  /-- The image store (R28). -/
  images : Table Image
  /-- The SHA3-256 of each record of a sealed context, in the policy core's memory (R373). -/
  seals : Table (List (BitVec 256))
  -- memory
  devMem : Memory
  /-- The key each 128-byte line was last written under; 0 is plaintext (R291). -/
  devKey : Table Nat
  devPoison : Table Bool
  hostMem : Table Memory
  /-- Pages of host spaces that the host-port tile's ATS cache holds (R270). -/
  atsCache : Table Bool
  /-- Key slots in use, with the number of the key that each holds (R291). -/
  keySlots : Table Nat
  nextKey : Nat
  portCache : Table (List CachedXlat)
  slices : Table Slice
  /-- Writes on their way to a slice without a free miss register, oldest first (R294). -/
  transit : List Transit
  /-- Responses on their way back to their ports, oldest first (R294). -/
  replies : List Transit
  /-- The indirect prefetchers, by port (R292). -/
  prefetch : Table Prefetcher
  shares : Table Share
  /-- Requests served in the accounting window, by controller and class (R103). -/
  served : Table Nat
  -- the Front
  functions : Table Function
  subQs : Table SubQueue
  compQs : Table Ring
  slots : List SlotUse
  /-- Queues whose pending bit is set, in the order in which it was set (R84). -/
  pendingQs : List Nat
  /-- Queues by their last doorbell write, oldest first (R84). -/
  doorbells : List Nat
  fetched : List (PktSrc × BitVec 512)
  held : List HeldRecord
  -- jet ports
  jets : Table JetPort
  /-- Credit of the streams that no run has bound yet, by peer and tag (R400). -/
  grants : Table Nat
  /-- The die bridges, by die and edge (R399). -/
  bridges : Table DieBridge
  -- faults, and messages on their way
  reports : List Report
  /-- SWAPTIMEOUT reports that have reached the policy core: the context and the region of each (R123). -/
  swapTimeouts : List (Nat × Nat)
  pageFaults : List PageFault
  hostRequests : List HostRequest
  nextRequest : Nat
  posted : List PeerStore
  flits : List FlitInFlight
  rings : List SpillRing
  tokens : List RmwToken
  spillAsks : List Nat
  lulls : List (LullTarget × BitVec 16)
  /-- Firmware accesses that wait for a clearing, oldest first (R119). -/
  heldOpm : List HeldAccess
  -- the device's own condition
  mode : DeviceMode
  linkUp : Bool
  pwrCap : Word
  power : Word
  temp : Word
  /-- The pipes run at most half their cycles (R405). -/
  throttled : Bool
  /-- The pipes take stall cycles for the power cap (R405). -/
  capped : Bool
  tripped : Bool
  /-- The digest of the firmware that runs (R401, R403). -/
  fwDigest : BitVec 256
  errHead : Word
  errLog : Table (BitVec 256)
  /-- Times of the errors of each unit (R378). -/
  unitFaults : Table (List Word)
  /-- Units whose self-test is scheduled (R378). -/
  testsDue : Table Bool
  /-- The policy core is out of retention (R79). -/
  awake : Bool
  /-- Cells that no placement uses any more (R378). -/
  badCells : Table Bool
  dump : Option Dump
  -- the model's own
  outbox : List Emission
  stamp : Nat
  cycle : Word
  tick : Nat
  /-- The tick at the last device reset: the cycle counts of the tiles begin there (R149). -/
  since : Nat
  /-- Steps that the agents offer and have not been given yet, the longest-waiting first (R342, log 1). -/
  turns : List Instr
  focus : Focus
  agenda : List Stimulus
  deriving DecidableEq, Repr

/-- A class of the share table at reset (R102). -/
def Share.reset : Share := { min := 0, weight := 1, ceil := 1024 }

/-- A function at reset (R395; log 4 for its allow list). -/
def Function.reset : Function :=
  { aqBase := 0, aqCtl := 0, acqBase := 0, htBase := 0, dbDrop := 0, linkLost := false, allocBase := 0, allocSize := 0,
    poolBase := 0, poolSize := 0, allow := [], ideUsed := false, ideUp := false, tdispUsed := false,
    tdispLocked := false, tdiBound := false, tokens := [] }

/-- A jet port at reset (R396). -/
def JetPort.reset : JetPort :=
  { enabled := false, tagRun := 0, srcId := 0, link := .down, fails := 0, peer := 0, sources := [], txq := [], seq := 0,
    unacked := [], rx := [], expect := 0, strikes := 0, asked := 0, arrived := [], lane := [], keyEpoch := 0 }

/-- A slice at reset: empty (R295). -/
def Slice.reset : Slice := { lines := [], misses := [], bypass := [], waiting := [], ways := 16, spareWays := 2 }

/-- A die bridge whose link has just come up. -/
def DieBridge.reset : DieBridge :=
  { txq := [], seq := 0, unacked := [], wire := [], expect := 0, released := [], strikes := 0 }

/-- A prefetcher that has seen nothing. -/
def Prefetcher.reset : Prefetcher := { seen := [], pattern := none }

/-- A generator that no run has started. -/
def Generator.idle : Generator :=
  { active := false, next := 0, eos := false, met := false, midBurst := false, page := none, hostPage := false,
    tokens := [], unsent := [], credit := 0, lull := .none }

/-- The device right after reset: booted, with no context (R390, R401; logs 1, 2, 4 and 6 for what they leave
open). -/
def State.reset : State :=
  { tiles := [], ctxs := [], gens := [], fenceDrop := [], images := [], seals := [],
    devMem := [], devKey := [], devPoison := [], hostMem := [], atsCache := [], keySlots := [], nextKey := 1,
    portCache := [], slices := [], transit := [], replies := [], prefetch := [], shares := [], served := [],
    functions := [], subQs := [], compQs := [], slots := [], pendingQs := [], doorbells := [], fetched := [], held := [],
    jets := [], grants := [], bridges := [], reports := [], swapTimeouts := [], pageFaults := [], hostRequests := [], nextRequest := 0, posted := [], flits := [],
    rings := [], tokens := [], spillAsks := [], lulls := [], heldOpm := [],
    mode := .ready, linkUp := true, pwrCap := 7500, power := 0, temp := 0, throttled := false, capped := false,
    tripped := false, fwDigest := Config.bootDigest, errHead := 0, errLog := [], unitFaults := [], testsDue := [], awake := false, badCells := [], dump := none,
    outbox := [], stamp := 0, cycle := 0, tick := 0, since := 0, turns := [], focus := { tile := 0, entry := 0 }, agenda := [] }

end Sys2Proof.Machine

namespace Sys2Proof.Config

open Sys2Proof

/-- The bytes of the image of a tile, of a region and of a generator in a context record, in plaintext, the latter two with
their numbers: R373 lists the items and gives no layout of all of them (15 R373, log 23). -/
opaque tileBytes : Machine.Tile → List (BitVec 8)
opaque regionBytes : Nat × Machine.Region → List (BitVec 8)
opaque genBytes : Nat × Machine.GenPos → List (BitVec 8)

/-- Where firmware keeps the record of a context, in the device memory that it reserves (15 R373, log 23). -/
opaque recordBase : Nat → Nat

end Sys2Proof.Config

namespace Sys2Proof.Machine

open Sys2Proof

/-- Why the device stops. -/
inductive Fault where
  /-- An input names a tile, port, queue or other unit that the device does not have. Raised by `step` for an
  instruction that is not well-formed. Safe: such an input has no meaning. -/
  | noSuchUnit
  deriving DecidableEq, Repr

/-- Why the model refuses. -/
inductive Refusal where
  /-- The instruction has no meaning in the model yet. Raised by `exec` alone. Safe. -/
  | notModelled (mnemonic : String)
  deriving DecidableEq, Repr

end Sys2Proof.Machine
end

