-- ==== Sys2Proof/Machine/Ops.lean ====
section
/-! DEFINITION. The operations every meaning is written with: reaching a tile, its place in its context, the C registers
and links, taking a trap and returning from it, and the end of a C instruction. -/

namespace Sys2Proof.Machine

open Sys2Proof

/-- The outcome of a step. -/
abbrev Out := Host.Outcome State Fault Refusal

/-- Why an operation does not run to its end. -/
inductive Stop where
  /-- A trap of the instruction or command, with its INFO (R365, R366). -/
  | trap (c : Cause) (info : BitVec 14)
  /-- A trap that leaves earlier parts of the work performed, in this state (R184, R200, R268). -/
  | trapIn (s : State) (c : Cause) (info : BitVec 14)
  /-- Nothing can be done yet, and nothing is changed. -/
  | stall
  /-- A page of the access at this address is not present (R171, R268). -/
  | page (va : Nat)
  /-- The instruction has begun and waits, in this state. -/
  | wait (s : State)
  /-- The command goes back to its queue, in this state, to go on after the restore (R372). -/
  | back (s : State)

/-- An operation that may stop. -/
abbrev Res (α : Type) := Except Stop α

/-- Stops with a trap whose INFO is zero. -/
def trap {α : Type} (c : Cause) : Res α := .error (.trap c 0)

/-- Goes on if the condition holds, and traps otherwise. -/
def check (ok : Bool) (c : Cause) : Res Unit := if ok then .ok () else trap c

/-! ### Tiles -/

/-- A tile, by module coordinate (03 R68). -/
def State.tile (s : State) (t : Nat) : Tile := tGet Tile.reset s.tiles t

/-- Puts a tile back. -/
def State.setTile (s : State) (t : Nat) (v : Tile) : State := { s with tiles := tSet Tile.reset s.tiles t v }

/-- The state in which a meaning runs for a tile and a queue entry. -/
def State.focused (s : State) (t entry : Nat) : State := { s with focus := { tile := t, entry := entry } }

/-- The state with an agenda of inputs (log 1). -/
def State.withAgenda (s : State) (l : List Stimulus) : State := { s with agenda := l }

/-- Changes a tile. -/
def State.onTile (s : State) (t : Nat) (f : Tile → Tile) : State := s.setTile t (f (s.tile t))

/-- Module row and column (R68). -/
def rowOf (t : Nat) : Nat := t / 64
def colOf (t : Nat) : Nat := t % 64

/-- The die of a tile: 4 columns of dies by 2 rows, 16 × 16 tiles each (R1). -/
def dieOf (t : Nat) : Nat := rowOf t / 16 * 4 + colOf t / 16

/-- The tile at a row and column of a die (R65). -/
def tileAtDie (die r c : Nat) : Nat := (die / 4 * 16 + r) * 64 + (die % 4 * 16 + c)

/-- The context of a tile (R110). -/
def State.ctxOf (s : State) (t : Nat) : Option Context :=
  match (s.tile t).owner with
  | none => none
  | some c => tFind s.ctxs c

/-- A relative coordinate below the rectangle's height and width (R111). -/
def Context.holds (c : Context) (rel : Nat) : Bool := rel / 64 < c.height && rel % 64 < c.width

/-- The tile that a relative coordinate names, if the context of `t` has it (R111). A tile of no context names
only itself. -/
def State.tileOfRel (s : State) (t : Nat) (rel : Nat) : Option Nat :=
  match s.ctxOf t with
  | none => if rel = (s.tile t).tileId.toNat then some t else none
  | some c => if rel < 2048 && c.holds rel then some ((c.row + rel / 64) * 64 + (c.col + rel % 64)) else none

/-- The tile of one's own context at a die position of one's own die (R65). -/
def State.tileAtPos (s : State) (t : Nat) (r c : Nat) : Option Nat :=
  let u := tileAtDie (dieOf t) r c
  if u = t then some u
  else if (s.tile t).owner.isSome && (s.tile u).owner = (s.tile t).owner then some u else none

/-! ### Groups (R112) -/

/-- A group as a rectangle of relative coordinates. -/
structure Group where
  row : Nat
  col : Nat
  height : Nat
  width : Nat
  deriving DecidableEq, Repr

/-- A group selector that R112 reserves. -/
def gselReserved (g : BitVec 6) : Bool := 6 ≤ g.toNat / 8 || g.toNat % 8 = 7

/-- The group of a selector that contains a relative coordinate. -/
def groupOf (g : BitVec 6) (rel : Nat) : Group :=
  let h := 2 ^ (g.toNat / 8)
  let w := 2 ^ (g.toNat % 8)
  { row := rel / 64 / h * h, col := rel % 64 / w * w, height := h, width := w }

/-- The group lies wholly inside the rectangle of the tile's context. A tile of no context has itself alone. -/
def State.groupFits (s : State) (t : Nat) (g : BitVec 6) : Bool :=
  match s.ctxOf t with
  | none => g == 0
  | some c =>
    let gr := groupOf g (s.tile t).tileId.toNat
    gr.row + gr.height ≤ c.height && gr.col + gr.width ≤ c.width

/-- A relative coordinate in a group. -/
def Group.has (gr : Group) (rel : Nat) : Bool :=
  gr.row ≤ rel / 64 && rel / 64 < gr.row + gr.height && gr.col ≤ rel % 64 && rel % 64 < gr.col + gr.width

/-- A tile of the group that the selector names for `t`. -/
def State.inGroup (s : State) (t : Nat) (g : BitVec 6) (u : Nat) : Bool :=
  u = t || ((s.tile t).owner.isSome && (s.tile u).owner = (s.tile t).owner &&
    (groupOf g (s.tile t).tileId.toNat).has (s.tile u).tileId.toNat)

/-- The tiles of a group, by module coordinate. -/
def State.groupTiles (s : State) (t : Nat) (g : BitVec 6) : List Nat :=
  let gr := groupOf g (s.tile t).tileId.toNat
  (List.range (gr.height * gr.width)).filterMap fun i =>
    s.tileOfRel t ((gr.row + i / gr.width) * 64 + (gr.col + i % gr.width))

/-! ### Counters -/

/-- The counter of an engine (R128). -/
def Tile.counter (tl : Tile) : Engine → Counter
  | .C => tl.cntC
  | .L => tl.cntL
  | .X => tl.cntX
  | .S => tl.cntS

/-- Sets the counter of an engine. -/
def Tile.setCounter (tl : Tile) (e : Engine) (c : Counter) : Tile :=
  match e with
  | .C => { tl with cntC := c }
  | .L => { tl with cntL := c }
  | .X => { tl with cntX := c }
  | .S => { tl with cntS := c }

/-- All four counters are halted. -/
def Tile.allHalted (tl : Tile) : Bool :=
  tl.cntC.st == .halted && tl.cntL.st == .halted && tl.cntX.st == .halted && tl.cntS.st == .halted

/-- The queue of an engine (R138); C's window holds no entry that the model needs. -/
def Tile.queue (tl : Tile) : Engine → List QEntry
  | .C => []
  | .L => tl.qL
  | .X => tl.qX
  | .S => tl.qS

/-- Sets the queue of an engine. -/
def Tile.setQueue (tl : Tile) (e : Engine) (q : List QEntry) : Tile :=
  match e with
  | .C => tl
  | .L => { tl with qL := q }
  | .X => { tl with qX := q }
  | .S => { tl with qS := q }

/-- The outcomes that an engine's counter has consumed (R132). C is never behind. -/
def Tile.consumed (tl : Tile) : Engine → Nat
  | .C => tl.freed + tl.outcomes.length
  | .L => tl.consL
  | .X => tl.consX
  | .S => tl.consS

/-- The outcomes appended so far. -/
def Tile.appended (tl : Tile) : Nat := tl.freed + tl.outcomes.length

/-- OUTSTANDING of R133. -/
def Tile.outstanding (tl : Tile) : Nat := tl.appended - min tl.consL (min tl.consX tl.consS)

/-- Drops the outcomes that all three counters have consumed (R132). -/
def Tile.freeOutcomes (tl : Tile) : Tile :=
  let n := min tl.consL (min tl.consX tl.consS) - tl.freed
  { tl with freed := tl.freed + min n tl.outcomes.length, outcomes := tl.outcomes.drop n }

/-- C's place in the text: outcomes appended, and a word index. In a handler it is where C was interrupted. -/
def Tile.cPlace (tl : Tile) : Nat × Nat :=
  (tl.appended, if tl.inHandler then tl.resumePc else tl.cntC.pc)

/-- One place stands before another in the text as it is walked: fewer outcomes, or the same and a lower index. -/
def placeBefore (a b : Nat × Nat) : Bool := a.1 < b.1 || (a.1 = b.1 && a.2 < b.2)

/-- An engine's counter has reached C's place. -/
def Tile.reachedC (tl : Tile) (e : Engine) : Bool :=
  !placeBefore (tl.consumed e, (tl.counter e).pc) tl.cPlace

/-- No command that an engine issued before C's place is left in its queue. -/
def Tile.retiredToC (tl : Tile) (e : Engine) : Bool :=
  tl.reachedC e && (tl.queue e).all (fun q => q.pushed || !placeBefore (q.epoch, q.index) tl.cPlace)

/-- A command in flight: started and not completed (R138). -/
def QEntry.inFlight (e : QEntry) : Bool := e.phase == .running || e.phase == .performed

/-! ### Traps (15) -/

/-- The code of a cause (R365). -/
def Cause.code : Cause → Nat
  | .ILLOP => 0x01 | .RSVD => 0x02 | .ALIGN => 0x03 | .ASPACE => 0x04 | .SPOWN => 0x05 | .PERM => 0x06
  | .RANGE => 0x07 | .MEMERR => 0x08 | .NONINV => 0x09 | .PATLIM => 0x0A | .TOKERR => 0x0B | .LAPSED => 0x0C
  | .BRKPT => 0x0D | .WATCH => 0x0E | .STEP => 0x0F | .SYSCALL => 0x10 | .CFGERR => 0x11 | .PRIVSTK => 0x12
  | .LINKPH => 0x13

/-- The code of an engine (R152, R366). -/
def engCode : Engine → Nat
  | .C => 0
  | .L => 1
  | .X => 2
  | .S => 3

/-- The debug causes, which EXT sends to the policy core (R368). -/
def Cause.isDebug : Cause → Bool
  | .BRKPT | .WATCH | .STEP => true
  | _ => false

/-- Halts a counter where it stands. -/
def Counter.halt (c : Counter) : Counter := { c with st := .halted }

/-! ### Update batches (R357) -/

/-- The entry of an empty place in the publisher table. -/
def PubEntry.zero : PubEntry := { valid := false, subTile := 0, subIdx := 0, lines := 0, poff := 0 }

/-- The entry of an empty place in the subscriber table. -/
def SubEntry.zero : SubEntry :=
  { state := 0, pub := 0, pubIdx := 0, lines := 0, soff := 0, poff := 0, spillK := 0, spillBase := 0, spillCnt := 0 }

/-- A publisher entry's open batch leaves as a whole (R357). -/
def closeBatch (s : State) (u k : Nat) : State :=
  let tl := s.tile u
  let p := tGet .zero tl.pubs k
  match s.tileOfRel u p.subTile.toNat with
  | none => s.onTile u fun tl => { tl with batches := tErase tl.batches k }
  | some v =>
    let fs := (tGet [] tl.batches k).map fun f =>
      { pubTile := u, pubIdx := k, subTile := v, subIdx := p.subIdx.toNat, flit := f : FlitInFlight }
    let s1 := s.onTile u fun tl => { tl with batches := tErase tl.batches k }
    { s1 with flits := s1.flits ++ fs }

/-- Every open batch of a tile leaves (R357). -/
def closeBatches (s : State) (u : Nat) : State :=
  ((s.tile u).batches.map (·.1)).foldl (fun s k => closeBatch s u k) s

/-! ### Words with an uncorrectable error (R380) -/

/-- A run of an OPM window holds a word with an uncorrectable error; words are of 8 bytes (R380). -/
def Tile.badAt (tl : Tile) (off n : Nat) : Bool :=
  !tl.badRegs.isEmpty && tl.badRegs.any fun (k, b) => b && off < 8 * k + 8 && 8 * k < off + n

/-- The OPM offsets of the entries of the monitor, publisher and subscriber tables and of the stage ring, and the bytes of
each (R69). -/
def opmMon (k : Nat) : Nat := 0x220200 + 32 * k
def monBytes : Nat := 32
def opmPub (k : Nat) : Nat := 0x220800 + 64 * k
def pubBytes : Nat := 64
def opmSub (k : Nat) : Nat := 0x221000 + 64 * k
def subBytes : Nat := 64
def opmSlot (k : Nat) : Nat := 0x221800 + 32 * k
def slotBytes : Nat := 32

/-- The words that a write covers whole hold no error any more (R380). -/
def Tile.clearBad (tl : Tile) (off n : Nat) : Tile :=
  if tl.badRegs.isEmpty then tl
  else { tl with badRegs := tl.badRegs.filter fun (k, _) => !(off ≤ 8 * k && 8 * k + 8 ≤ off + n) }

/-- The OPM offset of the C registers (R69). -/
def opmX (r : Nat) : Nat := 0x21C000 + 8 * r

/-- The OPM offset of a CSR (R69). -/
def opmCsr (n : Nat) : Nat := 0x21E000 + 8 * n

/-- A word of the publisher table, or of the subscriber table, holds an uncorrectable error: a write of the scratchpad that is
compared with the one, or an access of the tile's own engine compared with the other, reads every entry (R354, R363, R380). -/
def Tile.pubsBad (tl : Tile) : Bool := tl.badAt (opmPub 0) (32 * pubBytes)
def Tile.subsBad (tl : Tile) : Bool := tl.badAt (opmSub 0) (32 * subBytes)

/-! ### Taking a trap (15) -/

/-- Step 1 of escalation: the four counters halt, so that the tile's batches leave (R357), and the trap is reported to
the Front (R370). -/
def escalate (s : State) (t : Nat) (e : Engine) (c : Cause) (index : Nat) : State :=
  let s1 := (closeBatches s t).onTile t fun tl =>
    { tl with cntC := tl.cntC.halt, cntL := tl.cntL.halt, cntX := tl.cntX.halt, cntS := tl.cntS.halt, cwait := none
              relSince := none, inHandler := false, pending := [], escalated := true }
  { s1 with reports := s1.reports ++
      [{ tile := t, rel := (s.tile t).tileId, ctx := (s.tile t).owner, gen := ((s.ctxOf t).map (·.gen)).getD 0,
         cause := c, eng := e, index := index }] }

/-- The waits of C that a trap of another engine leaves as they are: the instruction completes first (R368). The
others stand at words of R343 and are abandoned. -/
def CWait.mustFinish : CWait → Bool
  | .tx _ | .page _ _ | .spill _ _ | .flush _ | .resync _ _ => true
  | .barrier _ | .asleep | .slot _ _ | .renq _ _ => false

/-- Withdraws what an abandoned wait left at other tiles (R343): a slot request, a `renq` push. -/
def withdraw (s : State) (t : Nat) : State :=
  match (s.tile t).cwait with
  | some (.slot u _) => s.onTile u fun tl => { tl with slotWaits := tl.slotWaits.filter (fun r => r.tile ≠ t) }
  | some (.renq u _) => s.onTile u fun tl =>
      { tl with pushL := tl.pushL.filter (fun p => p.tile ≠ t), pushX := tl.pushX.filter (fun p => p.tile ≠ t),
                pushS := tl.pushS.filter (fun p => p.tile ≠ t) }
  | _ => s

/-- Adds a trap to those that wait, after those of its engine that wait already: of one engine, several commands in
flight and its counter can each have a trap that waits (R130, R367, R368; log 13 for R373's one entry per engine). -/
def Tile.addPending (tl : Tile) (p : PendingTrap) : Tile := { tl with pending := tl.pending ++ [p] }

/-- TRAPCAUSE as delivery writes it (R366, R368). -/
def trapCauseWord (cpc : Nat) (e : Engine) (info : BitVec 14) (pend dfr : Bool) (c : Cause) : Word :=
  BitVec.ofNat 64 (cpc * 2 ^ 50 + engCode e * 2 ^ 30 + info.toNat * 2 ^ 16 + (if pend then 2 ^ 9 else 0)
    + (if dfr then 2 ^ 8 else 0) + c.code)

/-- The index of the first C word at or after `pc`: C skips the words of the other engines (R130); a word with an
uncorrectable error stops the search. -/
def Tile.nextC (tl : Tile) : Nat → Nat → Nat
  | 0, pc => pc
  | fuel + 1, pc =>
    if tl.nwords ≤ pc || tGet false tl.istoreBad pc || engOf (tGet 0 tl.istore pc) = .C then pc
    else tl.nextC fuel (pc + 1)

/-- TAKING A TRAP, from the point where C can stop: TRAPCAUSE and TRAPPC are written, each whole, so that an error in it ends
(R380); C enters handler state and continues at TRAPVEC.VEC (R368). `entry` is the queue entry of the command that the trap
stopped: an ILLOP of L, X or S that stopped none is that of a counter at NWORDS (R130). -/
def enterHandler (s : State) (t : Nat) (e : Engine) (c : Cause) (info : BitVec 14) (index : Nat) (dfr : Bool)
    (entry : Option Nat) : State :=
  let s1 := withdraw s t
  s1.onTile t fun tl =>
    { tl.clearBad (opmCsr 0x009) 16 with
      trapCause := trapCauseWord (if e = .C then 0 else tl.nextC tl.nwords tl.cntC.pc) e info (!tl.pending.isEmpty) dfr c
      trapPc := BitVec.ofNat 15 index
      inHandler := true
      resumePc := tl.cntC.pc
      trapNoCmd := e ≠ .C && entry.isNone
      trapAtEnd := e ≠ .C && entry.isNone && c = .ILLOP
      trapEntry := entry
      repOn := false
      cwait := none
      relSince := none
      drained := false
      cntC := { pc := tl.trapVec.toNat % 2 ^ 14, st := .running, ended := false } }

/-- The trap of a command in a halted tile that has no `halt` to return to: of any command in a tile whose C stands at none,
and of a pushed one where C has executed none since the restore (R339). -/
def Tile.noHalt (tl : Tile) (e : Engine) (index : Nat) : Bool :=
  e ≠ .C && tl.allHalted && (tl.haltedAt.isNone || (tl.restored && decide (0x4000 ≤ index)))

/-- DELIVERING A TRAP of cause `c` in engine `e` at word index `index`, of the command of a queue entry or of no
command (R368). -/
def deliverTrap (s : State) (t : Nat) (e : Engine) (c : Cause) (info : BitVec 14) (index : Nat)
    (entry : Option Nat := none) : State :=
  let tl := s.tile t
  let p : PendingTrap := { eng := e, cause := c, info := info, index := index, saved := false, entry := entry }
  if e = .C && tl.inHandler then escalate s t e .PRIVSTK index
  else if tl.trapVec.toNat < 2 ^ 14 then escalate s t e c index
  else if c.isDebug && tl.dbgCtl.getLsbD 2 then escalate s t e c index
  else if tl.noHalt e index then escalate s t e c index
  else if tl.lull ≠ .none then s.onTile t (·.addPending p)
  else if tl.inHandler || (e ≠ .C && (tl.cwait.map CWait.mustFinish).getD false) then s.onTile t (·.addPending p)
  else enterHandler s t e c info index false entry

/-- The pending trap that is delivered first: C's, then L's, X's and S's (R368). -/
def nextPending (ps : List PendingTrap) : Option PendingTrap :=
  match ps.find? (·.eng == .C), ps.find? (·.eng == .L), ps.find? (·.eng == .X), ps.find? (·.eng == .S) with
  | some p, _, _, _ => some p
  | none, some p, _, _ => some p
  | none, none, some p, _ => some p
  | none, none, none, r => r

/-- Delivers the next pending trap, once C is out of its handler and at an instruction boundary (R368, R374). -/
def deliverPending (s : State) (t : Nat) : State :=
  let tl := s.tile t
  if tl.inHandler || tl.lull ≠ .none || tl.escalated then s
  else match nextPending tl.pending with
    | none => s
    | some p =>
      let s1 := s.onTile t fun tl => { tl with pending := tl.pending.erase p }
      if (s1.tile t).trapVec.toNat < 2 ^ 14 || (p.cause.isDebug && (s1.tile t).dbgCtl.getLsbD 2)
          || (s1.tile t).noHalt p.eng p.index then
        escalate s1 t p.eng p.cause p.index
      else enterHandler s1 t p.eng p.cause p.info p.index p.saved p.entry

/-- Copies of every descriptor that holds no error (R74, R380). -/
def Tile.captureAll (tl : Tile) : Table Tlr :=
  ((List.range 16).filter fun k => !tl.badAt (0x21C800 + 96 * k) 96).map fun k => (k, tGet 0 tl.g k)

/-- A replay that runs again from its beginning: it starts anew, with its wait tokens popped (R369). -/
def NestState.again (n : NestState) : NestState := { n with started := false }

/-- What `eret` does to an entry of the engine that TRAPCAUSE names: it acts on the command that the delivered trap
stopped, and on one that an earlier `eret` kept stopped; a command whose own trap still waits is left to it (R369). A
retry captures the descriptors as they stand; a nest keeps its copies, and its trapped replay runs again from its
beginning. For the trap of a counter at NWORDS it does nothing (R130). -/
def applyRes (tl : Tile) (e : QEntry) (res : Nat) : Option QEntry :=
  if tl.trapAtEnd || e.phase ≠ .trapped || !(e.stopped || tl.trapEntry = some e.id) then some e
  else if e.pushed || res = 1 then none
  else if res = 0 then
    some { e with phase := .queued, stopped := false, prog := .start, nest := e.nest.map NestState.again
                  caps := if isNest e.word && e.nest.isSome then e.caps else tl.captureAll }
  else some { e with stopped := true }

/-- RETURNING FROM A TRAP: RES is applied to the engine that ENG names, C leaves handler state and continues at
TRAPPC[13:0], and the next pending trap is delivered (R187, R369). -/
def returnFromTrap (s : State) (t : Nat) : State :=
  let tl := s.tile t
  let e := match tl.trapCause.toNat / 2 ^ 30 % 4 with
    | 0 => Engine.C | 1 => .L | 2 => .X | _ => .S
  let res := tl.trapCause.toNat / 2 ^ 10 % 4
  let tl1 := tl.setQueue e ((tl.queue e).filterMap (applyRes tl · res))
  let tl2 := { tl1 with inHandler := false, trapNoCmd := false, trapAtEnd := false, trapEntry := none,
                        cntC := { pc := tl.trapPc.toNat % 2 ^ 14, st := .running, ended := false } }
  deliverPending (s.setTile t tl2) t

/-! ### The end of a C instruction -/

/-- C completes an instruction and stands at the next one: single stepping (R377) and pending traps follow. -/
def retireTo (s : State) (t : Nat) (pc : Nat) : State :=
  let s1 := s.onTile t fun tl =>
    { tl with cwait := none, relSince := none, repOn := false, cntC := { tl.cntC with pc := pc, st := .running } }
  let tl := s1.tile t
  if tl.dbgCtl.getLsbD 0 && !tl.inHandler then deliverTrap s1 t .C .STEP 0 pc
  else deliverPending s1 t

/-- C's counter waits at its word. -/
def waitC (s : State) (t : Nat) : State :=
  s.onTile t fun tl => { tl with cntC := { tl.cntC with st := .waiting } }

/-- C waits for a page, and the port raises a fault record, once for each page (R171, R371). -/
def pageWait (s : State) (t va : Nat) : State :=
  match (s.tile t).cwait with
  | some (.page _ none) => waitC s t
  | _ =>
    let s1 := waitC (s.onTile t fun tl => { tl with cwait := some (.page va none) }) t
    { s1 with pageFaults := s1.pageFaults ++
                [{ ctx := (s.tile t).owner.getD 0, gen := ((s.ctxOf t).map (·.gen)).getD 0, va := va, who := .c t }] }

/-- The tile whose C, L, X or S the instruction being executed belongs to. -/
def State.here (s : State) : Nat := s.focus.tile

/-- RUNNING A C INSTRUCTION: its body is performed and C goes on to the next word; a trap is taken in the state
before it, since a trapping instruction changes nothing (R4, R164); a stall leaves C at the word. -/
def runC (s : State) (body : Nat → State → Res State) : Out :=
  let t := s.here
  let pc := (s.tile t).cntC.pc
  match body t s with
  | .ok s' => .next (retireTo s' t (pc + 1))
  | .error (.trap c info) => .next (deliverTrap s t .C c info pc)
  | .error (.trapIn s' c info) => .next (deliverTrap s' t .C c info pc)
  | .error .stall => .next (waitC s t)
  | .error (.page va) => .next (pageWait s t va)
  | .error (.wait s') | .error (.back s') => .next (waitC s' t)

/-! ### C registers and links (R146, R162, R163, R328, R330) -/

/-- A link operand: encodings 28-31. -/
def isLink (r : BitVec 5) : Bool := 28 ≤ r.toNat

/-- The direction of a link operand: 0 north, 1 east, 2 south, 3 west (R146, R329). -/
def linkDir (r : BitVec 5) : Nat := r.toNat - 28

/-- The opposite direction. -/
def oppositeDir (d : Nat) : Nat := (d + 2) % 4

/-- The neighbouring tile in a direction, if the module has one. -/
def neighbour (t : Nat) (d : Nat) : Option Nat :=
  match d with
  | 0 => if 64 ≤ t then some (t - 64) else none
  | 1 => if colOf t < 63 then some (t + 1) else none
  | 2 => if rowOf t < 31 then some (t + 64) else none
  | _ => if 0 < colOf t then some (t - 1) else none

/-- The source of an output: 0 C, 1-4 the inputs north, east, south, west (R330). -/
def Tile.source (tl : Tile) (d : Nat) : Nat := (tGet 0 tl.forward d).toNat

/-- An input that `mux` forwards (R330). -/
def Tile.forwarded (tl : Tile) (d : Nat) : Bool := (List.range 4).any fun o => tl.source o = d + 1

/-- The neighbour in a direction lies in the phase's group (R328). -/
def State.phaseNeighbour (s : State) (t : Nat) (g : BitVec 6) (d : Nat) : Option Nat :=
  match neighbour t d with
  | none => none
  | some u => if s.inGroup t g u then some u else none

/-- The checks of a link read: a phase, a neighbour of its group, an input that is not forwarded. -/
def checkLinkRead (s : State) (t : Nat) (d : Nat) : Res Unit :=
  let tl := s.tile t
  match tl.phase with
  | none => trap .LINKPH
  | some g => do
    check (s.phaseNeighbour t g d).isSome .PERM
    check (!tl.forwarded d) .LINKPH

/-- The checks of a link write: a phase, a neighbour of its group, an output whose source is C. -/
def checkLinkWrite (s : State) (t : Nat) (d : Nat) : Res Unit :=
  let tl := s.tile t
  match tl.phase with
  | none => trap .LINKPH
  | some g => do
    check (s.phaseNeighbour t g d).isSome .PERM
    check (tl.source d = 0) .LINKPH

/-- The words in flight to, and waiting in, the neighbour's input that an output feeds. -/
def State.linkFill (s : State) (t : Nat) (d : Nat) : Nat :=
  match neighbour t d with
  | none => 8
  | some u => (tGet [] (s.tile t).linkOut d).length + (tGet [] (s.tile u).linkIn (oppositeDir d)).length

/-- Sends a word; an input that would hold more than 8 makes the sender wait (R328). -/
def sendLink (s : State) (t : Nat) (d : Nat) (v : Word) : Res State :=
  if s.linkFill t d < 8 then
    .ok (s.onTile t fun tl => { tl with linkOut := tSet [] tl.linkOut d (tGet [] tl.linkOut d ++ [v]) })
  else .error .stall

/-- Pops a word from an input, or waits until one is present (R163). -/
def popLink (s : State) (t : Nat) (d : Nat) : Res (Word × State) :=
  match tGet [] (s.tile t).linkIn d with
  | [] => .error .stall
  | v :: rest => .ok (v, s.onTile t fun tl => { tl with linkIn := tSet [] tl.linkIn d rest })

/-- A C register other than a link: `x0` reads as zero (R146). -/
def Tile.xreg (tl : Tile) (r : Nat) : Word := if r = 0 then 0 else tGet 0 tl.x r

/-- Sets a C register other than a link; a write of `x0` is discarded. -/
def Tile.setX (tl : Tile) (r : Nat) (v : Word) : Tile :=
  if r = 0 then tl else { tl.clearBad (opmX r) 8 with x := tSet 0 tl.x r v }

/-- Reads a register field: `x0`-`x27`, or the next word of a link (R146, R163). A word with an uncorrectable error
raises MEMERR (R380). -/
def readReg (t : Nat) (r : BitVec 5) (s : State) : Res (Word × State) :=
  if isLink r then popLink s t (linkDir r)
  else if (s.tile t).badAt (opmX r.toNat) 8 then trap .MEMERR
  else .ok ((s.tile t).xreg r.toNat, s)

/-- Writes a register field: `x0` discards, a link operand sends (R146, R162). -/
def writeReg (t : Nat) (r : BitVec 5) (v : Word) (s : State) : Res State :=
  if isLink r then sendLink s t (linkDir r) v else .ok (s.onTile t (·.setX r.toNat v))

/-- The checks of a list, in order; the first failure is raised (R164). -/
def checkAll : List (Res Unit) → Res Unit
  | [] => .ok ()
  | c :: rest => match c with
    | .ok () => checkAll rest
    | .error e => .error e

/-- The link check of a register field that an instruction reads. -/
def checkRead (s : State) (t : Nat) (r : BitVec 5) : Res Unit :=
  if isLink r then checkLinkRead s t (linkDir r) else .ok ()

/-- The link check of a register field that an instruction writes. -/
def checkWrite (s : State) (t : Nat) (r : BitVec 5) : Res Unit :=
  if isLink r then checkLinkWrite s t (linkDir r) else .ok ()

/-- The link checks of the register fields that an instruction reads and writes, before any word is popped. -/
def checkLinks (t : Nat) (reads writes : List (BitVec 5)) (s : State) : Res Unit :=
  checkAll (reads.map (checkRead s t) ++ writes.map (checkWrite s t))

end Sys2Proof.Machine
end

