-- ==== Sys2Proof/Machine/Addr.lean ====
section
/-! DEFINITION. Generic addresses, the checks that precede an access, and the home that an address names (03 R61-R71,
07 R169). -/

namespace Sys2Proof.Machine

open Sys2Proof

/-- The space field [63:60] (R61). -/
def spaceOf (a : Word) : Nat := a.toNat / 2 ^ 60

/-- The tile field [59:49] of spaces 0x8 and 0xB (R61). -/
def ownerOf (a : Word) : Nat := a.toNat / 2 ^ 49 % 2 ^ 11

/-- The offset [20:0] of a scratchpad space (R61). -/
def offsetOf (a : Word) : Nat := a.toNat % 2 ^ 21

/-- The window offset [23:0] of space 0xB (R61). -/
def windowOf (a : Word) : Nat := a.toNat % 2 ^ 24

/-- Die row [55:52] and die column [51:48] of space 0x9 (R61). -/
def dieRowOf (a : Word) : Nat := a.toNat / 2 ^ 52 % 16
def dieColOf (a : Word) : Nat := a.toNat / 2 ^ 48 % 16

/-- The space is defined and every field it shows as zero is zero (R61). -/
def canonical (a : Word) : Bool :=
  match spaceOf a with
  | 0 => true
  | 8 => a.toNat / 2 ^ 21 % 2 ^ 28 = 0
  | 9 => a.toNat / 2 ^ 56 % 2 ^ 4 = 0 && a.toNat / 2 ^ 21 % 2 ^ 27 = 0
  | 10 => a.toNat / 2 ^ 21 % 2 ^ 39 = 0
  | 11 => a.toNat / 2 ^ 24 % 2 ^ 25 = 0
  | _ => false

/-- A local-scratchpad address (R61). -/
def localAddr (rel off : Nat) : Word := BitVec.ofNat 64 (8 * 2 ^ 60 + rel % 2 ^ 11 * 2 ^ 49 + off % 2 ^ 21)

/-- A cluster-shared address of a die row and column (R61). -/
def sharedAddr (r c off : Nat) : Word :=
  BitVec.ofNat 64 (9 * 2 ^ 60 + r % 16 * 2 ^ 52 + c % 16 * 2 ^ 48 + off % 2 ^ 21)

/-- An OPM address (R61). -/
def opmAddr (rel woff : Nat) : Word := BitVec.ofNat 64 (11 * 2 ^ 60 + rel % 2 ^ 11 * 2 ^ 49 + woff % 2 ^ 24)

/-- Where the private band starts (R64). -/
def bandStart : Nat := 0x1F0000

/-- The scratchpad size (R1). -/
def scratchSize : Nat := 0x200000

/-- The scratchpad offset of an engine's private area (R66). -/
def privateBase : Engine → Nat
  | .C => 0x1F0000
  | .L => 0x1F4000
  | .X => 0x1F8000
  | .S => 0x1FC000

/-- The home of an access: bytes of a tile's scratchpad, of global virtual space, or of a tile's OPM (R298). -/
inductive Home where
  | scratch (tile : Nat) (off : Nat)
  | global (va : Nat)
  | opm (tile : Nat) (woff : Nat)
  deriving DecidableEq, Repr

/-- A run of bytes that reaches into the private band (R64); a run of none touches nothing. -/
def touchesBand (off n : Nat) : Bool := n ≠ 0 && bandStart < off + n

/-- The checks of a scalar access of `n` bytes with alignment `al`, in order, and its home (R169). -/
def scalarHome (s : State) (t : Nat) (e : Engine) (ea : Word) (n al : Nat) : Except Cause Home :=
  let sp := spaceOf ea
  if !(sp = 0 || sp = 8 || sp = 9 || sp = 10) || !canonical ea then .error .ASPACE
  else if sp = 8 && ownerOf ea ≠ (s.tile t).tileId.toNat then .error .SPOWN
  else if ea.toNat % al ≠ 0 then .error .ALIGN
  else if sp = 0 then
    if 2 ^ 60 < ea.toNat + n then .error .RANGE else .ok (.global ea.toNat)
  else if sp = 10 then
    if 0x4000 < offsetOf ea + n then .error .RANGE else .ok (.scratch t (privateBase e + offsetOf ea))
  else if scratchSize < offsetOf ea + n then .error .RANGE
  else if touchesBand (offsetOf ea) n then .error .PERM
  else if sp = 8 then .ok (.scratch t (offsetOf ea))
  else match s.tileAtPos t (dieRowOf ea) (dieColOf ea) with
    | none => .error .PERM
    | some u => .ok (.scratch u (offsetOf ea))

/-- `spt`'s CUSE: a one-byte access of C would pass the ASPACE, SPOWN, RANGE and PERM checks (R173). -/
def cUsable (s : State) (t : Nat) (a : Word) : Bool :=
  match scalarHome s t .C a 1 1 with
  | .ok _ => true
  | .error _ => false

/-! ### Watches and lapsed subscriptions -/

/-- A watch register hits an access of `n` bytes at `a` (R376). -/
def watchHits (w a : Word) (n : Nat) (rd wr : Bool) : Bool :=
  let lines := 2 ^ (w.toNat % 16)
  let lo := w.toNat / 64 / lines * lines * 64
  ((rd && w.getLsbD 5) || (wr && w.getLsbD 4)) && lo < a.toNat + n && a.toNat < lo + 64 * lines

/-- The number of the watch register that an access hits, if the tile is not in its handler (R376, R377). -/
def watchOf (tl : Tile) (a : Word) (n : Nat) (rd wr : Bool) : Option Nat :=
  if tl.inHandler || n = 0 then none
  else if watchHits (tGet 0 tl.watch 0) a n rd wr then some 0
  else if watchHits (tGet 0 tl.watch 1) a n rd wr then some 1
  else none

/-- Raises WATCH on a hit, or, under SKIP, ignores it and clears SKIP (R376, R377). -/
def checkWatch (s : State) (t : Nat) (a : Word) (n : Nat) (rd wr : Bool) : Res State :=
  match watchOf (s.tile t) a n rd wr with
  | none => .ok s
  | some k =>
    if (s.tile t).dbgCtl.getLsbD 1 then .ok (s.onTile t fun tl => { tl with dbgCtl := tl.dbgCtl &&& 5#3 })
    else .error (.trap .WATCH (BitVec.ofNat 14 k))

/-- How far a `resync` of a subscription has come: the lines below are copied (R348). -/
def Tile.resyncAt (tl : Tile) (i : Nat) : Option Nat :=
  match tl.cwait with
  | some (.resync j k) => if j = i then some k else none
  | _ => none

/-- A subscription whose region the tile's own engines may not access: LAPSED, and no `resync` of it running (R348,
R363). -/
def Tile.barred (tl : Tile) (i : Nat) (e : SubEntry) : Bool := e.state == 2 && (tl.resyncAt i).isNone

/-- The lowest LAPSED subscriber entry whose region meets a run of the tile's own scratchpad (R363). -/
def lapsedAt (tl : Tile) (off n : Nat) : Option Nat :=
  (tl.subs.find? fun (i, e) =>
    n ≠ 0 && tl.barred i e && e.soff.toNat < off + n && off < e.soff.toNat + 64 * e.lines.toNat).map (·.1)

/-- Raises LAPSED for an access of the tile's own engine to its own lapsed region (R363), which reads the subscriber table
(R380). -/
def checkLapsed (s : State) (t : Nat) (h : Home) (n : Nat) : Res Unit :=
  match h with
  | .scratch u off =>
    if u = t then
      if n ≠ 0 && (s.tile t).subsBad then trap .MEMERR
      else match lapsedAt (s.tile t) off n with
      | none => .ok ()
      | some k => .error (.trap .LAPSED (BitVec.ofNat 14 k))
    else .ok ()
  | _ => .ok ()

/-- Every check of a C access before translation: R169, then the watches, then the lapsed regions. -/
def cAccess (s : State) (t : Nat) (ea : Word) (n al : Nat) (rd wr : Bool) : Res (Home × State) :=
  match scalarHome s t .C ea n al with
  | .error c => trap c
  | .ok h => do
    let s1 ← checkWatch s t ea n rd wr
    checkLapsed s t h n
    .ok (h, s1)

end Sys2Proof.Machine
end

