-- ==== Sys2Proof/Machine/Device.lean ====
section
/-! DEFINITION. Memory at its homes: what a write of a scratchpad does beside the bytes (10 R258, 12 R311, 13 R334, 14
R354-R357), and device memory as range entries reach it (11 R286-R291). -/

namespace Sys2Proof.Machine

open Sys2Proof

/-! ### Updates of published regions (R354, R357) -/

/-- Bytes of one update of a line merged over those a flit already carries. -/
def mergeBytes (old new : Table Byte) : Table Byte := new.foldl (fun m (k, b) => tInsert m k b) old

/-- An update of one line of a publisher entry joins its batch (R357). -/
def addUpdate (s : State) (u k line : Nat) (bytes : Table Byte) (cls : BitVec 4) : State :=
  let b := tGet [] (s.tile u).batches k
  let fresh : Flit := { line := line, bytes := bytes, cls := cls, stamp := s.stamp }
  let s1 := { s with stamp := s.stamp + 1 }
  match b.getLast? with
  | none =>
    let s2 := s1.onTile u fun tl => { tl with batches := tSet [] tl.batches k [fresh] }
    if (s.tile u).subBatch = 0 then closeBatch s2 u k else s2
  | some f =>
    if f.line = line && f.cls = cls then
      s1.onTile u fun tl =>
        { tl with batches := tSet [] tl.batches k (b.dropLast ++ [{ f with bytes := mergeBytes f.bytes bytes }]) }
    else if b.length < 8 then
      s1.onTile u fun tl => { tl with batches := tSet [] tl.batches k (b ++ [fresh]) }
    else
      let s2 := (closeBatch s1 u k).onTile u fun tl => { tl with batches := tSet [] tl.batches k [fresh] }
      if (s.tile u).subBatch = 0 then closeBatch s2 u k else s2

/-- The bytes of a write that fall in one line of a published region, by their place in the line. -/
def lineBytes (off : Nat) (bytes : List Byte) (lo : Nat) : Table Byte :=
  (List.range 64).filterMap fun i =>
    if off ≤ lo + i then (bytes[lo + i - off]?).map fun b => (i, b) else none

/-- The updates that a write forms for one publisher entry, line by line (R354). -/
def forwardEntry (s : State) (u k : Nat) (off : Nat) (bytes : List Byte) (cls : BitVec 4) : State :=
  let p := tGet .zero (s.tile u).pubs k
  if !p.valid then s
  else
    let first := off / 64
    let last := (off + bytes.length - 1) / 64
    (List.range (last + 1 - first)).foldl (fun s i =>
      let ln := first + i
      let pl := p.poff.toNat / 64
      if pl ≤ ln && ln < pl + p.lines.toNat then
        addUpdate s u k (ln - pl) (lineBytes off bytes (64 * ln)) cls
      else s) s

/-- A write is forwarded through every publisher entry that it covers (R354). -/
def forward (s : State) (u off : Nat) (bytes : List Byte) (cls : BitVec 4) : State :=
  ((s.tile u).pubs.map (·.1)).foldl (fun s k => forwardEntry s u k off bytes cls) s

/-! ### Monitors (R333, R334) -/

/-- The monitor entry of a place the table does not list. -/
def MonEntry.zero : MonEntry := { line := 0, wide := false, armed := false }

/-- Fires the armed entries of a tile's table that a test selects: their FIRED bits are set and they are freed. -/
def Tile.fire (tl : Tile) (hit : MonEntry → Bool) : Tile :=
  tl.mon.foldl (fun tl (k, e) =>
    if e.armed && hit e then
      { tl with mon := tSet .zero tl.mon k { e with armed := false }, fired := tl.fired ||| (1#16 <<< k) }
    else tl) tl

/-- Fires entries in every tile that has an armed entry selected by a test of the tile and the entry. -/
def fireAll (s : State) (hit : Nat → MonEntry → Bool) : State :=
  (s.tiles.filter fun (_, tl) => !tl.mon.isEmpty).foldl (fun s (m, _) => s.onTile m (·.fire (hit m))) s

/-- A write of lines `first` to `last` of tile `u`'s scratchpad fires the entries that watch them (R334, R427). -/
def fireScratch (s : State) (u first last : Nat) : State :=
  let rel := (s.tile u).tileId.toNat
  fireAll s fun m e =>
    !e.wide && (m = u || ((s.tile u).owner.isSome && (s.tile m).owner = (s.tile u).owner)) &&
      ownerOf e.line = rel && first ≤ offsetOf e.line / 64 && offsetOf e.line / 64 ≤ last

/-! ### Scratchpad writes -/

/-- Clears the zero flags of the blocks of a write (R258). -/
def clearZero (m : Table Bool) (off n : Nat) : Table Bool :=
  (List.range ((off + n - 1) / 512 + 1 - off / 512)).foldl (fun m i => tErase m (off / 512 + i)) m

/-- A write that covers all of a line clears its poison; a partial one leaves it (R311). -/
def clearPoison (m : Table Bool) (off n size : Nat) : Table Bool :=
  (List.range (n / size + 1)).foldl (fun m i =>
    let ln := (off + size - 1) / size + i
    if size * ln + size ≤ off + n then tErase m ln else m) m

/-- What the bytes of an X write held before it, until a release at D or Y (R312); any other write ends that. -/
def noteOld (old : Table Byte) (mem : Memory) (off : Nat) (byX : Bool) : Nat → Table Byte
  | 0 => old
  | n + 1 =>
    let rest := noteOld old mem (off + 1) byX n
    if byX then (if (tFind rest off).isSome then rest else tInsert rest off (mem.byte off)) else tErase rest off

/-- PERFORMING A SCRATCHPAD WRITE at tile `u`: the bytes, the zero flags, the poison, the monitors and the updates. -/
def scratchWrite (s : State) (u off : Nat) (bytes : List Byte) (cls : BitVec 4) (fwd byX : Bool) : State :=
  if bytes.isEmpty then s
  else
    let n := bytes.length
    let s1 := s.onTile u fun tl =>
      { tl with scratch := tl.scratch.writeBytes off bytes
                zflags := clearZero tl.zflags off n
                poison := clearPoison tl.poison off n 64
                xOld := noteOld tl.xOld tl.scratch off byX n }
    let s2 := fireScratch s1 u (off / 64) ((off + n - 1) / 64)
    if fwd then forward s2 u off bytes cls else s2

/-- The bytes of a number, the least significant first (R2). -/
def natBytes : Nat → Nat → List Byte
  | 0, _ => []
  | n + 1, v => BitVec.ofNat 8 v :: natBytes n (v / 256)

/-- The number of a list of bytes (R2). -/
def bytesNat : List Byte → Nat
  | [] => 0
  | b :: bs => b.toNat + 256 * bytesNat bs

/-- A run of scratchpad bytes holds a poisoned line (R311); a run of none holds none. -/
def poisoned (m : Table Bool) (off n size : Nat) : Bool :=
  n ≠ 0 && m.any fun (ln, p) => p && size * ln < off + n && off < size * ln + size

/-- A byte of tile `u`'s scratchpad as tile `t` reads it: from another die an unreleased X write may not show
(R312). Which of the two it reads is one choice for each aligned doubleword, so that no aligned access mixes two writes
(R309). -/
def scratchByte (s : State) (t u off : Nat) : Byte :=
  let tl := s.tile u
  if dieOf t = dieOf u then tl.scratch.byte off
  else match tFind tl.xOld off with
    | none => tl.scratch.byte off
    | some b => if Config.crossDieOld (s.tick + off / 8) then b else tl.scratch.byte off

/-- A run of bytes as tile `t` reads it. -/
def scratchBytes (s : State) (t u off : Nat) (n : Nat) : List Byte :=
  (List.range n).map fun i => scratchByte s t u (off + i)

/-! ### Device memory (11) -/

/-- Why an access to global virtual space stops (R268, R289). -/
inductive MStop where
  | refuse (c : Cause)
  | page (va : Nat)
  /-- The state accessed is in use: the access waits (R70). -/
  | busy
  deriving DecidableEq, Repr

/-- Where an access to global virtual space goes. -/
inductive Route where
  | device (pa : Nat) (key : Nat)
  | peer (id : Nat) (addr : Nat) (va : Nat) (posted : Bool)
  deriving DecidableEq, Repr

/-- The contents of a 128-byte line, as stored. -/
def rawLine (s : State) (ln : Nat) : BitVec 1024 := BitVec.ofNat 1024 (s.devMem.readNat (128 * ln) 128)

/-- The parts of `n` bytes at an address, each in one 64-byte line: addresses and lengths. -/
def linePieces (a n : Nat) : List (Nat × Nat) :=
  (List.range ((a + n - 1) / 64 + 1 - a / 64)).map fun i =>
    let lo := max a (64 * (a / 64 + i))
    (lo, min (a + n) (64 * (a / 64 + i) + 64) - lo)

/-- The bytes of HBM4E: 16 stacks of 48 GB (R1); the spec's GB is 10^9 bytes. -/
def hbmBytes : Nat := 16 * 48 * 10 ^ 9

/-- A byte of device memory as read under a key: a line written under another key does not give its plaintext
(R291). DESIGN CHOICE (log 6): at and beyond the end of HBM4E there is no memory, and what a read gives there is free. -/
def devByte (s : State) (key pa : Nat) : Byte :=
  let k := tGet 0 s.devKey (pa / 128)
  if hbmBytes ≤ pa then Config.noMemory (s.tick + pa)
  else if k = key then s.devMem.byte pa
  else ((Config.recipher k key (pa / 128) (rawLine s (pa / 128))).toNat / 2 ^ (8 * (pa % 128)) : Nat)

/-- A run of bytes of device memory under a key. -/
def devBytes (s : State) (key pa n : Nat) : List Byte := (List.range n).map fun i => devByte s key (pa + i)

/-- A line takes a key: its other bytes stand as that key reads them (R291). -/
def rekeyLine (s : State) (key ln : Nat) : State :=
  let k := tGet 0 s.devKey ln
  if k = key then s
  else { s with devMem := s.devMem.writeBytes (128 * ln) (devBytes s key (128 * ln) 128),
                devKey := tSet 0 s.devKey ln key }

/-- The range entry of a context that holds every byte of an access (R287, R289). -/
def Context.rangeOf (c : Context) (va n : Nat) : Option RangeEntry :=
  c.ranges.find? fun r => r.gen = c.gen && r.vbase ≤ va && va + n ≤ r.vlimit

/-- The most posted requests of one context that may be outstanding (R384). -/
def postedLimit : Nat := 65536

/-- The posted-store count of a context (R384). -/
def State.postedCount (s : State) (ctx : Nat) (gen : BitVec 16) : Nat :=
  (s.posted.filter fun p => p.ctx = ctx && p.gen = gen).length

/-- The jet link towards a peer device is up (R397, R400). -/
def State.peerUp (s : State) (peer : Nat) : Bool := (tGet .reset s.jets (Config.peerPort peer)).link == .up

/-- Translation by a range entry (R289). -/
def translate (s : State) (c : Context) (va n : Nat) (rd wr : Bool) : Except MStop Route :=
  if c.memPorts = 0 then .error (.refuse .RANGE)
  else match c.rangeOf va n with
    | none => .error (.refuse .RANGE)
    | some r =>
      if (rd && !r.canRead) || (wr && !r.canWrite) then .error (.refuse .PERM)
      else if r.peer then
        if !s.peerUp r.peerId || (wr && r.posted && postedLimit ≤ s.postedCount r.ctx r.gen) then .error .busy
        else .ok (.peer r.peerId (r.pbase + (va - r.vbase)) va r.posted)
      else
        let key := if r.plain then 0 else c.key
        if !r.paged then .ok (.device (r.pbase + (va - r.vbase)) key)
        else
          let e := bytesNat (devBytes s 0 (r.pbase + 8 * ((va - r.vbase) / 65536)) 8)
          let addr := e / 2 ^ 16 % 2 ^ 24 * 2 ^ 16
          if e % 2 = 0 || e ≠ addr + 1 then .error (.page va)
          else .ok (.device (addr + (va - r.vbase) % 65536) key)

/-- Translation for a tile (R286, R171): without a context nothing is covered. -/
def translateFor (s : State) (t : Nat) (va n : Nat) (rd wr : Bool) : Except MStop Route :=
  match s.ctxOf t with
  | none => .error (.refuse .RANGE)
  | some c => translate s c va n rd wr

/-- A device-memory write fires the entries whose line's home it is, whatever address they were armed with (R427). -/
def fireDevice (s : State) (pa : Nat) : State :=
  fireAll s fun m e =>
    e.wide && match translateFor s m e.line.toNat 1 true false with
      | .ok (.device p _) => p / 128 = pa / 128
      | _ => false

/-- PERFORMING A DEVICE-MEMORY WRITE of at most one line at its home slice. DESIGN CHOICE (log 6): R1 gives the module
768 GB and no rule says what an access at or beyond them does; a write there changes no byte. -/
def devWrite (s : State) (key pa : Nat) (bytes : List Byte) : State :=
  if bytes.isEmpty || hbmBytes ≤ pa then s
  else
    let s1 := rekeyLine s key (pa / 128)
    fireDevice { s1 with devMem := s1.devMem.writeBytes pa bytes
                         devPoison := clearPoison s1.devPoison pa bytes.length 64 } pa

/-- A read of at most one line through a translation (R289, R311). -/
def routeRead (s : State) (r : Route) (n : Nat) : Except MStop (List Byte) :=
  match r with
  | .device pa key => if poisoned s.devPoison pa n 64 then .error (.refuse .MEMERR) else .ok (devBytes s key pa n)
  | .peer _ addr _ _ => .ok (natBytes n (Config.peerRead s.tick addr).toNat)

/-- Posted requests go out by the 64-byte line: bytes that continue the last request, in its line, join it (R384). -/
def addPosted (s : State) (st : PeerStore) : State :=
  match s.posted.getLast? with
  | some p =>
    if p.author = st.author && p.cls = st.cls && p.ctx = st.ctx && p.gen = st.gen && p.peer = st.peer && p.addr + p.bytes.length = st.addr &&
        p.addr / 64 = (st.addr + st.bytes.length - 1) / 64 then
      { s with posted := s.posted.dropLast ++ [{ p with bytes := p.bytes ++ st.bytes }] }
    else { s with posted := s.posted ++ [st], nextRequest := s.nextRequest + 1 }
  | none => { s with posted := s.posted ++ [st], nextRequest := s.nextRequest + 1 }

/-- A write goes out to a peer, and is a posted request if its entry says so (R289, R315). -/
def toPeer (s : State) (ctx : Nat) (a : Author) (cls : BitVec 4) (id addr va : Nat) (post : Bool) (bytes : List Byte)
    (m : Emission) : State :=
  let s1 := { s with outbox := s.outbox ++ [m] }
  if post then
    addPosted s1
      { author := a, cls := cls, number := s.nextRequest, ctx := ctx, gen := ((tFind s.ctxs ctx).map (·.gen)).getD 0, peer := id,
        va := va, addr := addr, bytes := bytes }
  else s1

/-- A write through a translation, by an agent and in an ordering class: at its home slice, or out to the peer (R289,
R315). -/
def routeWrite (s : State) (ctx : Nat) (a : Author) (cls : BitVec 4) (r : Route) (bytes : List Byte) : State :=
  match r with
  | .device pa key => devWrite s key pa bytes
  | .peer id addr va post => toPeer s ctx a cls id addr va post bytes (.peerWrite id addr bytes)

/-- A byte with one nibble replaced. -/
def mergeNibble (old : Nat) (high : Bool) (n : Nat) : Nat := if high then old % 16 + 16 * n else old / 16 * 16 + n

/-- A write of one nibble through a translation: it is merged with the other at its home, the peer's memory among them (R309). -/
def routeNibble (s : State) (ctx : Nat) (a : Author) (cls : BitVec 4) (r : Route) (high : Bool) (n : Nat) : State :=
  match r with
  | .device pa key => devWrite s key pa (natBytes 1 (mergeNibble (devByte s key pa).toNat high n))
  | .peer id addr va post =>
    toPeer s ctx a cls id addr va post (natBytes 1 (mergeNibble 0 high n)) (.peerNibble id addr high (BitVec.ofNat 4 n))

end Sys2Proof.Machine
end

