-- ==== Sys2Proof/Machine/Sha3.lean ====
section
/-! DEFINITION. SHA3-256 and the SHAKE functions, which the spec names or needs and FIPS 202 defines (01 R25, R26, 05 R125, 15
R373, 16 R401-R403; log 3). -/

namespace Sys2Proof.Machine

open Sys2Proof

/-! ### The 1,600-bit state

Bit z of the lane in column x of row y is bit 64(5y + x) + z. -/

/-- The lane at column `x` and row `y`, both modulo 5. -/
def laneAt (a : BitVec 1600) (x y : Nat) : Word := a.extractLsb' (64 * (5 * (y % 5) + x % 5)) 64

/-- The state whose lanes a function of column and row gives. -/
def stateOf (f : Nat → Nat → Word) : BitVec 1600 :=
  (List.range 25).foldr (fun i a => (a <<< 64) ||| (f (i % 5) (i / 5)).setWidth 1600) 0

/-- The parity of a column. -/
def columnOf (a : BitVec 1600) (x : Nat) : Word := ((List.range 5).map (laneAt a x)).foldl (· ^^^ ·) 0

/-- Each lane takes the parity of the column before it, and that of the column after it turned by one bit. -/
def mixColumns (a : BitVec 1600) : BitVec 1600 :=
  let p := stateOf fun x _ => columnOf a (x + 4) ^^^ (columnOf a (x + 1)).rotateLeft 1
  a ^^^ p

/-- The walk over the 24 lanes other than (0, 0). -/
def laneWalk : Nat → Nat × Nat
  | 0 => (1, 0)
  | t + 1 => let (x, y) := laneWalk t; (y, (2 * x + 3 * y) % 5)

/-- A lane is turned by the triangular number of its place on the walk. -/
def laneTurn (x y : Nat) : Nat :=
  (((List.range 24).find? fun t => laneWalk t = (x, y)).map fun t => (t + 1) * (t + 2) / 2 % 64).getD 0

/-- Lanes are turned, and then moved: (x, y) takes the lane of (x + 3y, x). -/
def turnMove (a : BitVec 1600) : BitVec 1600 :=
  stateOf fun x y => let u := (x + 3 * y) % 5; (laneAt a u x).rotateLeft (laneTurn u x)

/-- A bit of a row is inverted where the next is clear and the one after it is set. -/
def mixRows (a : BitVec 1600) : BitVec 1600 :=
  stateOf fun x y => laneAt a x y ^^^ (~~~ laneAt a (x + 1) y &&& laneAt a (x + 2) y)

/-- The shift register of the round constants, x^8 + x^6 + x^5 + x^4 + 1, after some steps. -/
def roundRegister : Nat → Nat
  | 0 => 1
  | t + 1 => let v := 2 * roundRegister t; if 256 ≤ v then v ^^^ 0x171 else v

/-- The constant of a round: seven bits of the register, at places 2^j - 1. -/
def roundConstant (r : Nat) : Nat :=
  ((List.range 7).map fun j => roundRegister (7 * r + j) % 2 * 2 ^ (2 ^ j - 1)).foldl (· + ·) 0

/-- The permutation: 24 rounds. -/
def permute (a : BitVec 1600) : BitVec 1600 :=
  (List.range 24).foldl (fun a r => mixRows (turnMove (mixColumns a)) ^^^ BitVec.ofNat 1600 (roundConstant r)) a

/-! ### The sponge -/

/-- Takes in blocks of `rate` bytes, one after another. -/
def soak (rate : Nat) (a : BitVec 1600) (m : List Byte) : Nat → BitVec 1600
  | 0 => a
  | n + 1 => soak rate (permute (a ^^^ BitVec.ofNat 1600 (bytesNat (m.take rate)))) (m.drop rate) n

/-- Gives out blocks of `rate` bytes. -/
def wring (rate : Nat) (a : BitVec 1600) : Nat → List Byte
  | 0 => []
  | n + 1 => natBytes rate a.toNat ++ wring rate (permute a) n

/-- `n` bytes of the sponge of a rate over a message. The last block is filled with the suffix, zeros and a final one bit. -/
def sponge (rate suffix : Nat) (m : List Byte) (n : Nat) : List Byte :=
  let k := rate - m.length % rate
  let p := m ++ natBytes k (suffix + 2 ^ (8 * k - 1))
  (wring rate (soak rate 0 p (p.length / rate)) ((n + rate - 1) / rate)).take n

/-- SHA3-256 of a byte string, as the little-endian number of its 32 digest bytes. -/
def sha3 (m : List Byte) : BitVec 256 := BitVec.ofNat 256 (bytesNat (sponge 136 0x06 m 32))

/-- `n` bytes of SHAKE128 and of SHAKE256. -/
def shake128 (m : List Byte) (n : Nat) : List Byte := sponge 168 0x1F m n
def shake256 (m : List Byte) (n : Nat) : List Byte := sponge 136 0x1F m n

end Sys2Proof.Machine
end

