-- ==== Sys2Proof/Machine/Slices.lean ====
section
/-! DEFINITION. Cache slices, miss registers and bandwidth shares (11 R293-R296, 04 R102, R103). They decide when memory
answers, and no value that an access returns. -/

namespace Sys2Proof.Machine

open Sys2Proof

/-- A slice by number. -/
def State.slice (s : State) (k : Nat) : Slice := tGet .reset s.slices k

/-- Changes a slice. -/
def State.onSlice (s : State) (k : Nat) (f : Slice → Slice) : State :=
  { s with slices := tSet .reset s.slices k (f (s.slice k)) }

/-- The slices of the module (R293). -/
def sliceCount : Nat := 512

/-- The home slice of a physical address (R293, log 9). -/
def homeSliceOf (pa : Nat) : Nat := Config.homeSlice (pa / 4096) % sliceCount

/-- The set of a line in its slice (R295, log 9). -/
def setOf (line : Nat) : Nat := Config.cacheSet line % 8192

/-- The controller that serves a slice: 16 slices to a quadrant (R293). -/
def controllerOf (slice : Nat) : Nat := slice / 16

/-- The miss registers of a slice (R296). -/
def missRegisters : Nat := 64

/-- The bit of a 64-byte half. -/
def halfBit (half : Nat) : BitVec 2 := 1#2 <<< half

/-- The line is held, with its half valid. -/
def Slice.hits (sl : Slice) (line half : Nat) : Bool :=
  sl.lines.any fun c => c.line = line && c.valid &&& halfBit half ≠ 0

/-- Takes a miss register, or waits for one (R296). -/
def Slice.request (sl : Slice) (m : Miss) : Slice :=
  if sl.misses.length < missRegisters then { sl with misses := sl.misses ++ [m] }
  else if m.write then { sl with waiting := sl.waiting ++ [m] }
  else { sl with bypass := sl.bypass ++ [m] }

/-- Makes a line the most recently used, with a half valid; a full set loses its least recently used line, which is
written back if it is dirty (R295). -/
def Slice.place (sl : Slice) (line half : Nat) (dirty : Bool) (share : Nat) : Slice :=
  let old := sl.lines.find? fun c => c.line = line
  let rest := sl.lines.filter fun c => c.line ≠ line
  let new : CacheLine :=
    { line := line, valid := ((old.map (·.valid)).getD 0) ||| halfBit half, dirty := dirty || (old.map (·.dirty)).getD false }
  let same := rest.filter fun c => setOf c.line = setOf line
  if old.isSome || same.length < sl.ways then { sl with lines := new :: rest }
  else match same.getLast? with
    | none => sl
    | some v =>
      let sl1 := { sl with lines := new :: rest.filter fun c => c.line ≠ v.line }
      if v.dirty then sl1.request { line := v.line, half := 0, write := true, alloc := false, share := share, back := none } else sl1

/-- A request at its home slice: a hit, or a miss that takes a register, waits or bypasses (R295, R296). -/
def Slice.take (sl : Slice) (m : Miss) : Slice :=
  if sl.hits m.line m.half then sl.place m.line m.half m.write m.share else sl.request m

/-- A request that no port sent reaches the home slice of a physical address. -/
def sliceAccess (s : State) (pa : Nat) (write alloc : Bool) (share : Nat) : State :=
  s.onSlice (homeSliceOf pa)
    (·.take { line := pa / 128, half := pa / 64 % 2, write := write, alloc := write || alloc, share := share, back := none })

/-! ### The path from a port to a slice (R293, R294) -/

/-- The quadrant of a port tile, by its local number in its die (R293). -/
def quadrantOfPort (port : Nat) : Nat :=
  let k := port % 32
  if k < 4 || (24 ≤ k && k < 28) then 0 else if k < 12 then 1 else if k < 16 || (20 ≤ k && k < 24) then 2 else 3

/-- The die and the quadrant of a slice: 64 slices to a die, 16 to a quadrant (R1, R293). The numbering of slices is the
model's (log 9). -/
def dieOfSlice (k : Nat) : Nat := k / 64
def quadrantOfSlice (k : Nat) : Nat := k / 16 % 4

/-- A place that a request passes: the station between quadrant `q` and the next, clockwise or the other way, or the
bridge to another die. -/
inductive Hop where
  | station (die q : Nat) (clockwise : Bool)
  | bridge (src dst : Nat)
  deriving DecidableEq, Repr

/-- The way between two quadrants of a die: one ring direction within a quadrant, one station between adjacent quadrants, two
clockwise between diagonal ones (R294). -/
def ringPath (d p q : Nat) : List Hop :=
  match (q + 4 - p) % 4 with
  | 0 => []
  | 1 => [.station d p true]
  | 2 => [.station d p true, .station d ((p + 1) % 4) true]
  | _ => [.station d ((p + 3) % 4) false]

/-- The fixed path from a port to a slice: on another die it is the bridge to that die and then that die's rings (R294). At which
quadrant a bridge meets them R294 does not say: a free value (log 9). -/
def pathOf (port slice : Nat) : List Hop :=
  let d := port / 32
  let e := dieOfSlice slice
  if d ≠ e then .bridge d e :: ringPath e (Config.bridgeQuadrant d e % 4) (quadrantOfSlice slice)
  else ringPath d (quadrantOfPort port) (quadrantOfSlice slice)

/-- Request entries, and response entries, of a station in each direction (R294). -/
def stationEntries : Nat := 64

/-- A station on the path of a request, or response, has no entry left beside those that stand in the stations already. -/
def pathFull (held : List Transit) (port slice : Nat) : Bool :=
  (pathOf port slice).any fun h => stationEntries ≤ (held.filter fun q => (pathOf q.port q.slice).contains h).length

/-- The requests that stand in the stations of their paths, of a list with the oldest first: one for which a station on its
path has no entry left is held at its port (R294). -/
def inStations : List Transit → List Transit → List Transit
  | held, [] => held
  | held, r :: rest => if pathFull held r.port r.slice then inStations held rest else inStations (held ++ [r]) rest

/-- Requests from one port to one slice in one ordering class keep their order (R294). -/
def Transit.sameStream (a b : Transit) : Bool := a.port = b.port && a.slice = b.slice && a.cls = b.cls

/-- The response of a slice to a port has room on its way back: it needs none within a quadrant (R294). -/
def responseRoom (s : State) (k : Nat) (m : Miss) : Bool :=
  match m.back with
  | none => true
  | some (p, _) => !pathFull s.replies p k

/-- The response goes on its way. -/
def addReply (s : State) (k : Nat) (m : Miss) : State :=
  match m.back with
  | none => s
  | some (p, c) => if pathOf p k = [] then s else { s with replies := s.replies ++ [{ port := p, slice := k, cls := c, miss := m }] }

/-- A slice can take a request: it hits and its response has room, or it is a read, or a miss register is free (R294, R296). -/
def canTake (s : State) (k : Nat) (m : Miss) : Bool :=
  if (s.slice k).hits m.line m.half then responseRoom s k m else !m.write || (s.slice k).misses.length < missRegisters

/-- A slice takes a request: a hit is answered at once. -/
def enterSlice (s : State) (k : Nat) (m : Miss) : State :=
  let s1 := s.onSlice k (·.take m)
  if (s.slice k).hits m.line m.half then addReply s1 k m else s1

/-- A port sends a request for a physical address: it reaches its slice, but for one that has a way to go and is behind an
earlier one of its stream, finds no entry in a station, or cannot be taken yet, which waits on its path (R294, R296). -/
def portSend (s : State) (port pa : Nat) (write alloc : Bool) (share : Nat) (cls : BitVec 4) : State :=
  let k := homeSliceOf pa
  let r : Transit :=
    { port := port, slice := k, cls := cls
      miss := { line := pa / 128, half := pa / 64 % 2, write := write, alloc := write || alloc, share := share, back := some (port, cls) } }
  if pathOf port k ≠ [] &&
      (s.transit.any r.sameStream || pathFull (inStations [] s.transit) port k || !canTake s k r.miss) then
    { s with transit := s.transit ++ [r] }
  else enterSlice s k r.miss

/-- The oldest request for a slice that it can take, of those in the stations, none of its stream before it. -/
def firstTaken (s : State) (k : Nat) : List Transit → List Transit → Option Transit
  | _, [] => none
  | older, r :: rest =>
    if r.slice = k && canTake s k r.miss && !older.any r.sameStream then some r else firstTaken s k (r :: older) rest

/-- A slice takes the oldest request that has reached it and that it can take (R294, R296). -/
def takeTransit (s : State) (k : Nat) : State :=
  match firstTaken s k [] (inStations [] s.transit) with
  | none => s
  | some r => enterSlice { s with transit := s.transit.erase r } k r.miss

/-- The oldest response of a slice reaches its port, and a request that waits for the slice reaches it (R294). -/
def movePaths (s : State) (k : Nat) : State :=
  let s1 := match s.replies.find? (·.slice = k) with
    | none => s
    | some r => { s with replies := s.replies.erase r }
  takeTransit s1 k

/-! ### Bandwidth shares (R103) -/

/-- A class of the share table. -/
def State.share (s : State) (k : Nat) : Share := tGet .reset s.shares k

/-- Requests of a class that a controller has served in this window. -/
def State.servedOf (s : State) (ctl cls : Nat) : Nat := tGet 0 s.served (64 * ctl + cls)

/-- Requests that a controller can serve in a window: its peak of 128 pseudo-channels, in units of the shares (R103).
The unit is the model's: one request is one 1/1,024 of a window (log 5). -/
def windowUnits : Nat := 1024

/-- The class may be served in this window: it is below its MIN, or it has weight and is below CEIL. -/
def mayServe (s : State) (ctl cls : Nat) : Bool :=
  let sh := s.share cls
  s.servedOf ctl cls < sh.min || (sh.weight ≠ 0 && s.servedOf ctl cls < sh.ceil)

/-- What a class has been served of the bandwidth that remains beyond the MINs (R103). -/
def State.extraOf (s : State) (ctl cls : Nat) : Nat := s.servedOf ctl cls - (s.share cls).min

/-- One class goes before another: below MIN first, then less served of the remainder for its weight (R103). -/
def goesBefore (s : State) (ctl a b : Nat) : Bool :=
  let ma := decide (s.servedOf ctl a < (s.share a).min)
  let mb := decide (s.servedOf ctl b < (s.share b).min)
  if ma ≠ mb then ma
  else s.extraOf ctl a * (s.share b).weight < s.extraOf ctl b * (s.share a).weight

/-- The request that a controller serves next among those that may be served; the oldest of equals. -/
def pickRequest (s : State) (ctl : Nat) : List Miss → Option Miss
  | [] => none
  | m :: rest =>
    match pickRequest s ctl rest with
    | none => if mayServe s ctl m.share then some m else none
    | some n => if mayServe s ctl m.share && !goesBefore s ctl n.share m.share then some m else some n

/-- A bypassing read waits for the slice's accepted writes of its line (R296). -/
def Slice.bypassReady (sl : Slice) (m : Miss) : Bool :=
  !((sl.misses ++ sl.waiting).any fun w => w.write && w.line = m.line)

/-- Memory has answered a request: its register is freed, a waiting write takes it, and an allocating request's line
is held (R296). -/
def Slice.answer (sl : Slice) (m : Miss) : Slice :=
  if sl.misses.contains m then
    let sl1 := { sl with misses := sl.misses.erase m ++ sl.waiting.take 1, waiting := sl.waiting.drop 1 }
    if m.alloc then sl1.place m.line m.half m.write m.share else sl1
  else { sl with bypass := sl.bypass.erase m }

/-- The requests of a slice that memory can answer: those whose response has room on its way back (R294). -/
def readyAt (s : State) (k : Nat) : List Miss :=
  let sl := s.slice k
  (sl.misses ++ sl.bypass.filter sl.bypassReady).filter (responseRoom s k)

/-- The requests that a controller can serve: those of the 16 slices of its quadrant, from slice `k` on and around, so that
none of them is always the first of equals (R293). -/
def controllerRequests (s : State) (k : Nat) : List Miss :=
  (List.range 16).flatMap fun i => readyAt s (16 * controllerOf k + (k + i) % 16)

/-- A controller serves a request of a slice, when no request of its other slices goes before it (R103, R296). -/
def serveSlice (s : State) (k : Nat) : State :=
  let ctl := controllerOf k
  match pickRequest s ctl (controllerRequests s k) with
  | none => s
  | some m =>
    if (readyAt s k).contains m then
      let s1 := takeTransit (addReply (s.onSlice k (·.answer m)) k m) k
      { s1 with served := tSet 0 s1.served (64 * ctl + m.share) (s.servedOf ctl m.share + 1) }
    else s

/-- `SLICE_MISS_RESPONSE` (R296): what stands on the slice's paths moves (R294), and its controller serves it. -/
def execSliceMissResponse (slice : Nat) (s : State) : Out := .next (serveSlice (movePaths s slice) slice)

/-- `ACCOUNTING_WINDOW` (R103): the controller counts from nothing again. -/
def execAccountingWindow (controller : Nat) (s : State) : Out :=
  .next { s with served := s.served.filter fun e => e.1 / 64 ≠ controller }

end Sys2Proof.Machine
end

