-- ==== Sys2Proof/Machine/Ports.lean ====
section
/-! DEFINITION. What a memory-port tile does beside translating (11 R286, R290, R292-R296, 04 R103): the choice of the port,
cached translations, the request to the home slice with its share class, and the indirect prefetcher. None of it changes a
value that an access returns. -/

namespace Sys2Proof.Machine

open Sys2Proof

/-- The assigned memory-port tile that an access of the context goes to: the i-th in ascending order, with
i = (VA >> 12) mod MEMPORTS (R286). -/
def Context.portOf (c : Context) (va : Nat) : Option Nat :=
  if c.memPorts = 0 then none else c.ports[va / 4096 % c.memPorts]?

/-- Bytes of a page (R288). -/
def pageSize : Nat := 65536

/-- The port holds the translation of a page (R290). -/
def cacheXlat (s : State) (port n : Nat) (gen : BitVec 16) (va pa : Nat) : State :=
  let xs := tGet [] s.portCache port
  let x : CachedXlat := { ctx := n, gen := gen, page := va / pageSize, pa := pa / pageSize }
  if xs.contains x then s else { s with portCache := tSet [] s.portCache port (xs ++ [x]) }

/-- A port sends the requests of an access of `k` bytes, one for each 64-byte half that it touches. -/
def sendHalves (s : State) (port pa k : Nat) (write alloc : Bool) (share : Nat) (cls : BitVec 4) : State :=
  (List.range ((pa + k - 1) / 64 + 1 - pa / 64)).foldl
    (fun s i => portSend s port (64 * (pa / 64 + i)) write alloc share cls) s

/-! ### The indirect prefetcher (R292)

R292 says when the prefetcher trains, not how it finds the multiplier and the base. DESIGN CHOICE (log 9): two elements of
different values and two reads give a candidate, and the first candidate that fits four reads is taken. -/

/-- The prefetcher of a port. -/
def State.prefetcher (s : State) (port : Nat) : Prefetcher := tGet .reset s.prefetch port

/-- Sets the prefetcher of a port. -/
def State.setPrefetcher (s : State) (port : Nat) (p : Prefetcher) : State :=
  { s with prefetch := tSet .reset s.prefetch port p }

/-- The i64 or i32 elements of a 128-byte line. -/
def lineValues (wide : Bool) (l : BitVec 1024) : List Int :=
  let w := if wide then 64 else 32
  (List.range (1024 / w)).map fun i => (BitVec.ofNat w (l.toNat / 2 ^ (w * i))).toInt

/-- Reads whose addresses the values of a line give under a multiplier and a base. -/
def matching (vs reads : List Int) (scale base : Int) : List Int :=
  reads.filter fun a => vs.any fun v => base + scale * v = a

/-- A multiplier and a base under which a line's values give at least four of the reads. -/
def findPattern (vs reads : List Int) : Option (Int × Int) :=
  if reads.length < 4 then none
  else vs.findSome? fun v => vs.findSome? fun w => reads.findSome? fun a => reads.findSome? fun b =>
    let scale := (a - b) / (v - w)
    let base := a - scale * v
    if v ≠ w && scale ≠ 0 && 4 ≤ (matching vs reads scale base).length then some (scale, base) else none

/-- Reads of a context that followed a read, among the next 64: their first addresses. -/
def readsAfter (c : Nat) (gen : BitVec 16) (newer : List SeenRead) : List Int :=
  (newer.filter fun r => r.ctx = c && r.gen = gen).map fun r => (r.va : Int)

/-- Trains on the last reads, the newest first: the most recent line whose values give four of the reads after it. -/
def trainOn : List SeenRead → List SeenRead → Option IndexPattern
  | _, [] => none
  | newer, r :: older =>
    let reads := readsAfter r.ctx r.gen newer
    let try_ (wide : Bool) : Option IndexPattern :=
      (findPattern (lineValues wide r.line) reads).map fun (scale, base) =>
        { ctx := r.ctx, gen := r.gen, wide := wide, scale := scale, base := base, line := r.va / 128, ahead := r.va / 128,
          target := ((matching (lineValues wide r.line) reads scale base).headD 0).toNat }
    match try_ false, try_ true with
    | some p, _ => some p
    | none, some p => some p
    | none, none => trainOn (newer ++ [r]) older

/-- A request of the prefetcher: dropped where it would be refused or would fault, and made in the class of the entry that
covers it; in ordering class 0, as R292 names none (log 9). -/
def prefetchAt (s : State) (port n : Nat) (c : Context) (va : Nat) : State :=
  match translate s c va 1 true false, c.rangeOf va 1 with
  | .ok (.device pa _), some e => portSend (cacheXlat s port n c.gen va pa) port pa false (!e.noAlloc) e.share 0
  | _, _ => s

/-- The 128-byte line of a context at a virtual address, if it is device memory that can be read. -/
def readLine128 (s : State) (c : Context) (va : Nat) : Option (BitVec 1024) :=
  match translate s c (128 * (va / 128)) 128 true false with
  | .ok (.device pa key) => some (BitVec.ofNat 1024 (bytesNat (devBytes s key pa 128)))
  | _ => none

/-- Reads a line of the index array ahead, and issues the fetches that depend on it. -/
def runAhead (s : State) (port : Nat) (c : Context) (p : IndexPattern) (line : Nat) : State :=
  match readLine128 s c (128 * line) with
  | none => s
  | some l =>
    (lineValues p.wide l).foldl (fun s v =>
      let a := p.base + p.scale * v
      if a < 0 then s else prefetchAt s port p.ctx c a.toNat) (prefetchAt s port p.ctx c (128 * line))

/-- A read of the index array: the lines up to 16 ahead of it that have not been read ahead yet. -/
def prefetchFrom (s : State) (port : Nat) (c : Context) (p : IndexPattern) : State :=
  let first := max (p.ahead + 1) (p.line + 1)
  let s1 := (List.range (p.line + 17 - first)).foldl (fun s i => runAhead s port c p (first + i)) s
  s1.setPrefetcher port { (s1.prefetcher port) with pattern := some { p with ahead := max p.ahead (p.line + 16) } }

/-- A port watches a read that it has translated (R292). -/
def watchRead (s : State) (port n : Nat) (c : Context) (va : Nat) : State :=
  match readLine128 s c va with
  | none => s
  | some l =>
    let p := s.prefetcher port
    let seen := ({ ctx := n, gen := c.gen, va := va, line := l } :: p.seen).take 65
    let pattern := match p.pattern with
      | some q => some (if q.ctx = n && q.gen = c.gen && q.line ≤ va / 128 && va / 128 ≤ q.line + 16 then
          { q with line := va / 128 } else q)
      | none => trainOn [] seen
    let s1 := s.setPrefetcher port { seen := seen, pattern := pattern }
    match pattern with
    | some q => if q.ctx = n && q.gen = c.gen then prefetchFrom s1 port c q else s1
    | none => s1

/-- A shoot-down of addresses `lo` to `hi - 1` of a context: its ports discard the translations of those pages, and forget a
training whose index range or target range it touches (R290, R292). -/
def shootDown (s : State) (n : Nat) (c : Context) (lo hi : Nat) : State :=
  let touches (va : Nat) : Bool := (c.rangeOf va 1).any fun r => decide (lo < r.vlimit) && decide (r.vbase < hi)
  { s with
    portCache := s.portCache.filterMap fun (p, xs) =>
      let k := xs.filter fun x => !(x.ctx = n && lo < pageSize * (x.page + 1) && pageSize * x.page < hi)
      if k.isEmpty then none else some (p, k)
    prefetch := s.prefetch.filterMap fun (p, f) =>
      let gone := f.pattern.any fun q => decide (q.ctx = n) && (touches (128 * q.line) || touches q.target)
      let f1 : Prefetcher := if gone then .reset else f
      if f1 = .reset then none else some (p, f1) }

/-! ### An access through its port -/

/-- What an access of `k` bytes at a virtual address of a context does at its port and its slices: the translation is cached,
the slices see the request in its share class, and a read trains the prefetcher (R286, R290, R292, R295, R103). `share` is
the class of a run with SHOVR, for its generators. -/
def portAccess (s : State) (n : Nat) (c : Context) (va k : Nat) (write : Bool) (share : Option Nat) (cls : BitVec 4) : State :=
  match c.portOf va, translate s c va k (!write) write, c.rangeOf va k with
  | some port, .ok (.device pa _), some e =>
    let s1 := sendHalves (cacheXlat s port n c.gen va pa) port pa k write (!e.noAlloc) (share.getD e.share) cls
    if write then s1 else watchRead s1 port n c va
  | _, _, _ => s

/-- What an access of a tile to a home does at its port and its slices. -/
def State.viaPort (s : State) (t : Nat) (h : Home) (k : Nat) (write : Bool) (cls : BitVec 4) : State :=
  match h, (s.tile t).owner, s.ctxOf t with
  | .global va, some n, some c => portAccess s n c va k write none cls
  | _, _, _ => s

/-! ### Requests that reach a slice by themselves -/

/-- The lines of a page map that may hold an entry: a line that is nowhere written reads as zero. -/
def mapLines (s : State) (lo n : Nat) : List Nat :=
  (((s.devMem.map fun (c : Host.Cell) => c.1 / 128) ++ s.devKey.map fun (e : Nat × Nat) => e.1).filter fun ln =>
    lo < 128 * ln + 128 && 128 * ln < lo + n).eraseDups

/-- The page that a page entry maps: P is set, and no reserved bit (R288, R289). -/
def entryPage (e : Nat) : Option Nat :=
  let a := e / 2 ^ 16 % 2 ^ 24 * 65536
  if e = a + 1 then some a else none

/-- The pages that the page map of a range maps. -/
def mappedPages (s : State) (r : RangeEntry) : List Nat :=
  let n := 8 * ((r.vlimit - r.vbase) / pageSize)
  (mapLines s r.pbase n).flatMap fun ln =>
    (List.range 16).filterMap fun k =>
      let a := 128 * ln + 8 * k
      if r.pbase ≤ a && a < r.pbase + n then entryPage (bytesNat (devBytes s 0 a 8)) else none

/-- An entry covers a physical address. -/
def RangeEntry.coversPa (s : State) (r : RangeEntry) (pa : Nat) : Bool :=
  !r.peer && (if r.paged then (mappedPages s r).contains (pa / pageSize * pageSize) else decide (r.pbase ≤ pa) && decide (pa < r.pbase + (r.vlimit - r.vbase)))

/-- SLICE_REQUEST: the request carries the class of the range entry that covers the address, or class 0 (R103). -/
def shareOfPa (s : State) (pa : Nat) : Nat :=
  ((s.ctxs.filterMap fun (_, c) => (c.ranges.find? fun r => r.coversPa s pa).map (·.share)).head?).getD 0

/-- `SLICE_REQUEST` (R295). -/
def execSliceRequest (pa : Nat) (write noalloc : Bool) (s : State) : Out :=
  .next (sliceAccess s pa write (!noalloc) (shareOfPa s pa))

end Sys2Proof.Machine
end

