-- ==== Sys2Proof/Machine/Mem.lean ====
section
/-! DEFINITION. The accesses of C (07 R170, R171), and what fences, acquires and releases wait for (12 R302-R307, 14
R357-R359). -/

namespace Sys2Proof.Machine

open Sys2Proof

/-! ### The accesses of C (R169-R171, R311) -/

/-- C meets a page that is not present: it waits, without a trap, while the fault is serviced; no backing is RANGE
(R171). -/
def cPage {α : Type} (s : State) (t va : Nat) : Res α :=
  match (s.tile t).cwait with
  | some (.page _ (some false)) => trap .RANGE
  | _ => .error (.page va)

/-- C reads `n` bytes; `State.viaPort` says what the read does at its port. -/
def cRead (s : State) (t : Nat) (h : Home) (n : Nat) : Res Nat :=
  match h with
  | .scratch u off =>
    if poisoned (s.tile u).poison off n 64 then trap .MEMERR else .ok (bytesNat (scratchBytes s t u off n))
  | .global va => match translateFor s t va n true false with
    | .error (.refuse c) => trap c
    | .error (.page _) => cPage s t va
    | .error .busy => .error .stall
    | .ok r => match routeRead s r n with
      | .ok bs => .ok (bytesNat bs)
      | .error _ => trap .MEMERR
  | .opm _ _ => trap .ASPACE

/-- C writes the low `n` bytes of a value: a write of a scratchpad reads its publisher table (R354, R380). -/
def cWrite (s : State) (t : Nat) (h : Home) (n v : Nat) (cls : BitVec 4) : Res State :=
  match h with
  | .scratch u off =>
    if (s.tile u).pubsBad then trap .MEMERR else .ok (scratchWrite s u off (natBytes n v) cls true false)
  | .global va => match translateFor s t va n false true with
    | .error (.refuse c) => trap c
    | .error (.page _) => cPage s t va
    | .error .busy => .error .stall
    | .ok r => .ok (routeWrite (s.viaPort t h n true cls) ((s.tile t).owner.getD 0) (.engine t .C 0) cls r (natBytes n v))
  | .opm _ _ => trap .ASPACE

/-! ### Scopes, acquire and release (12 R302-R307, 14 R357-R359) -/

/-- A tile lies within a scope of tile `t` (R302). -/
def State.inScope (s : State) (t : Nat) (scope : Nat) (u : Nat) : Bool :=
  if scope = 0 then u = t
  else if scope = 1 then s.inGroup t (s.tile t).groupMask u
  else u = t || ((s.tile t).owner.isSome && (s.tile u).owner = (s.tile t).owner)

/-- The homes of R298. -/
inductive Site where
  | scratch (tile : Nat)
  | opm (tile : Nat)
  | device
  | host
  | peer
  deriving DecidableEq, Repr

/-- A home lies within a scope of tile `t` (R302). -/
def State.homeInScope (s : State) (t scope : Nat) : Site → Bool
  | .scratch u => s.inScope t scope u
  | .opm _ => 3 ≤ scope
  | .device => 3 ≤ scope
  | .host => 4 ≤ scope
  | .peer => 4 ≤ scope

/-- The tiles of the context of `t` close their batches: a release waits on their flits (R357). -/
def closeContext (s : State) (t : Nat) : State :=
  (s.tiles.filter fun (u, tl) => !tl.batches.isEmpty && s.inScope t 2 u).foldl (fun s (u, _) => closeBatches s u) s

/-- No update of a class in the mask, formed before a stamp, to a subscriber within the scope, is unsettled (R358). -/
def settledWithin (s : State) (t scope : Nat) (mask : BitVec 16) (stamp : Nat) : Bool :=
  s.flits.all fun f =>
    !(f.flit.stamp < stamp && mask.getLsbD f.flit.cls.toNat && s.inScope t 2 f.pubTile && s.homeInScope t scope (.scratch f.subTile))

/-- A posted store of one of these engines of tile `t`, in a class of the mask (R315). -/
def PeerStore.madeBy (p : PeerStore) (t : Nat) (es : List Engine) (mask : BitVec 16) : Bool :=
  match p.author with
  | .engine u e _ => u = t && es.contains e && mask.getLsbD p.cls.toNat
  | _ => false

/-- Every posted store of these engines and classes, numbered below a number, whose home lies within the scope has been
acknowledged (R315). -/
def postedWithin (s : State) (t scope : Nat) (es : List Engine) (mask : BitVec 16) (number : Nat) : Bool :=
  !s.homeInScope t scope .peer || s.posted.all fun p => !(p.number < number && p.madeBy t es mask)

/-- A release at D or Y by X makes its writes visible on every die (R312). -/
def showX (s : State) (t : Nat) (scope : Nat) : State :=
  if 3 ≤ scope then s.onTile t fun tl => { tl with xOld := [] } else s

/-- Every class. -/
def allClasses : BitVec 16 := BitVec.allOnes 16

/-- A RELEASE at a scope, of the earlier accesses of some engines of a tile in some classes. Every access is performed when
it is made (log 7), but for the updates it formed and for posted stores: the batches leave, and the release waits until
those updates are settled and those stores acknowledged (R305, R307, R315, R357, R358). A subscriber is never within T. `since`
is the bound that a release which waits already began with: what is formed after that does not hold it back (R342). -/
def releaseIn (s : State) (t : Nat) (es : List Engine) (mask : BitVec 16) (scope : Nat) (since : Option (Nat × Nat)) :
    Res State :=
  if scope = 0 then .ok (closeBatches s t)
  else
    let s1 := if since.isSome then s else closeContext (closeBatches s t) t
    let (stamp, number) := since.getD (s1.stamp, s1.nextRequest)
    if settledWithin s1 t scope mask stamp && postedWithin s1 t scope es mask number then .ok s1 else .error (.wait s1)

/-- A release that C makes, of accesses of these engines and classes; one that has to wait keeps its bound (R305, R307). -/
def releaseC (s : State) (t : Nat) (es : List Engine) (mask : BitVec 16) (scope : Nat) : Res State :=
  match releaseIn s t es mask scope (s.tile t).relSince with
  | .error (.wait s1) => .error (.wait (s1.onTile t fun tl =>
      { tl with relSince := some (tl.relSince.getD (s1.stamp, s1.nextRequest)) }))
  | r => r

/-- A release of C (R305). -/
def release (s : State) (t : Nat) (scope : Nat) : Res State := releaseC s t [.C] allClasses scope

/-- An acquire at any scope closes the tile's batches (R357). -/
def acquire (s : State) (t : Nat) : State := closeBatches s t

end Sys2Proof.Machine
end

