-- ==== Sys2Proof/Machine/Csr.lean ====
section
/-! DEFINITION. The CSRs of a tile: what a read gives, and what a write may change (06 R148-R151, 07 R186, and each CSR's own
rule). -/

namespace Sys2Proof.Machine

open Sys2Proof

/-- The X pipe that an entry uses: its own class, or its body's (R139, R144). -/
def QEntry.rowPipe (e : QEntry) : Bool :=
  if isNest e.word then (e.body.head?.map isRowPipe).getD false else isRowPipe e.word

/-- A `wld` whose write phase runs holds no pipe (R226). -/
def Tile.inWritePhase (tl : Tile) (e : QEntry) : Bool := tl.wpend.isSome && classOf e.word = 3 && e.phase == .performed

/-- A pipe of X is busy. -/
def Tile.pipeBusy (tl : Tile) (row : Bool) : Bool :=
  tl.qX.any fun e => e.inFlight && e.rowPipe == row && !tl.inWritePhase e

/-- One bit at a place. -/
def bitAt (b : Bool) (n : Nat) : Nat := if b then 2 ^ n else 0

/-- `LSTAT` or `SSTAT` (R281). -/
def statusWord (st : EngineStatus) (q : List QEntry) : Word :=
  BitVec.ofNat 64 (st.fpage.toNat * 2 ^ 12 + st.eos.toNat * 2 ^ 8 + bitAt st.opmBusy 4 + bitAt st.hfail 3
    + bitAt (q.any fun e => e.inFlight && e.prog.page.isSome) 2 + bitAt (q.any QEntry.inFlight) 0)

/-- `XSTAT` (R151). -/
def xstatWord (tl : Tile) : Word :=
  BitVec.ofNat 64 (bitAt (tl.fflags.getLsbD 5) 5 + bitAt tl.wpend.isSome 3 + bitAt tl.actW 2
    + bitAt (tl.pipeBusy true) 1 + bitAt (tl.pipeBusy false) 0)

/-- The armed entries of the monitor table (R335). -/
def Tile.armed (tl : Tile) : Nat := (tl.mon.filter fun (_, e) => e.armed).length

/-- `MONSTAT` (R335). -/
def monstatWord (tl : Tile) : Word :=
  BitVec.ofNat 64 (tl.fired.toNat * 2 ^ 16 + tl.armed * 2 ^ 6 + bitAt tl.phDrop 1 + bitAt tl.monFull 0)

/-- `CYCLE` of a tile: 0 at device reset, and moved on by every step since (R149). -/
def cycleOf (s : State) (t : Nat) : Word :=
  (List.range (s.tick - s.since)).foldl (fun v k => v + Config.cycleSkew t (s.since + k)) s.cycle

/-- Reads a CSR as a context does; none for a number that is not assigned (R148). -/
def csrRead (s : State) (t : Nat) (n : Nat) : Option Word :=
  let tl := s.tile t
  match n with
  | 0x000 => some (tl.tileId.setWidth 64)
  | 0x001 => some 0
  | 0x002 => some (cycleOf s t)
  | 0x003 => some (tl.drift.setWidth 64)
  | 0x008 => some (tl.trapVec.setWidth 64)
  | 0x009 => some tl.trapCause
  | 0x00A => some (tl.trapPc.setWidth 64)
  | 0x00B => some (tl.repIdx.setWidth 64)
  | 0x010 => some (tl.subBatch.setWidth 64)
  | 0x011 => some (tl.groupMask.setWidth 64)
  | 0x018 => some (xstatWord tl)
  | 0x019 => some (tl.fflags.setWidth 64)
  | 0x01A => some (statusWord tl.lstat tl.qL)
  | 0x01B => some (statusWord tl.sstat tl.qS)
  | 0x01C => some (monstatWord tl)
  | 0x020 => some (tGet 0 tl.bkpt 0)
  | 0x021 => some (tGet 0 tl.bkpt 1)
  | 0x022 => some (tGet 0 tl.bkpt 2)
  | 0x023 => some (tGet 0 tl.bkpt 3)
  | 0x024 => some (tGet 0 tl.watch 0)
  | 0x025 => some (tGet 0 tl.watch 1)
  | 0x026 => some (tl.dbgCtl.setWidth 64)
  | _ => none

/-- The CSRs that no context may write (R148). -/
def csrReadOnly (n : Nat) : Bool := n = 0x000 || n = 0x001 || n = 0x002 || n = 0x018

/-- The bits of TRAPCAUSE that are fields (R366). -/
def trapCauseMask : Word := 0xFFFC0000FFFF0FFF

/-- A value that TRAPCAUSE takes: reserved bits are ignored, and RES code 3 leaves RES unchanged (R366). -/
def writeTrapCause (old v : Word) : Word :=
  let w := v &&& trapCauseMask
  if w.toNat / 2 ^ 10 % 4 = 3 then (w &&& ~~~0xC00#64) ||| (old &&& 0xC00#64) else w

/-- The bits of a breakpoint register that are fields (R375). -/
def bkptMask : Word := 0x800000000000FFFF

/-- Bits that survive a write of sticky fields: `keep` holds a 1 for each bit left unchanged (R186). -/
def EngineStatus.keep (st : EngineStatus) (keep : Word) : EngineStatus :=
  { fpage := st.fpage &&& keep.extractLsb' 12 52, eos := st.eos &&& keep.extractLsb' 8 4,
    opmBusy := st.opmBusy && keep.getLsbD 4, hfail := st.hfail && keep.getLsbD 3 }

/-- Frees every armed monitor entry (R335). -/
def Tile.disarm (tl : Tile) : Tile :=
  { tl with mon := tl.mon.foldl (fun m (k, e) => tSet .zero m k { e with armed := false }) tl.mon }

/-- Writes `MONSTAT`'s sticky fields, and frees the armed entries when DISARM is written as 1 (R335). -/
def writeMonstat (tl : Tile) (keep : Word) (disarm : Bool) : Tile :=
  let tl1 := { tl with fired := tl.fired &&& keep.extractLsb' 16 16, phDrop := tl.phDrop && keep.getLsbD 1,
                       monFull := tl.monFull && keep.getLsbD 0 }
  if disarm then tl1.disarm else tl1

/-- Writes a CSR: `v` is the value that `csrw`, `csrs` or `csrc` forms, and `keep` the sticky bits left unchanged.
A failing check leaves the CSR as it is (R148, R150, R186, R322, R353, R366, R377). -/
def csrWrite (s : State) (t : Nat) (n : Nat) (v keep : Word) (disarm : Bool) : Except Cause State :=
  let set (f : Tile → Tile) : Except Cause State := .ok (s.onTile t f)
  match n with
  | 0x003 => if 1 ≤ v.toNat && v.toNat ≤ 64 then set ({ · with drift := v.setWidth 7 }) else .error .RANGE
  | 0x008 => if v.toNat < 2 ^ 15 then set ({ · with trapVec := v.setWidth 15 }) else .error .RANGE
  | 0x009 => set fun tl => { tl with trapCause := writeTrapCause tl.trapCause v }
  | 0x00A => if v.toNat < 2 ^ 15 then set ({ · with trapPc := v.setWidth 15 }) else .error .RANGE
  | 0x00B => set ({ · with repIdx := v.setWidth 6 })
  | 0x010 => if v.toNat < 2 ^ 16 then set ({ · with subBatch := v.setWidth 16 }) else .error .RANGE
  | 0x011 =>
    if v.toNat < 64 && !gselReserved (v.setWidth 6) && s.groupFits t (v.setWidth 6) then
      set ({ · with groupMask := v.setWidth 6 })
    else .error .RANGE
  | 0x019 => set fun tl => { tl with fflags := tl.fflags &&& keep.setWidth 6 }
  | 0x01A => set fun tl => { tl with lstat := tl.lstat.keep keep }
  | 0x01B => set fun tl => { tl with sstat := tl.sstat.keep keep }
  | 0x01C => set fun tl => writeMonstat tl keep disarm
  | 0x020 => set fun tl => { tl with bkpt := tSet 0 tl.bkpt 0 (v &&& bkptMask) }
  | 0x021 => set fun tl => { tl with bkpt := tSet 0 tl.bkpt 1 (v &&& bkptMask) }
  | 0x022 => set fun tl => { tl with bkpt := tSet 0 tl.bkpt 2 (v &&& bkptMask) }
  | 0x023 => set fun tl => { tl with bkpt := tSet 0 tl.bkpt 3 (v &&& bkptMask) }
  | 0x024 => set fun tl => { tl with watch := tSet 0 tl.watch 0 v }
  | 0x025 => set fun tl => { tl with watch := tSet 0 tl.watch 1 v }
  | 0x026 => if v.toNat < 8 then set ({ · with dbgCtl := v.setWidth 3 }) else .error .RANGE
  | _ => .error .ILLOP

/-- An access to `FFLAGS` or `XSTAT` waits until X has retired every command that stands earlier in the text (R54,
R151). -/
def csrStalls (tl : Tile) (n : Nat) : Bool := (n = 0x018 || n = 0x019) && !tl.retiredToC .X

end Sys2Proof.Machine
end

