-- ==== Sys2Proof/Machine/Layout.lean ====
section
/-! DEFINITION. Tensor layout records: their fields, legality, element addresses and the checks at use (03 R72-R77, R37). -/

namespace Sys2Proof.Machine

open Sys2Proof

/-! ### Fields (R72) -/

/-- Bits [lo + w - 1 : lo] of a record. -/
def Tlr.bits (r : Tlr) (lo w : Nat) : Nat := r.toNat / 2 ^ lo % 2 ^ w

/-- The low `w` bits of a number as two's complement. -/
def signedOf (w v : Nat) : Int := if 2 ^ (w - 1) ≤ v then (v : Int) - 2 ^ w else (v : Int)

def Tlr.base (r : Tlr) : Word := BitVec.ofNat 64 (Tlr.bits r 0 64)
def Tlr.fmt (r : Tlr) : Nat := Tlr.bits r 64 4
def Tlr.rank (r : Tlr) : Nat := Tlr.bits r 68 3
def Tlr.bim (r : Tlr) : Nat := Tlr.bits r 72 4
def Tlr.fillm (r : Tlr) : Nat := Tlr.bits r 76 4
def Tlr.fill (r : Tlr) : Nat := Tlr.bits r 96 32
def Tlr.ext (r : Tlr) (d : Nat) : Nat := Tlr.bits r (128 + 24 * d) 24
def Tlr.str (r : Tlr) (d : Nat) : Int := signedOf 32 (Tlr.bits r (272 + 32 * d) 32)
def Tlr.org (r : Tlr) (d : Nat) : Int := signedOf 24 (Tlr.bits r (464 + 24 * d) 24)
def Tlr.win (r : Tlr) (d : Nat) : Nat := Tlr.bits r (608 + 16 * d) 16
def Tlr.shift (r : Tlr) : Nat := Tlr.bits r 704 8
def Tlr.logb (r : Tlr) : Nat := Tlr.bits r 712 4
def Tlr.mask (r : Tlr) : Nat := Tlr.bits r 720 16

/-- Dimensions in use: RANK plus one. -/
def Tlr.dims (r : Tlr) : Nat := Tlr.rank r + 1

/-- The first bit and the width of a field code (R176); none for an unassigned code. -/
def fieldSpan (f : BitVec 6) : Option (Nat × Nat) :=
  let n := f.toNat
  if n = 0 then some (0, 64)
  else if n = 1 then some (64, 4)
  else if n = 2 then some (68, 3)
  else if n = 3 then some (72, 4)
  else if n = 4 then some (76, 4)
  else if n = 5 then some (96, 32)
  else if n = 6 then some (704, 8)
  else if n = 7 then some (712, 4)
  else if n = 8 then some (720, 16)
  else if 0x10 ≤ n && n ≤ 0x15 then some (128 + 24 * (n - 0x10), 24)
  else if 0x18 ≤ n && n ≤ 0x1D then some (272 + 32 * (n - 0x18), 32)
  else if 0x20 ≤ n && n ≤ 0x25 then some (464 + 24 * (n - 0x20), 24)
  else if 0x28 ≤ n && n ≤ 0x2D then some (608 + 16 * (n - 0x28), 16)
  else none

/-- The fields that `tlget` sign-extends: the strides and the origins (R176). -/
def fieldSigned (f : BitVec 6) : Bool :=
  (0x18 ≤ f.toNat && f.toNat ≤ 0x1D) || (0x20 ≤ f.toNat && f.toNat ≤ 0x25)

/-- A record with a run of bits replaced by the low bits of a value. -/
def Tlr.put (r : Tlr) (lo w v : Nat) : Tlr :=
  BitVec.ofNat 768 (r.toNat - Tlr.bits r lo w * 2 ^ lo + v % 2 ^ w * 2 ^ lo)

/-- Writes a field from the low bits of a register (R177). -/
def Tlr.setField (r : Tlr) (f : BitVec 6) (v : Word) : Tlr :=
  match fieldSpan f with
  | none => r
  | some (lo, w) => Tlr.put r lo w v.toNat

/-- Reads a field, extended as R176 states. -/
def Tlr.getField (r : Tlr) (f : BitVec 6) : Word :=
  match fieldSpan f with
  | none => 0
  | some (lo, w) =>
    if fieldSigned f then BitVec.ofInt 64 (signedOf w (Tlr.bits r lo w)) else BitVec.ofNat 64 (Tlr.bits r lo w)

/-! ### Legality (R73) -/

/-- The width of an element in bits (R34; an i3 element has a 4-bit container, R37). -/
def elemBits (fmt : Nat) : Nat :=
  match fmt with
  | 0 | 12 | 13 => 32
  | 1 | 2 | 11 => 16
  | 5 | 9 | 10 => 4
  | 14 => 64
  | _ => 8

/-- The formats that pack two elements to a byte (R37). -/
def isNibble (fmt : Nat) : Bool := fmt = 5 || fmt = 9 || fmt = 10

/-- The element size in bytes for addresses and alignment; 1 for the 4-bit formats (R75, R77). -/
def elemBytes (fmt : Nat) : Nat := if isNibble fmt then 1 else elemBits fmt / 8

/-- The formats that have a NaN (R34). -/
def hasNan (fmt : Nat) : Bool := fmt ≤ 4 || fmt = 6

/-- The canonical NaN of a format (R36). -/
def canonicalNan (fmt : Nat) : Nat :=
  match fmt with
  | 0 => 0x7FC00000
  | 1 => 0x7FC0
  | 2 => 0x7E00
  | 3 => 0x7F
  | 4 => 0x7E
  | 6 => 0xFF
  | _ => 0

/-- The bank-interleave fields are legal (R73). -/
def Tlr.interleaveOk (r : Tlr) : Bool :=
  let sp := spaceOf (Tlr.base r)
  let plain := Tlr.bim r = 0 && Tlr.shift r = 0 && Tlr.logb r = 0 && Tlr.mask r = 0
  if sp = 0 || sp = 11 then plain
  else match Tlr.bim r with
    | 0 => plain
    | 1 => Tlr.mask r = 0 && Tlr.logb r ≤ 5 && 6 + Tlr.logb r ≤ Tlr.shift r && Tlr.shift r + Tlr.logb r ≤ 16
             && (sp ≠ 10 || Tlr.shift r + Tlr.logb r ≤ 14)
    | 2 => Tlr.logb r ≤ 5 && 11 ≤ Tlr.shift r && Tlr.shift r ≤ 20
    | _ => false

/-- A record that breaks no rule of R73 and has no reserved field set. -/
def Tlr.legal (r : Tlr) : Bool :=
  Tlr.rank r ≤ 5
    && Tlr.bits r 736 32 = 0 && Tlr.bits r 716 4 = 0 && Tlr.bits r 80 16 = 0 && Tlr.bits r 71 1 = 0
    && (List.range 6).all (fun d =>
      if d < Tlr.dims r then Tlr.ext r d ≠ 0 && Tlr.win r d ≠ 0
      else Tlr.ext r d = 0 && Tlr.str r d = 0 && Tlr.org r d = 0 && Tlr.win r d = 0)
    && Tlr.interleaveOk r
    && Tlr.fillm r ≤ 3
    && (Tlr.fillm r ≠ 3 || hasNan (Tlr.fmt r))

/-! ### Elements (R74-R76) -/

/-- Exchanges two bit fields of `n` bits at `lo` and `hi` (R76). -/
def swapFields (v lo hi n : Nat) : Nat :=
  let a := v / 2 ^ lo % 2 ^ n
  let b := v / 2 ^ hi % 2 ^ n
  v - a * 2 ^ lo - b * 2 ^ hi + b * 2 ^ lo + a * 2 ^ hi

/-- The bank of an offset under XOR fold: h of R76, cut to LOGB bits. -/
def foldHash (r : Tlr) (off : Nat) : Nat :=
  let m := Nat.land (off / 2 ^ Tlr.shift r % 2 ^ 16) (Tlr.mask r)
  Nat.xor (Nat.xor (m % 32) (m / 32 % 32)) (Nat.xor (m / 1024 % 32) (m / 32768 % 2)) % 2 ^ Tlr.logb r

/-- `Swizzle` (R76). -/
def swizzle (r : Tlr) (off : Nat) : Nat :=
  match Tlr.bim r with
  | 1 => if Tlr.logb r = 0 then off else swapFields off 6 (Tlr.shift r) (Tlr.logb r)
  | 2 =>
    let bank := off / 64 % 32
    off - bank * 64 + Nat.xor bank (foldHash r off) * 64
  | _ => off

/-- The offset field of BASE in its space. -/
def spaceOffset (a : Word) : Nat :=
  match spaceOf a with
  | 0 => a.toNat
  | 11 => windowOf a
  | _ => offsetOf a

/-- What a window element resolves to (R75): nothing for a write, a fill value for a read, or a place: a byte offset
in BASE's space, and a nibble for the 4-bit formats. -/
inductive Elem where
  | discard
  | value (bits : Nat)
  | place (off : Nat) (nib : Nat)
  deriving DecidableEq, Repr

/-- Coordinates of a window index: `d` counts from the innermost dimension. -/
def Tlr.coords (r : Tlr) (w : List Nat) : List Int :=
  (List.range (Tlr.dims r)).map fun d => Tlr.org r d + ((w[d]?).getD 0 : Nat)

/-- Coordinates inside the tensor (R75). -/
def Tlr.inside (r : Tlr) (cs : List Int) : Bool :=
  (List.range (Tlr.dims r)).all fun d => let v := (cs[d]?).getD 0; 0 ≤ v && v < (Tlr.ext r d : Int)

/-- The element number of coordinates: exact, in elements (R75). -/
def Tlr.elemIndex (r : Tlr) (cs : List Int) : Int :=
  ((List.range (Tlr.dims r)).map fun d => (cs[d]?).getD 0 * Tlr.str r d).foldl (· + ·) 0

/-- The place of an element number. A record that has passed R77 gives no negative offset. -/
def Tlr.placeOf (r : Tlr) (e : Int) : Elem :=
  let b : Int := spaceOffset (Tlr.base r)
  if isNibble (Tlr.fmt r) then .place (swizzle r (b + e / 2).toNat) (e % 2).toNat
  else .place (swizzle r (b + e * elemBytes (Tlr.fmt r)).toNat) 0

/-- The fill bits of FILL for a format (R75). -/
def fillBits (fmt fill : Nat) : Nat :=
  match fmt with
  | 14 => (signedOf 32 fill % 2 ^ 64).toNat
  | _ => fill % 2 ^ elemBits fmt

/-- The value that FILL supplies to a read outside the tensor; clamping takes none (R75). -/
def Tlr.fillValue (r : Tlr) : Nat :=
  match Tlr.fillm r with
  | 1 => fillBits (Tlr.fmt r) (Tlr.fill r)
  | 3 => canonicalNan (Tlr.fmt r)
  | _ => 0

/-- Coordinates clamped to the tensor (R75). -/
def Tlr.clamp (r : Tlr) (cs : List Int) : List Int :=
  (List.range (Tlr.dims r)).map fun d => min (max ((cs[d]?).getD 0) 0) ((Tlr.ext r d : Int) - 1)

/-- Resolves coordinates for a read or a write (R75). -/
def Tlr.resolveAt (r : Tlr) (c : List Int) (write : Bool) : Elem :=
  if Tlr.inside r c then Tlr.placeOf r (Tlr.elemIndex r c)
  else if write then .discard
  else if Tlr.fillm r = 2 then Tlr.placeOf r (Tlr.elemIndex r (Tlr.clamp r c))
  else .value (Tlr.fillValue r)

/-- Resolves a window element (R75). -/
def Tlr.resolve (r : Tlr) (w : List Nat) (write : Bool) : Elem := Tlr.resolveAt r (Tlr.coords r w) write

/-- The number of window elements. -/
def Tlr.count (r : Tlr) : Nat := ((List.range (Tlr.dims r)).map (Tlr.win r)).foldl (· * ·) 1

/-- The window index of element `k` in walk order, w0 innermost (R74). -/
def walkFrom : List Nat → Nat → List Nat
  | [], _ => []
  | n :: ns, k => (if n = 0 then 0 else k % n) :: walkFrom ns (if n = 0 then 0 else k / n)

/-- The window index of element `k` of a record. -/
def Tlr.walk (r : Tlr) (k : Nat) : List Nat := walkFrom ((List.range (Tlr.dims r)).map (Tlr.win r)) k

/-- Element `k` in walk order, resolved. -/
def Tlr.elem (r : Tlr) (k : Nat) (write : Bool) : Elem := Tlr.resolve r (Tlr.walk r k) write

/-- At least one window element lies outside the tensor (R178). -/
def Tlr.ragged (r : Tlr) : Bool :=
  (List.range (Tlr.dims r)).any fun d =>
    Tlr.org r d < 0 || (Tlr.ext r d : Int) < Tlr.org r d + (Tlr.win r d : Int)

/-! ### Bounding addresses and the checks at use (R77) -/

/-- A box of coordinates, inclusive, from the innermost dimension. -/
abbrev Box := List (Int × Int)

/-- The coordinates that a dimension of the window reaches inside the tensor, inclusive; empty if the first is the
greater. A clamped read reaches the edge element. -/
def Tlr.boxDim (r : Tlr) (read : Bool) (d : Nat) : Int × Int :=
  let lo := Tlr.org r d
  let hi := Tlr.org r d + (Tlr.win r d : Int) - 1
  let top := (Tlr.ext r d : Int) - 1
  if read && Tlr.fillm r = 2 then (min (max lo 0) top, min (max hi 0) top) else (max lo 0, min hi top)

/-- The box that reaches the whole extent in the dimensions below `whole` but not in dimensions below `from_`, and the
window in the others; none if it is empty. -/
def Tlr.boxOf (r : Tlr) (read : Bool) (from_ whole : Nat) : Option Box :=
  let b := (List.range (Tlr.dims r)).map fun d =>
    if from_ ≤ d && d < whole then (0, (Tlr.ext r d : Int) - 1) else Tlr.boxDim r read d
  if b.all (fun p => p.1 ≤ p.2) then some b else none

/-- The box of coordinates that the window reaches inside the tensor; none if it reaches none. -/
def Tlr.windowBox (r : Tlr) (read : Bool) : Option Box := Tlr.boxOf r read 0 0

/-- The least and greatest byte offsets of a box in BASE's space, before the swizzle; they lie at its corners. -/
def Tlr.span (r : Tlr) (b : Box) : Int × Int :=
  let ends := (List.range (Tlr.dims r)).map fun d =>
    let p := (b[d]?).getD (0, 0)
    (min (p.1 * Tlr.str r d) (p.2 * Tlr.str r d), max (p.1 * Tlr.str r d) (p.2 * Tlr.str r d))
  let lo := (ends.map (·.1)).foldl (· + ·) 0
  let hi := (ends.map (·.2)).foldl (· + ·) 0
  let o : Int := spaceOffset (Tlr.base r)
  if isNibble (Tlr.fmt r) then (o + lo / 2, o + hi / 2)
  else
    let z : Int := elemBytes (Tlr.fmt r)
    (o + lo * z, o + hi * z + z - 1)

/-- The OPM windows of R69: first offset and size. -/
def opmWindows : List (Nat × Nat) :=
  [(0, 0x200000), (0x200000, 0x10000), (0x210000, 0x4000), (0x214000, 0x8000), (0x21C000, 0x100), (0x21C800, 0x600),
   (0x21D000, 0x1000), (0x21E000, 0x1000), (0x220000, 0xA0), (0x220100, 0x100), (0x220200, 0x200), (0x220800, 0x800),
   (0x221000, 0x800), (0x221800, 0x100), (0x240000, 0x10000)]

/-- An OPM window holds an offset (R68, R69). -/
def inOpmWindow (o : Int) : Bool := opmWindows.any fun (b, n) => (b : Int) ≤ o && o < (b + n : Nat)

/-- The spaces that an engine may dereference (R63). -/
def spacePermitted (e : Engine) (sp : Nat) : Bool :=
  match e with
  | .C => sp = 0 || sp = 8 || sp = 9 || sp = 10
  | .L | .S => sp = 0 || sp = 8 || sp = 9 || sp = 10 || sp = 11
  | .X => sp = 8

/-- Orders 1 to 4 of R77. `remote` exempts the far side of `ldr` and `strm` from SPOWN (R264). -/
def checkBase (s : State) (t : Nat) (e : Engine) (r : Tlr) (remote : Bool) : Except Cause Unit :=
  let b := Tlr.base r
  if !Tlr.legal r then .error .RSVD
  else if !canonical b || !spacePermitted e (spaceOf b) then .error .ASPACE
  else if spaceOf b = 8 && !remote && ownerOf b ≠ (s.tile t).tileId.toNat then .error .SPOWN
  else if b.toNat % elemBytes (Tlr.fmt r) ≠ 0 then .error .ALIGN
  else .ok ()

/-- The byte offsets of the elements of a box, in a space whose records do not swizzle (R73). -/
def Tlr.boxOffsets (r : Tlr) (b : Box) : List Int :=
  let units := (List.range (Tlr.dims r)).foldl (fun (us : List Int) d =>
    let p := (b[d]?).getD (0, 0)
    us.flatMap fun u => (List.range (p.2 - p.1 + 1).toNat).map fun (i : Nat) => u + (p.1 + i) * Tlr.str r d) [0]
  units.map fun (u : Int) => (spaceOffset (Tlr.base r) : Int) + if isNibble (Tlr.fmt r) then u / 2 else u * elemBytes (Tlr.fmt r)

/-- No element of a box lies between the OPM windows (R68): its bounds lie in one window, or each element lies in one. -/
def opmBoxOk (r : Tlr) (b : Box) (lo hi : Int) : Bool :=
  (opmWindows.any fun (o, n) => (o : Int) ≤ lo && hi < (o + n : Nat))
    || (inOpmWindow lo && inOpmWindow hi
      && (Tlr.boxOffsets r b).all fun o => inOpmWindow o && inOpmWindow (o + elemBytes (Tlr.fmt r) - 1))

/-- Order 5 of R77 for the bounding offsets of a box. -/
def checkSpan (r : Tlr) (b : Box) (lo hi : Int) : Except Cause Unit :=
  let sp := spaceOf (Tlr.base r)
  if lo < 0 then .error .RANGE
  else if sp = 0 then (if 2 ^ 60 ≤ hi then .error .RANGE else .ok ())
  else if sp = 10 then (if 0x4000 ≤ hi then .error .RANGE else .ok ())
  else if sp = 11 then (if opmBoxOk r b lo hi then .ok () else .error .RANGE)
  else if (scratchSize : Int) ≤ hi then .error .RANGE else .ok ()

/-- Order 6 of R77: the private band, the tile, and the OPM condition of R70. -/
def checkPlace (s : State) (t : Nat) (r : Tlr) (remote : Bool) (hi : Int) : Except Cause Unit :=
  let b := Tlr.base r
  let sp := spaceOf b
  if (sp = 8 || sp = 9) && (bandStart : Int) ≤ hi then .error .PERM
  else if sp = 8 && remote && (s.tileOfRel t (ownerOf b)).isNone then .error .PERM
  else if sp = 9 && (s.tileAtPos t (dieRowOf b) (dieColOf b)).isNone then .error .PERM
  else if sp = 11 && (s.tileOfRel t (ownerOf b)).isNone then .error .PERM
  else if sp = 11 && (scratchSize : Int) ≤ hi && (elemBits (Tlr.fmt r) ≠ 64 || b.toNat % 8 ≠ 0) then .error .ALIGN
  else .ok ()

/-- The checks of R77 over a box; a host handle takes R270 in place of order 5. DESIGN CHOICE (log 15): R77 draws the bounding
addresses from the clipped box, and does not say whether order 6 judges the tile of a record whose box is empty; orders 5
and 6 are passed over for one. -/
def checkRecordBox (s : State) (t : Nat) (e : Engine) (r : Tlr) (remote host : Bool) (box : Option Box) :
    Except Cause Unit := do
  checkBase s t e r remote
  match box with
  | none => .ok ()
  | some b =>
    let (lo, hi) := Tlr.span r b
    if !host then checkSpan r b lo hi
    checkPlace s t r remote hi

/-- The checks of R77 over the window, for a read or a write. -/
def checkRecord (s : State) (t : Nat) (e : Engine) (r : Tlr) (remote host read : Bool) : Except Cause Unit :=
  checkRecordBox s t e r remote host (Tlr.windowBox r read)

/-- A check of a record as a command raises it. -/
def liftCause {α : Type} : Except Cause α → Res α
  | .ok v => .ok v
  | .error c => trap c

/-- The home of a byte offset in the space of a record's BASE, for an engine of tile `t`. -/
def homeOfOffset (s : State) (t : Nat) (e : Engine) (b : Word) (off : Nat) : Home :=
  match spaceOf b with
  | 8 => .scratch ((s.tileOfRel t (ownerOf b)).getD t) off
  | 9 => .scratch ((s.tileAtPos t (dieRowOf b) (dieColOf b)).getD t) off
  | 10 => .scratch t (privateBase e + off)
  | 11 => if off < scratchSize then .scratch ((s.tileOfRel t (ownerOf b)).getD t) off
          else .opm ((s.tileOfRel t (ownerOf b)).getD t) off
  | _ => .global off

/-- The byte intervals of the tile's own scratchpad that a record's box covers, for the range checker (R142):
widened to 64 KiB blocks when the record swizzles. First offset and end. -/
def ownInterval (s : State) (t : Nat) (e : Engine) (r : Tlr) (box : Option Box) : List (Nat × Nat) :=
  match box with
  | none => []
  | some b =>
    let (lo, hi) := Tlr.span r b
    match homeOfOffset s t e (Tlr.base r) lo.toNat with
    | .scratch u o =>
      if u ≠ t then []
      else
        let e1 := min (o + (hi - lo).toNat + 1) scratchSize
        if Tlr.bim r = 0 then [(o, e1)] else [(o / 65536 * 65536, (e1 + 65535) / 65536 * 65536)]
    | _ => []

end Sys2Proof.Machine
end

