-- ==== Sys2Proof/Machine/LoadStore.lean ====
section
/-! DEFINITION. The scalar loads and stores of C (07 R168-R171). -/

namespace Sys2Proof.Machine

open Sys2Proof

/-- The effective address: the base plus the signed displacement in units of the access size, plus what a `rep`
with SA adds (R169, R184). -/
def scalarEa (base : Word) (size : BitVec 2) (disp : BitVec 4) (k : Nat) : Word :=
  base + (disp.signExtend 64) * (BitVec.ofNat 64 (2 ^ size.toNat)) + BitVec.ofNat 64 (k * 2 ^ size.toNat)

/-- A value of `n` bytes extended to a register (R169). -/
def extendTo (signed : Bool) (n v : Nat) : Word :=
  if signed && 2 ^ (8 * n - 1) ≤ v then BitVec.ofInt 64 ((v : Int) - 2 ^ (8 * n)) else BitVec.ofNat 64 v

/-- A scalar load (R169): the checks, the read, the acquire, the register. -/
def loadBody (signed : Bool) (d a : BitVec 5) (oc : BitVec 4) (ar : BitVec 1) (size : BitVec 2) (disp : BitVec 4) (k : Nat)
    (t : Nat) (s : State) : Res State := do
  checkLinks t [a] [d] s
  let (va, s1) ← readReg t a s
  let n := 2 ^ size.toNat
  let (h, s2) ← cAccess s1 t (scalarEa va size disp k) n n true false
  let v ← cRead s2 t h n
  let s3 := s2.viaPort t h n false oc
  writeReg t d (extendTo signed n v) (if ar = 1 then acquire s3 t else s3)

/-- `ld`, sign-extending (R168, R169). -/
def ldBody (d a : BitVec 5) (oc : BitVec 4) (ar : BitVec 1) (_scope : BitVec 3) (size : BitVec 2) (disp : BitVec 4)
    (k : Nat) (t : Nat) (s : State) : Res State := loadBody true d a oc ar size disp k t s

/-- `ld` (R169). -/
def execLd (d a : BitVec 5) (oc : BitVec 4) (ar : BitVec 1) (scope : BitVec 3) (size : BitVec 2) (disp : BitVec 4)
    (s : State) : Out := runC s (ldBody d a oc ar scope size disp 0)

/-- `ldz`, zero-extending (R168, R169). -/
def ldzBody (d a : BitVec 5) (oc : BitVec 4) (ar : BitVec 1) (_scope : BitVec 3) (size : BitVec 2) (disp : BitVec 4)
    (k : Nat) (t : Nat) (s : State) : Res State := loadBody false d a oc ar size disp k t s

/-- `ldz` (R169). -/
def execLdz (d a : BitVec 5) (oc : BitVec 4) (ar : BitVec 1) (scope : BitVec 3) (size : BitVec 2) (disp : BitVec 4)
    (s : State) : Out := runC s (ldzBody d a oc ar scope size disp 0)

/-- The sources and the home of a store: address, data, state after the sources are read (R163, R169). -/
def storeSource (d a : BitVec 5) (size : BitVec 2) (disp : BitVec 4) (k : Nat) (t : Nat) (s : State) :
    Res (Home × Word × State) := do
  let (va, s1) ← readReg t a s
  let (vd, s2) ← readReg t d s1
  let n := 2 ^ size.toNat
  let (h, s3) ← cAccess s2 t (scalarEa va size disp k) n n false true
  .ok (h, vd, s3)

/-- A scalar store (R169): the checks, then its release if it has one, then the write. -/
def stBody (d a : BitVec 5) (oc : BitVec 4) (ar : BitVec 1) (scope : BitVec 3) (size : BitVec 2) (disp : BitVec 4)
    (k : Nat) (t : Nat) (s : State) : Res State := do
  checkLinks t [a, d] [] s
  let _ ← storeSource d a size disp k t s
  let s1 ← if ar = 1 then release s t scope.toNat else .ok s
  let (h, v, s2) ← storeSource d a size disp k t s1
  cWrite s2 t h (2 ^ size.toNat) v.toNat oc

/-- `st` (R169). -/
def execSt (d a : BitVec 5) (oc : BitVec 4) (ar : BitVec 1) (scope : BitVec 3) (size : BitVec 2) (disp : BitVec 4)
    (s : State) : Out := runC s (stBody d a oc ar scope size disp 0)

end Sys2Proof.Machine
end

