-- ==== Sys2Proof/Machine/Atomics.lean ====
section
/-! DEFINITION. The atomics of C (13 R318, R319, 12 R310, R311). -/

namespace Sys2Proof.Machine

open Sys2Proof

/-- The access size in bytes: 4 for a word, 8 for a doubleword (R318). -/
def atomicSize (dbl : BitVec 1) : Nat := if dbl = 1 then 8 else 4

/-- The low `w` bits of a number read as two's complement. -/
def toSigned (w v : Nat) : Int := if 2 ^ (w - 1) ≤ v % 2 ^ w then (v % 2 ^ w : Int) - 2 ^ w else (v % 2 ^ w : Int)

/-- The operand of an atomic is its rd field, read after rs1 (R163, R318). -/
def operandReg (d : BitVec 5) (t : Nat) (s : State) : Res (Word × State) := readReg t d s

/-- The operand of `amotas` is ignored, and not read (R319). -/
def noOperand (_ : Nat) (s : State) : Res (Word × State) := .ok (0, s)

/-- The address, home and operand of an atomic, with every check of R169 for a read and a write. -/
def atomicSource (a : BitVec 5) (n : Nat) (operand : Nat → State → Res (Word × State)) (t : Nat) (s : State) :
    Res (Home × Word × State) := do
  let (va, s1) ← readReg t a s
  let (v, s2) ← operand t s1
  let (h, s3) ← cAccess s2 t va n n true true
  .ok (h, v, s3)

/-- The indivisible read and write at the home (R310, R319): both permissions are needed, poison writes nothing. -/
def atomicAt (s : State) (t : Nat) (h : Home) (n : Nat) (cls : BitVec 4) (f : Nat → Nat) : Res (Nat × State) :=
  match h with
  | .scratch u off =>
    if poisoned (s.tile u).poison off n 64 || (s.tile u).pubsBad then trap .MEMERR
    else
      let m := bytesNat ((s.tile u).scratch.readBytes off n)
      .ok (m, scratchWrite s u off (natBytes n (f m)) cls true false)
  | .global va => match translateFor s t va n true true with
    | .error (.refuse c) => trap c
    | .error (.page _) => cPage s t va
    | .error .busy => .error .stall
    | .ok r => match routeRead s r n with
      | .error _ => trap .MEMERR
      | .ok bs => .ok (bytesNat bs, routeWrite ((s.viaPort t h n false cls).viaPort t h n true cls) ((s.tile t).owner.getD 0)
          (.engine t .C 0) cls r (natBytes n (f (bytesNat bs))))
  | .opm _ _ => trap .ASPACE

/-- An atomic (R319), which reads these register fields: AR makes it a release and an acquire, and the release has
closed the batches; the old value, sign-extended, goes to rd. -/
def atomicBody (d a : BitVec 5) (oc : BitVec 4) (ar : BitVec 1) (scope : BitVec 3) (dbl : BitVec 1)
    (reads : List (BitVec 5)) (operand : Nat → State → Res (Word × State)) (op : Nat → Nat → Nat → Nat) (t : Nat)
    (s : State) : Res State := do
  let n := atomicSize dbl
  checkLinks t reads [d] s
  let _ ← atomicSource a n operand t s
  let s1 ← if ar = 1 then release s t scope.toNat else .ok s
  let (h, v, s2) ← atomicSource a n operand t s1
  let (m, s3) ← atomicAt s2 t h n oc fun m => op (8 * n) m (v.toNat % 2 ^ (8 * n))
  writeReg t d (extendTo true n m) s3

/-- The new value of `amoadd` (R319). -/
def amoaddOp (_w m v : Nat) : Nat := m + v

/-- `amoadd` (R319). -/
def execAmoadd (d a : BitVec 5) (oc : BitVec 4) (ar : BitVec 1) (scope : BitVec 3) (dbl : BitVec 1) (s : State) : Out :=
  runC s (atomicBody d a oc ar scope dbl [a, d] (operandReg d) amoaddOp)

/-- The new value of `amomin` (R319). -/
def amominOp (w m v : Nat) : Nat := if toSigned w m < toSigned w v then m else v

/-- `amomin` (R319). -/
def execAmomin (d a : BitVec 5) (oc : BitVec 4) (ar : BitVec 1) (scope : BitVec 3) (dbl : BitVec 1) (s : State) : Out :=
  runC s (atomicBody d a oc ar scope dbl [a, d] (operandReg d) amominOp)

/-- The new value of `amomax` (R319). -/
def amomaxOp (w m v : Nat) : Nat := if toSigned w m < toSigned w v then v else m

/-- `amomax` (R319). -/
def execAmomax (d a : BitVec 5) (oc : BitVec 4) (ar : BitVec 1) (scope : BitVec 3) (dbl : BitVec 1) (s : State) : Out :=
  runC s (atomicBody d a oc ar scope dbl [a, d] (operandReg d) amomaxOp)

/-- The new value of `aminx` (R319). -/
def aminxOp (_w m v : Nat) : Nat := if m < v then m else v

/-- `aminx` (R319). -/
def execAminx (d a : BitVec 5) (oc : BitVec 4) (ar : BitVec 1) (scope : BitVec 3) (dbl : BitVec 1) (s : State) : Out :=
  runC s (atomicBody d a oc ar scope dbl [a, d] (operandReg d) aminxOp)

/-- The new value of `amaxx` (R319). -/
def amaxxOp (_w m v : Nat) : Nat := if m < v then v else m

/-- `amaxx` (R319). -/
def execAmaxx (d a : BitVec 5) (oc : BitVec 4) (ar : BitVec 1) (scope : BitVec 3) (dbl : BitVec 1) (s : State) : Out :=
  runC s (atomicBody d a oc ar scope dbl [a, d] (operandReg d) amaxxOp)

/-- The new value of `amoand` (R319). -/
def amoandOp (_w m v : Nat) : Nat := Nat.land m v

/-- `amoand` (R319). -/
def execAmoand (d a : BitVec 5) (oc : BitVec 4) (ar : BitVec 1) (scope : BitVec 3) (dbl : BitVec 1) (s : State) : Out :=
  runC s (atomicBody d a oc ar scope dbl [a, d] (operandReg d) amoandOp)

/-- The new value of `amoor` (R319). -/
def amoorOp (_w m v : Nat) : Nat := Nat.lor m v

/-- `amoor` (R319). -/
def execAmoor (d a : BitVec 5) (oc : BitVec 4) (ar : BitVec 1) (scope : BitVec 3) (dbl : BitVec 1) (s : State) : Out :=
  runC s (atomicBody d a oc ar scope dbl [a, d] (operandReg d) amoorOp)

/-- The new value of `amoxor` (R319). -/
def amoxorOp (_w m v : Nat) : Nat := Nat.xor m v

/-- `amoxor` (R319). -/
def execAmoxor (d a : BitVec 5) (oc : BitVec 4) (ar : BitVec 1) (scope : BitVec 3) (dbl : BitVec 1) (s : State) : Out :=
  runC s (atomicBody d a oc ar scope dbl [a, d] (operandReg d) amoxorOp)

/-- The new value of `amoswp` (R319). -/
def amoswpOp (_w _m v : Nat) : Nat := v

/-- `amoswp` (R319). -/
def execAmoswp (d a : BitVec 5) (oc : BitVec 4) (ar : BitVec 1) (scope : BitVec 3) (dbl : BitVec 1) (s : State) : Out :=
  runC s (atomicBody d a oc ar scope dbl [a, d] (operandReg d) amoswpOp)

/-- The new value of `amotas` (R319). -/
def amotasOp (_w _m _v : Nat) : Nat := 1

/-- `amotas` (R319). -/
def execAmotas (d a : BitVec 5) (oc : BitVec 4) (ar : BitVec 1) (scope : BitVec 3) (dbl : BitVec 1) (s : State) : Out :=
  runC s (atomicBody d a oc ar scope dbl [a] noOperand amotasOp)

/-- The new value of `amocas`: the pair's second register where the old value equals the operand (R319). -/
def amocasOp (x : Word) (w m v : Nat) : Nat := if m = v then x.toNat % 2 ^ w else m

/-- The operands of `amocas`: both registers of the pair are read, and the value is rd's (R319, R380). -/
def pairOperand (d : BitVec 5) (t : Nat) (s : State) : Res (Word × State) := do
  let (v, s1) ← readReg t d s
  check (!(s.tile t).badAt (opmX (d.toNat + 1)) 8) .MEMERR
  .ok (v, s1)

/-- `amocas` uses the pair rd, rd + 1: an odd rd, or one above 26, is ILLOP before the checks of R169 (R319). -/
def amocasBody (d a : BitVec 5) (oc : BitVec 4) (ar : BitVec 1) (scope : BitVec 3) (dbl : BitVec 1) (t : Nat)
    (s : State) : Res State := do
  check (d.toNat % 2 = 0 && d.toNat ≤ 26) .ILLOP
  atomicBody d a oc ar scope dbl [a, d] (pairOperand d) (amocasOp ((s.tile t).xreg (d.toNat + 1))) t s

/-- `amocas` (R319). -/
def execAmocas (d a : BitVec 5) (oc : BitVec 4) (ar : BitVec 1) (scope : BitVec 3) (dbl : BitVec 1) (s : State) : Out :=
  runC s (amocasBody d a oc ar scope dbl)

end Sys2Proof.Machine
end

