-- ==== Sys2Proof/Machine/Operands.lean ====
section
/-! DEFINITION. The operand forms of C instructions (07 R162, R163): the sources are read in the order rs1, rs2, rd, every
link check before the first word is popped, and the destination is written last. -/

namespace Sys2Proof.Machine

open Sys2Proof

/-- No register source: a value of the tile's own state goes to rd. -/
def r0 (d : BitVec 5) (f : Tile → Word) (t : Nat) (s : State) : Res State := do
  checkLinks t [] [d] s
  writeReg t d (f (s.tile t)) s

/-- One register source. -/
def r1 (d a : BitVec 5) (f : Word → Word) (t : Nat) (s : State) : Res State := do
  checkLinks t [a] [d] s
  let (va, s1) ← readReg t a s
  writeReg t d (f va) s1

/-- Two register sources. -/
def rr (d a b : BitVec 5) (f : Word → Word → Word) (t : Nat) (s : State) : Res State := do
  checkLinks t [a, b] [d] s
  let (va, s1) ← readReg t a s
  let (vb, s2) ← readReg t b s1
  writeReg t d (f va vb) s2

/-- Three register sources: rs1, rs2 and the old rd. -/
def rrd (d a b : BitVec 5) (f : Word → Word → Word → Word) (t : Nat) (s : State) : Res State := do
  checkLinks t [a, b, d] [d] s
  let (va, s1) ← readReg t a s
  let (vb, s2) ← readReg t b s1
  let (vd, s3) ← readReg t d s2
  writeReg t d (f va vb vd) s3

end Sys2Proof.Machine
end

