-- ==== Sys2Proof/Machine/Sync.lean ====
section
/-! DEFINITION. Fences, barriers, transfer phases, address waits, the stage ring and `renq` (13 R320-R339). -/

namespace Sys2Proof.Machine

open Sys2Proof

/-! ### Fences (R320, R321) -/

/-- `fence`: the batches leave, and C waits until its earlier accesses in the classes are performed at the scope (R307,
R321). -/
def fenceBody (scope : BitVec 3) (mask : BitVec 16) (t : Nat) (s : State) : Res State :=
  releaseC s t [.C] mask scope.toNat

/-- `fence` (R321). -/
def execFence (scope : BitVec 3) (mask : BitVec 16) (s : State) : Out := runC s (fenceBody scope mask)

/-! ### Barriers (R323-R325) -/

/-- A GSEL with which a tile has not arrived. -/
def Arrival.none : Arrival := { count := 0, waiting := false, done := false, bart := false, scope := 0, stamp := 0 }

/-- The checks of a barrier word (R112, R323, R327). -/
def barChecks (s : State) (t : Nat) (gsel : BitVec 6) (bart : Bool) : Res Unit := do
  check (!gselReserved gsel) .ILLOP
  match (s.tile t).phase with
  | Option.none => .ok ()
  | some g => check (!bart && g = gsel) .ILLOP
  check (s.groupFits t gsel) .RANGE

/-- L, X and S have reached the barrier word and completed what they issued before it, notes included (R267, R325). -/
def Tile.drainedToC (tl : Tile) : Bool := tl.retiredToC .L && tl.retiredToC .X && tl.retiredToC .S && tl.notes.isEmpty

/-- No command of L, X or S is in flight (R327). -/
def Tile.noneInFlight (tl : Tile) : Bool := (tl.qL ++ tl.qX ++ tl.qS).all fun q => !q.inFlight

/-- Every word the tile has sent or forwarded has entered the neighbour's input (R331). -/
def Tile.wiresEmpty (tl : Tile) : Bool := (List.range 4).all fun d => (tGet [] tl.linkOut d).isEmpty

/-- C arrives (R324, R325): its release has been made and its batches have left. -/
def arrive (s : State) (t : Nat) (gsel : BitVec 6) (scope : BitVec 3) (bart : Bool) : State :=
  (closeBatches s t).onTile t fun tl =>
    let a := tGet Arrival.none tl.arrivals gsel.toNat
    { tl with
      arrivals := tSet Arrival.none tl.arrivals gsel.toNat
        { count := a.count + 1, waiting := true, done := false, bart := bart, scope := scope, stamp := s.stamp }
      cwait := some (.barrier gsel) }

/-- C passes a barrier word whose instance has completed: an acquire at its scope (R325). -/
def passBarrier (s : State) (t : Nat) (gsel : BitVec 6) : State :=
  let s1 := acquire s t
  s1.onTile t fun tl =>
    let a := tGet Arrival.none tl.arrivals gsel.toNat
    { tl with arrivals := tSet Arrival.none tl.arrivals gsel.toNat { a with done := false } }

/-- The engines whose earlier accesses an arrival releases: with DRAIN, those of L, X and S as well (R325). -/
def arrivalEngines (drain : Bool) : List Engine := if drain then [.C, .L, .X, .S] else [.C]

/-- `bar` and `bart` (R324, R325, R331). A word whose instance has completed passes, be it the `bart` that has opened a phase. -/
def barBody (scope : BitVec 3) (drain bart : Bool) (gsel : BitVec 6) (t : Nat) (s : State) : Res State := do
  check (!gselReserved gsel) .ILLOP
  let tl := s.tile t
  let a := tGet Arrival.none tl.arrivals gsel.toNat
  if a.done && !a.waiting then .ok (passBarrier s t gsel)
  else
    barChecks s t gsel bart
    if a.waiting then .error (.wait (s.onTile t fun tl => { tl with cwait := some (.barrier gsel) }))
    else if (drain && !tl.drainedToC) || (bart && !tl.noneInFlight) then .error .stall
    else if tl.phase.isSome && !tl.wiresEmpty then .error .stall
    else
      let s1 ← releaseC s t (arrivalEngines drain) allClasses scope.toNat
      let s2 := if drain then showX s1 t scope.toNat else s1
      .error (.wait (arrive s2 t gsel scope bart))

/-- `bar` (R324). -/
def execBar (scope : BitVec 3) (drain : BitVec 1) (gsel : BitVec 6) (s : State) : Out :=
  runC s (barBody scope (drain == 1) false gsel)

/-- `bart` (R327), which always drains. -/
def execBart (scope : BitVec 3) (gsel : BitVec 6) (s : State) : Out := runC s (barBody scope true true gsel)

/-! ### Transfer phases (R327-R331) -/

/-- One word of a forwarded input goes to every output that selects it, if each has room (R330). -/
def forwardWord (s : State) (t i : Nat) : State :=
  let tl := s.tile t
  let outs := (List.range 4).filter fun o => tl.source o = i + 1
  match tGet [] tl.linkIn i with
  | [] => s
  | v :: rest =>
    if outs.isEmpty || !(outs.all fun o => s.linkFill t o < 8) then s
    else s.onTile t fun tl =>
      { tl with linkIn := tSet [] tl.linkIn i rest
                linkOut := outs.foldl (fun m o => tSet [] m o (tGet [] m o ++ [v])) tl.linkOut }

/-- Forwards what the inputs hold, as far as there is room: each input has at most 8 words. -/
def forwardInputs (s : State) (t : Nat) : State :=
  (List.range 32).foldl (fun s k => forwardWord s t (k % 4)) s

/-- `mux`: LINKPH outside a phase, PERM for an output towards a tile outside the group (R328, R330). -/
def muxBody (west south east north : BitVec 3) (t : Nat) (s : State) : Res State := do
  match (s.tile t).phase with
  | Option.none => trap .LINKPH
  | some g => do
    let src : List (BitVec 3) := [north, east, south, west]
    check ((List.range 4).all fun d => (src[d]?).getD 0 == 0 || (s.phaseNeighbour t g d).isSome) .PERM
    let s1 := s.onTile t fun tl =>
      { tl with forward := (List.range 4).foldl (fun m d => tSet 0 m d ((src[d]?).getD 0)) [] }
    .ok (forwardInputs s1 t)

/-- `mux` (R330). -/
def execMux (west south east north : BitVec 3) (s : State) : Out := runC s (muxBody west south east north)

/-- The checks of R169 on the bytes of a `tx` half; only the own scratchpad and the private area pass (R329). -/
def txHome (s : State) (t : Nat) (a : Word) (n : Nat) : Res Nat := do
  check (spaceOf a = 8 || spaceOf a = 10) .ASPACE
  match scalarHome s t .C a n 8 with
  | .ok (.scratch _ off) => .ok off
  | .ok _ => trap .ASPACE
  | .error c => trap c

/-- Sends as many words as the output takes. -/
def txSend (s : State) (t d : Nat) : List Word → State × List Word
  | [] => (s, [])
  | w :: ws =>
    match sendLink s t d w with
    | .ok s1 => txSend s1 t d ws
    | .error _ => (s, w :: ws)

/-- Pops and stores as many words as are present, in class 0 (R329). -/
def txRecv (s : State) (t d : Nat) : Nat → Nat → State × Nat × Nat
  | 0, dest => (s, 0, dest)
  | n + 1, dest =>
    match popLink s t d with
    | .ok (w, s1) => txRecv (scratchWrite s1 t dest (natBytes 8 w.toNat) 0 true false) t d n (dest + 8)
    | .error _ => (s, n + 1, dest)

/-- Moves what can move; the instruction completes when both halves are done, and never traps once it moves (R329). -/
def txAdvance (s : State) (t : Nat) (st : TxState) : Res State :=
  let (s1, left) := txSend s t st.outDir.toNat st.toSend
  let (s2, n, dest) := txRecv s1 t st.inDir.toNat st.toRecv st.dest
  if left.isEmpty && n = 0 then .ok (s2.onTile t fun tl => { tl with cwait := none })
  else .error (.wait (s2.onTile t fun tl =>
    { tl with cwait := some (.tx { st with toSend := left, toRecv := n, dest := dest }) }))

/-- The doublewords of a send half, read in one pass (R329). -/
def txWords (m : Memory) (off : Nat) : Nat → List Word
  | 0 => []
  | n + 1 => BitVec.ofNat 64 (m.readNat off 8) :: txWords m (off + 8) n

/-- `tx`: the checks of R329 in order, then the words. -/
def txStart (d a b : BitVec 5) (sen ren : Bool) (diro diri : BitVec 2) (t : Nat) (s : State) : Res State := do
  match (s.tile t).phase with
  | Option.none => trap .LINKPH
  | some g => do
    let reads := (if sen then [a] else []) ++ [b] ++ (if ren then [d] else [])
    checkLinks t reads [] s
    let (va, s1) ← if sen then readReg t a s else .ok (0, s)
    let (vb, s2) ← readReg t b s1
    let (vd, s3) ← if ren then readReg t d s2 else .ok (0, s2)
    let n := vb.toNat
    check (n ≤ 4096) .RANGE
    let src ← if sen then txHome s t va (8 * n) else .ok 0
    let dst ← if ren then txHome s t vd (8 * n) else .ok 0
    check (!sen || (s.phaseNeighbour t g diro.toNat).isSome) .PERM
    check (!ren || (s.phaseNeighbour t g diri.toNat).isSome) .PERM
    check (!sen || (s.tile t).source diro.toNat = 0) .LINKPH
    check (!ren || !(s.tile t).forwarded diri.toNat) .LINKPH
    check (!sen || !poisoned (s.tile t).poison src (8 * n) 64) .MEMERR
    check (!(ren && n ≠ 0 && (s.tile t).pubsBad)) .MEMERR
    checkLapsed s t (.scratch t src) (if sen then 8 * n else 0)
    checkLapsed s t (.scratch t dst) (if ren then 8 * n else 0)
    txAdvance s3 t { toSend := if sen then txWords (s.tile t).scratch src n else [], outDir := diro,
                     toRecv := if ren then n else 0, inDir := diri, dest := dst }

/-- `tx` from its start, or from where its halves stand (R329). -/
def txBody (d a b : BitVec 5) (sen ren : BitVec 1) (diro diri : BitVec 2) (t : Nat) (s : State) : Res State :=
  match (s.tile t).cwait with
  | some (.tx st) => txAdvance s t st
  | _ => txStart d a b (sen == 1) (ren == 1) diro diri t s

/-- `tx` (R329). -/
def execTx (d a b : BitVec 5) (sen ren : BitVec 1) (diro diri : BitVec 2) (s : State) : Out :=
  runC s (txBody d a b sen ren diro diri)

/-! ### Waiting on an address (R332-R334, R427) -/

/-- The normalised line of a home, and whether it is a device-memory line (R427). -/
def lineOf (s : State) (h : Home) : Word × Bool :=
  match h with
  | .scratch u off => (localAddr (s.tile u).tileId.toNat (off / 64 * 64), false)
  | .global va => (BitVec.ofNat 64 (va / 128 * 128), true)
  | .opm _ _ => (0, false)

/-- The armed entry that watches a line. -/
def Tile.watcher (tl : Tile) (line : Word) (wide : Bool) : Option Nat :=
  (tl.mon.find? fun (_, e) => e.armed && e.line == line && e.wide == wide).map (·.1)

/-- The lowest entry that is not armed. -/
def Tile.freeMon (tl : Tile) : Option Nat :=
  (List.range 16).find? fun k => !(tGet MonEntry.zero tl.mon k).armed

/-- Arms an entry for a line. -/
def Tile.arm (tl : Tile) (k : Nat) (line : Word) (wide : Bool) : Tile :=
  { tl with mon := tSet .zero tl.mon k { line := line, wide := wide, armed := true } }

/-- The translation of an arming: it needs read permission, and reads no data (R332). -/
def armTranslates (s : State) (t : Nat) (h : Home) (n : Nat) : Res Unit :=
  match h with
  | .global va => match translateFor s t va n true false with
    | .error (.refuse c) => trap c
    | .error (.page _) => cPage s t va
    | .error .busy => .error .stall
    | .ok _ => .ok ()
  | _ => .ok ()

/-- `waitw` with ARM: the entry's index, or all ones with FULL set (R333). -/
def waitwArmBody (d a : BitVec 5) (dbl : BitVec 1) (t : Nat) (s : State) : Res State := do
  let n := atomicSize dbl
  checkLinks t [a] [d] s
  let (va, s1) ← readReg t a s
  match scalarHome s t .C va n n with
  | .error c => trap c
  | .ok h => do
    armTranslates s t h n
    check (!(s.tile t).badAt (opmMon 0) (16 * monBytes)) .MEMERR
    let (line, wide) := lineOf s h
    match (s.tile t).watcher line wide, (s.tile t).freeMon with
    | some k, _ => writeReg t d (BitVec.ofNat 64 k) s1
    | none, none => writeReg t d (BitVec.allOnes 64) (s1.onTile t fun tl => { tl with monFull := true })
    | none, some k => writeReg t d (BitVec.ofNat 64 k) (s1.onTile t (·.arm k line wide))

/-- `waitw` with ARM (R333). -/
def execWaitwArm (d a : BitVec 5) (dbl : BitVec 1) (s : State) : Out := runC s (waitwArmBody d a dbl)

/-- Reads the watched word: the value, its home, the expected value, and the state after the sources are read. -/
def waitwRead (d a : BitVec 5) (oc : BitVec 4) (ar : BitVec 1) (n : Nat) (t : Nat) (s : State) : Res (Nat × Home × Nat × State) := do
  checkLinks t [a, d] [d] s
  let (va, s1) ← readReg t a s
  let (vd, s2) ← readReg t d s1
  let (h, s3) ← cAccess s2 t va n n true false
  let v ← cRead s3 t h n
  let s4 := s3.viaPort t h n false oc
  .ok (v, h, vd.toNat % 2 ^ (8 * n), if ar = 1 then acquire s4 t else s4)

/-- `waitw` (R333): one indivisible step up to its completion or its sleep; before it arms, it reads the monitor table (R380). -/
def waitwBody (d a : BitVec 5) (oc : BitVec 4) (ar : BitVec 1) (dbl : BitVec 1) (t : Nat) (s : State) : Res State := do
  let n := atomicSize dbl
  match (s.tile t).cwait with
  | some .asleep => .error .stall
  | _ => do
    let (v, h, expect, s1) ← waitwRead d a oc ar n t s
    let out := extendTo true n v
    if v ≠ expect then writeReg t d out s1
    else if (s.tile t).badAt (opmMon 0) (16 * monBytes) then trap .MEMERR
    else
      let (line, wide) := lineOf s h
      match (s.tile t).watcher line wide, (s.tile t).freeMon with
      | none, none => writeReg t d out (s1.onTile t fun tl => { tl with monFull := true })
      | w, f =>
        let arm (tl : Tile) : Tile := if w.isSome then tl else tl.arm (f.getD 0) line wide
        if (s.tile t).fired ≠ 0 then writeReg t d out (s1.onTile t arm)
        else .error (.wait (s.onTile t fun tl => { arm tl with cwait := some .asleep }))

/-- `waitw` (R333). -/
def execWaitw (d a : BitVec 5) (oc : BitVec 4) (ar : BitVec 1) (_scope : BitVec 3) (dbl : BitVec 1) (s : State) : Out :=
  runC s (waitwBody d a oc ar dbl)

/-- What a woken `waitw` does: it reads again and completes (R333). -/
def wakeBody (d a : BitVec 5) (oc : BitVec 4) (ar : BitVec 1) (dbl : BitVec 1) (t : Nat) (s : State) : Res State := do
  let n := atomicSize dbl
  let (v, _, _, s1) ← waitwRead d a oc ar n t s
  writeReg t d (extendTo true n v) s1

/-! ### The stage ring (R336-R338) -/

/-- An empty slot with owner 0. -/
def Slot.zero : Slot := { data := 0, full := false, owner := 0 }

/-- The tile that a register names: RANGE above 11 bits, PERM outside the rectangle (R111, R337). -/
def namedTile (s : State) (t : Nat) (v : Word) : Res Nat := do
  check (v.toNat < 2 ^ 11) .RANGE
  match s.tileOfRel t v.toNat with
  | none => trap .PERM
  | some u => .ok u

/-- The slot and the role in a register (R337). -/
def slotField (v : Word) : Nat := v.toNat % 8
def roleField (v : Word) : BitVec 4 := v.extractLsb' 8 4

/-- A slot is ready for a request (R338). -/
def slotReady (sl : Slot) (acq : Bool) (role : BitVec 4) : Bool :=
  if acq then sl.full && sl.owner == role else !sl.full

/-- Acts on a slot: the slot after it, and the payload that an acquire takes (R338). -/
def slotAct (sl : Slot) (acq : Bool) (role : BitVec 4) (data : Word) : Slot × Word :=
  if acq then ({ sl with full := false }, sl.data) else ({ data := data, full := true, owner := role }, 0)

/-- A request is served at once when the slot is ready for it and for no earlier request that waits on it; otherwise it waits
at the slot's tile (R338; log 16 for requests of both kinds that wait on one slot). -/
def slotRequest (s : State) (t u : Nat) (r : SlotRequest) : Option (State × Word) :=
  let tl := s.tile u
  let sl := tGet Slot.zero tl.ring r.slot
  if slotReady sl r.acquire r.role && !(tl.slotWaits.any fun q => q.slot = r.slot && q.tile ≠ t && slotReady sl q.acquire q.role) then
    let (sl1, v) := slotAct sl r.acquire r.role r.data
    some (s.onTile u fun tl => { tl with ring := tSet Slot.zero tl.ring r.slot sl1 }, v)
  else none

/-- C waits at a slot of a tile. -/
def waitSlot (s : State) (t u : Nat) (r : SlotRequest) : State :=
  (s.onTile u fun tl => { tl with slotWaits := tl.slotWaits ++ [r] }).onTile t fun tl =>
    { tl with cwait := some (.slot u r.slot) }

/-- The operands of `acqs`: the tile, the slot, the role. -/
def acqsSource (a b : BitVec 5) (t : Nat) (s : State) : Res (Nat × Nat × BitVec 4 × State) := do
  let (va, s1) ← readReg t a s
  let (vb, s2) ← readReg t b s1
  let u ← namedTile s t va
  .ok (u, slotField vb, roleField vb, s2)

/-- `acqs`: waits for a full slot of the role, takes its payload, and acquires (R338); MEMERR for a slot with an
uncorrectable error (R380). -/
def acqsBody (d a b : BitVec 5) (t : Nat) (s : State) : Res State := do
  match (s.tile t).cwait with
  | some (.slot _ _) => .error .stall
  | _ => do
    checkLinks t [a, b] [d] s
    let (u, k, role, s1) ← acqsSource a b t s
    check (!(s.tile u).badAt (opmSlot k) slotBytes) .MEMERR
    let r : SlotRequest := { tile := t, slot := k, acquire := true, role := role, data := 0 }
    match slotRequest s1 t u r with
    | some (s2, v) => writeReg t d v (acquire s2 t)
    | none => .error (.wait (waitSlot s t u r))

/-- `acqs` (R338). -/
def execAcqs (d a b : BitVec 5) (_scope : BitVec 3) (s : State) : Out := runC s (acqsBody d a b)

/-- The operands of `rels`: the tile, the slot, the role, and the payload, read last from the rd field (R163). -/
def relsSource (d a b : BitVec 5) (t : Nat) (s : State) : Res (Nat × Nat × BitVec 4 × Word × State) := do
  let (va, s1) ← readReg t a s
  let (vb, s2) ← readReg t b s1
  let (vd, s3) ← readReg t d s2
  let u ← namedTile s t va
  .ok (u, slotField vb, roleField vb, vd, s3)

/-- `rels`: releases, waits for an empty slot, and fills it for the role (R338). -/
def relsBody (d a b : BitVec 5) (scope : BitVec 3) (t : Nat) (s : State) : Res State := do
  match (s.tile t).cwait with
  | some (.slot _ _) => .error .stall
  | _ => do
    checkLinks t [a, b, d] [] s
    let _ ← relsSource d a b t s
    let s0 ← release s t scope.toNat
    let (u, k, role, v, s1) ← relsSource d a b t s0
    check (!(s0.tile u).badAt (opmSlot k) slotBytes) .MEMERR
    let r : SlotRequest := { tile := t, slot := k, acquire := false, role := role, data := v }
    match slotRequest s1 t u r with
    | some (s2, _) => .ok s2
    | none => .error (.wait (waitSlot s0 t u r))

/-- `rels` (R338). -/
def execRels (d a b : BitVec 5) (scope : BitVec 3) (s : State) : Out := runC s (relsBody d a b scope)

/-! ### `renq` (R339) -/

/-- The pushes that wait for a queue. -/
def Tile.pushes (tl : Tile) : Engine → List Push
  | .C => []
  | .L => tl.pushL
  | .X => tl.pushX
  | .S => tl.pushS

/-- Sets the pushes that wait for a queue. -/
def Tile.setPushes (tl : Tile) (e : Engine) (p : List Push) : Tile :=
  match e with
  | .C => tl
  | .L => { tl with pushL := p }
  | .X => { tl with pushX := p }
  | .S => { tl with pushS := p }

/-- The engine of a code (R152, R337). -/
def engOfCode (e : BitVec 2) : Engine :=
  match e.toNat with
  | 0 => .C
  | 1 => .L
  | 2 => .X
  | _ => .S

/-- The target and the block's place: the checks of R337 and R169 (R339, orders 1 and 2). -/
def renqSource (a b : BitVec 5) (t : Nat) (s : State) : Res (Nat × Nat × State) := do
  let (va, s1) ← readReg t a s
  let (vb, s2) ← readReg t b s1
  let u ← namedTile s t va
  check (spaceOf vb = 8 || spaceOf vb = 10) .ASPACE
  match scalarHome s t .C vb 64 64 with
  | .ok (.scratch _ off) => .ok (u, off, s2)
  | .ok _ => trap .ASPACE
  | .error c => trap c

/-- The words of a block: N of the header, then that many words (R339). -/
def blockWords (m : Memory) (off n : Nat) : List IWord :=
  (List.range n).map fun i => BitVec.ofNat 32 (m.readNat (off + 4 + 4 * i) 4)

/-- `renq`: the checks of R339 in order, then the push, which waits for its acceptance. -/
def renqBody (a b : BitVec 5) (scope : BitVec 3) (eng : BitVec 2) (t : Nat) (s : State) : Res State := do
  match (s.tile t).cwait with
  | some (.renq _ _) => .error .stall
  | _ => do
    checkLinks t [a, b] [] s
    let _ ← renqSource a b t s
    let s0 ← release s t scope.toNat
    let (u, off, _) ← renqSource a b t s0
    let m := (s0.tile t).scratch
    check (!poisoned (s0.tile t).poison off 64 64) .MEMERR
    let hdr := m.readNat off 4
    check (hdr / 16 = 0) .RSVD
    check (hdr % 16 ≠ 0) .RANGE
    checkLapsed s0 t (.scratch t off) 64
    let e := engOfCode eng
    let s1 := s0.onTile u fun tl => tl.setPushes e (tl.pushes e ++ [{ tile := t, words := blockWords m off (hdr % 16) }])
    .error (.wait (s1.onTile t fun tl => { tl with cwait := some (.renq u e) }))

/-- `renq` (R339). -/
def execRenq (a b : BitVec 5) (scope : BitVec 3) (eng : BitVec 2) (s : State) : Out :=
  runC s (renqBody a b scope eng)

end Sys2Proof.Machine
end

