-- ==== Sys2Proof/Machine/Opm.lean ====
section
/-! DEFINITION. The on-chip physical map: what each 8-byte word of a tile's windows reads as and what a write of it changes
(03 R68-R71, 10 R248-R250, 13 R336, R427, 14 R350-R352). -/

namespace Sys2Proof.Machine

open Sys2Proof

/-- 64 bits of a number from bit 64·k. -/
def dword (v k : Nat) : Word := BitVec.ofNat 64 (v / 2 ^ (64 * k))

/-- A number with its 64 bits from bit 64·k replaced. -/
def putDword (v k : Nat) (w : Word) : Nat := v - v / 2 ^ (64 * k) % 2 ^ 64 * 2 ^ (64 * k) + w.toNat * 2 ^ (64 * k)

/-! ### Words of the windows -/

/-- Two accumulator elements (R69). -/
def accWord (tl : Tile) (k : Nat) : Word :=
  BitVec.ofNat 64 ((tGet 0 tl.acc (2 * k)).toNat + (tGet 0 tl.acc (2 * k + 1)).toNat * 2 ^ 32)

/-- Writes two accumulator elements. -/
def putAccWord (tl : Tile) (k : Nat) (w : Word) : Tile :=
  { tl with acc := tSet 0 (tSet 0 tl.acc (2 * k) (w.setWidth 32)) (2 * k + 1) (w.extractLsb' 32 32) }

/-- Eight bytes of a table of bytes. -/
def byteWord (m : Table Byte) (a : Nat) : Word :=
  BitVec.ofNat 64 (bytesNat ((List.range 8).map fun i => tGet 0 m (a + i)))

/-- Writes eight bytes of a table of bytes. -/
def putByteWord (m : Table Byte) (a : Nat) (w : Word) : Table Byte :=
  (List.range 8).foldl (fun m i => tSet 0 m (a + i) (w.extractLsb' (8 * i) 8)) m

/-- The element-row configuration as one number, in the order of R15: operation, configuration and switch words. -/
def rowConfigNat (tl : Tile) : Nat :=
  ((List.range 16).map fun k =>
    (tGet 0 tl.rowOps k).toNat * 2 ^ (32 * k) + (tGet 0 tl.rowCfg k).toNat * 2 ^ (512 + 32 * k)
      + (tGet 0 tl.rowSw k).toNat * 2 ^ (1024 + 16 * k)).foldl (· + ·) 0

/-- The 160 bytes of a row configuration loaded whole (R202). -/
def Tile.loadRowConfig (tl : Tile) (v : Nat) : Tile :=
  { tl with
    rowOps := (List.range 16).foldl (fun m k => tSet 0 m k (BitVec.ofNat 32 (v / 2 ^ (32 * k)))) []
    rowCfg := (List.range 16).foldl (fun m k => tSet 0 m k (BitVec.ofNat 32 (v / 2 ^ (512 + 32 * k)))) []
    rowSw := (List.range 16).foldl (fun m k => tSet 0 m k (BitVec.ofNat 16 (v / 2 ^ (1024 + 16 * k)))) [] }

/-- STATUS of the index generator (R249). -/
def GenState.status (g : GenState) : Nat :=
  g.steps.toNat * 2 ^ 9 + g.nterm.toNat * 2 ^ 5 + bitAt g.hv 4 + bitAt g.decl 3 + bitAt g.inv 2 + bitAt g.dirty 1
    + bitAt g.isBuilt 0

/-- The 256 bytes of the generator's state as one number (R248). -/
def GenState.image (g : GenState) : Nat :=
  ((List.range 8).map fun k => (tGet 0 g.c k).toNat * 2 ^ (32 * k)).foldl (· + ·) 0
    + ((List.range 4).map fun k => (tGet 0 g.o k).toNat * 2 ^ (256 + 32 * k)).foldl (· + ·) 0
    + g.seed.toNat * 2 ^ 384 + g.pc.toNat * 2 ^ 432 + g.nw.toNat * 2 ^ 440 + g.status * 2 ^ 448
    + ((List.range 32).map fun k => (tGet 0 g.store k).toNat * 2 ^ (1024 + 32 * k)).foldl (· + ·) 0

/-- The fields of a 256-byte image that are not the build's: the registers, SEED, PC, NW and STORE (R248, R252). -/
def GenState.load (g : GenState) (v : Nat) : GenState :=
  { g with
    c := (List.range 8).foldl (fun m k => tSet 0 m k (BitVec.ofNat 32 (v / 2 ^ (32 * k)))) []
    o := (List.range 4).foldl (fun m k => tSet 0 m k (BitVec.ofNat 32 (v / 2 ^ (256 + 32 * k)))) []
    seed := BitVec.ofNat 48 (v / 2 ^ 384)
    pc := BitVec.ofNat 8 (v / 2 ^ 432)
    nw := BitVec.ofNat 8 (v / 2 ^ 440)
    store := (List.range 32).foldl (fun m k => tSet 0 m k (BitVec.ofNat 32 (v / 2 ^ (1024 + 32 * k)))) [] }

/-- A monitor-table entry as one number (R427). -/
def MonEntry.image (e : MonEntry) : Nat := e.line.toNat + bitAt e.armed 64 + bitAt e.wide 65

/-- A publisher-table entry as one number (R350). -/
def PubEntry.image (e : PubEntry) : Nat :=
  e.poff.toNat + e.lines.toNat * 2 ^ 21 + e.subIdx.toNat * 2 ^ 40 + e.subTile.toNat * 2 ^ 48 + bitAt e.valid 63

/-- A subscriber-table entry as one number (R351); SPILLBASE is firmware's (R352). -/
def SubEntry.image (e : SubEntry) (firmware : Bool) : Nat :=
  e.soff.toNat + e.lines.toNat * 2 ^ 21 + e.pubIdx.toNat * 2 ^ 34 + e.pub.toNat * 2 ^ 39 + e.state.toNat * 2 ^ 62
    + e.poff.toNat * 2 ^ 64 + e.spillK.toNat * 2 ^ 96 + (if firmware then e.spillBase.toNat else 0) * 2 ^ 128
    + e.spillCnt.toNat * 2 ^ 192

/-- A stage slot as one number (R336). -/
def Slot.image (e : Slot) : Nat := e.data.toNat + bitAt e.full 64 + e.owner.toNat * 2 ^ 68

/-- The slot of such a number; reserved bits are ignored. -/
def Slot.ofImage (v : Nat) : Slot :=
  { data := BitVec.ofNat 64 v, full := v / 2 ^ 64 % 2 = 1, owner := BitVec.ofNat 4 (v / 2 ^ 68) }

/-- Two instruction words. -/
def istoreWord (tl : Tile) (k : Nat) : Word :=
  BitVec.ofNat 64 ((tGet 0 tl.istore (2 * k)).toNat + (tGet 0 tl.istore (2 * k + 1)).toNat * 2 ^ 32)

/-! ### Access (R69-R71) -/

/-- An element-row burst is running (R70). -/
def Tile.inBurst (tl : Tile) : Bool :=
  tl.qX.any fun e => e.phase == .running && ((!isNest e.word && classOf e.word = 9) || (e.rowPipe && match e.nest with
    | none => false
    | some n => n.started))

/-- The owner is using the state of a window word, and an access to it waits (R70, R226). -/
def Tile.opmBusy (tl : Tile) (off : Nat) : Bool :=
  if 0x214000 ≤ off && off < 0x21C000 then
    tl.wpend.isSome && (if tl.actW then off < 0x218000 else 0x218000 ≤ off)
  else if (0x21D000 ≤ off && off < 0x21E000) || (0x220000 ≤ off && off < 0x2200A0) then tl.inBurst
  else false

/-- C has begun an instruction, and a word of its registers, of the layout records or of the CSRs is written between two of its
instructions: the write waits until C has completed it or has left it (R70). A read of such a word gives what it held before. -/
def Tile.cHolds (tl : Tile) (off : Nat) : Bool :=
  tl.cwait.isSome && ((0x21C000 ≤ off && off < 0x21D000) || (0x21E000 ≤ off && off < 0x21F000))

/-- A write of a window word waits (R70, R226). -/
def Tile.opmWriteBusy (tl : Tile) (off : Nat) : Bool := tl.opmBusy off || tl.cHolds off

/-- What a CSR slot reads as: `ORIGIN` is zero for a context agent, and an unassigned number is zero (R69, R71). -/
def csrSlot (s : State) (u n : Nat) (firmware : Bool) : Word :=
  if n = 1 && firmware then (s.tile u).origin.setWidth 64 else (csrRead s u n).getD 0

/-- The word at an 8-byte aligned offset of a window beyond the scratchpad (R69). -/
def opmRead (s : State) (u off : Nat) (firmware : Bool) : Word :=
  let tl := s.tile u
  if off < 0x214000 then accWord tl ((off - 0x200000) / 8)
  else if off < 0x21C000 then byteWord tl.latch (off - 0x214000)
  else if off < 0x21C100 then
    let r := (off - 0x21C000) / 8
    if 28 ≤ r then 0 else tl.xreg r
  else if off < 0x21D000 then
    let k := (off - 0x21C800) / 8
    dword (tGet 0 tl.g (k / 12)).toNat (k % 12)
  else if off < 0x21E000 then
    let k := (off - 0x21D000) / 8
    dword (tGet 0 tl.lanes (k / 8)).toNat (k % 8)
  else if off < 0x21F000 then csrSlot s u ((off - 0x21E000) / 8) firmware
  else if off < 0x220100 then dword (rowConfigNat tl) ((off - 0x220000) / 8)
  else if off < 0x220200 then dword tl.gen.image ((off - 0x220100) / 8)
  else if off < 0x220400 then
    let k := (off - 0x220200) / 8
    dword (tGet MonEntry.zero tl.mon (k / 4)).image (k % 4)
  else if off < 0x221000 then
    let k := (off - 0x220800) / 8
    dword (tGet PubEntry.zero tl.pubs (k / 8)).image (k % 8)
  else if off < 0x221800 then
    let k := (off - 0x221000) / 8
    dword ((tGet SubEntry.zero tl.subs (k / 8)).image firmware) (k % 8)
  else if off < 0x221900 then
    let k := (off - 0x221800) / 8
    dword (tGet Slot.zero tl.ring (k / 4)).image (k % 4)
  else istoreWord tl ((off - 0x240000) / 8)

/-- Sets two instruction words. -/
def putIstoreWord (tl : Tile) (k : Nat) (w : Word) : Tile :=
  { tl with istore := tSet 0 (tSet 0 tl.istore (2 * k) (w.setWidth 32)) (2 * k + 1) (w.extractLsb' 32 32)
            istoreBad := tErase (tErase tl.istoreBad (2 * k)) (2 * k + 1)
            istoreWritten := true }

/-- A write of a half of the weight latch sets its LW to 256 (R222). -/
def putLatchWord (tl : Tile) (a : Nat) (w : Word) : Tile :=
  let tl1 := { tl with latch := putByteWord tl.latch a w }
  if a < 0x4000 then { tl1 with lw0 := 256 } else { tl1 with lw1 := 256 }

/-- The state after a word of a window beyond the scratchpad is written, and whether an instruction-store write was
discarded (R69-R71). Monitor and subscription tables ignore writes (R352, R427). -/
def opmWrite (s : State) (u off : Nat) (w : Word) : State × Bool :=
  let tl := s.tile u
  let put (t : Tile) : State × Bool := (s.setTile u (t.clearBad off 8), false)
  if off < 0x214000 then put (putAccWord tl ((off - 0x200000) / 8) w)
  else if off < 0x21C000 then put (putLatchWord tl (off - 0x214000) w)
  else if off < 0x21C100 then
    let r := (off - 0x21C000) / 8
    if 28 ≤ r then (s, false) else put (tl.setX r w)
  else if off < 0x21D000 then
    let k := (off - 0x21C800) / 8
    put { tl with g := tSet 0 tl.g (k / 12) (BitVec.ofNat 768 (putDword (tGet 0 tl.g (k / 12)).toNat (k % 12) w)) }
  else if off < 0x21E000 then
    let k := (off - 0x21D000) / 8
    put { tl with lanes := tSet 0 tl.lanes (k / 8) (BitVec.ofNat 512 (putDword (tGet 0 tl.lanes (k / 8)).toNat (k % 8) w)) }
  else if off < 0x21F000 then
    match csrWrite s u ((off - 0x21E000) / 8) w w (w.getLsbD 2) with
    | .ok s1 => (s1.onTile u (·.clearBad off 8), false)
    | .error _ => (s, false)
  else if off < 0x220100 then put (tl.loadRowConfig (putDword (rowConfigNat tl) ((off - 0x220000) / 8) w))
  else if off < 0x220200 then
    put { tl with gen := { tl.gen.load (putDword tl.gen.image ((off - 0x220100) / 8) w) with dirty := true } }
  else if off < 0x221800 then (s, false)
  else if off < 0x221900 then
    let k := (off - 0x221800) / 8
    put { tl with ring := tSet .zero tl.ring (k / 4)
                    (Slot.ofImage (putDword (tGet Slot.zero tl.ring (k / 4)).image (k % 4) w)) }
  else if tl.allHalted then put (putIstoreWord tl ((off - 0x240000) / 8) w)
  else (s, true)

end Sys2Proof.Machine
end

