-- ==== Sys2Proof/Machine/Records.lean ====
section
/-! DEFINITION. The pointer and layout-record instructions of C (07 R172-R179). -/

namespace Sys2Proof.Machine

open Sys2Proof

/-! ### Pointers -/

/-- What `spt` writes (R173). -/
def sptValue (s : State) (t : Nat) (a : Word) : Word :=
  BitVec.ofNat 64 (spaceOf a + (if canonical a then 2 ^ 8 else 0) + (if cUsable s t a then 2 ^ 9 else 0))

/-- `spt`'s result (R173). -/
def sptBody (d a : BitVec 5) (t : Nat) (s : State) : Res State := do
  checkLinks t [a] [d] s
  let (va, s1) ← readReg t a s
  writeReg t d (sptValue s t va) s1

/-- `spt` (R173). -/
def execSpt (d a : BitVec 5) (s : State) : Out := runC s (sptBody d a)

/-- The value of a conversion that fails: it lies in reserved space 0xF (R174). -/
def badPointer : Word := BitVec.allOnes 64

/-- What `spc` writes (R174). -/
def spcValue (s : State) (t : Nat) (a : Word) (sp : BitVec 4) : Word :=
  let own := (s.tile t).tileId.toNat
  if !canonical a then badPointer
  else if spaceOf a = sp.toNat then a
  else match spaceOf a, sp.toNat with
    | 8, 9 => if ownerOf a = own then sharedAddr (rowOf t % 16) (colOf t % 16) (offsetOf a) else badPointer
    | 9, 8 =>
      if tileAtDie (dieOf t) (dieRowOf a) (dieColOf a) = t then localAddr own (offsetOf a) else badPointer
    | 8, 11 => opmAddr (ownerOf a) (offsetOf a)
    | 9, 11 => match s.tileAtPos t (dieRowOf a) (dieColOf a) with
      | none => badPointer
      | some u => opmAddr (s.tile u).tileId.toNat (offsetOf a)
    | 10, 11 => opmAddr own (bandStart + offsetOf a)
    | _, _ => badPointer

/-- `spc`'s result (R174). -/
def spcBody (d a : BitVec 5) (sp : BitVec 4) (t : Nat) (s : State) : Res State := do
  checkLinks t [a] [d] s
  let (va, s1) ← readReg t a s
  writeReg t d (spcValue s t va sp) s1

/-- `spc` (R174). -/
def execSpc (d a : BitVec 5) (sp : BitVec 4) (s : State) : Out := runC s (spcBody d a sp)

/-- `mkp`: the checks of R175 in order, then the pointer. -/
def mkpBody (d a b : BitVec 5) (limit : Nat) (sameDie : Bool) (make : Nat → Nat → Nat → Word) (t : Nat) (s : State) :
    Res State := do
  checkLinks t [a, b] [d] s
  let (va, s1) ← readReg t a s
  let (vb, s2) ← readReg t b s1
  check (va.toNat < 2 ^ 11 && vb.toNat < limit) .RANGE
  match s.tileOfRel t va.toNat with
  | none => trap .PERM
  | some u => do
    check (!sameDie || dieOf u = dieOf t) .ASPACE
    writeReg t d (make va.toNat u vb.toNat) s2

/-- A local pointer (R175). -/
def mkpLocalBody (d a b : BitVec 5) (t : Nat) (s : State) : Res State :=
  mkpBody d a b (2 ^ 21) false (fun rel _ off => localAddr rel off) t s

/-- `mkp`, space 0x8 (R175). -/
def execMkpLocal (d a b : BitVec 5) (s : State) : Out := runC s (mkpLocalBody d a b)

/-- A cluster-shared pointer (R175). -/
def mkpSharedBody (d a b : BitVec 5) (t : Nat) (s : State) : Res State :=
  mkpBody d a b (2 ^ 21) true (fun _ u off => sharedAddr (rowOf u % 16) (colOf u % 16) off) t s

/-- `mkp`, space 0x9 (R175). -/
def execMkpShared (d a b : BitVec 5) (s : State) : Out := runC s (mkpSharedBody d a b)

/-- An OPM pointer (R175). -/
def mkpOpmBody (d a b : BitVec 5) (t : Nat) (s : State) : Res State :=
  mkpBody d a b (2 ^ 24) false (fun rel _ off => opmAddr rel off) t s

/-- `mkp`, space 0xB (R175). -/
def execMkpOpm (d a b : BitVec 5) (s : State) : Out := runC s (mkpOpmBody d a b)

/-! ### Layout records -/

/-- A descriptor of a tile. -/
def Tile.desc (tl : Tile) (g : BitVec 4) : Tlr := tGet 0 tl.g g.toNat

/-- The OPM offset of a descriptor (R69). -/
def opmG (g : Nat) : Nat := 0x21C800 + 96 * g

/-- A descriptor that an instruction or command reads: MEMERR if a word of it has an uncorrectable error (R380). -/
def readDesc (s : State) (t : Nat) (g : BitVec 4) : Res Tlr :=
  if (s.tile t).badAt (opmG g.toNat) 96 then trap .MEMERR else .ok ((s.tile t).desc g)

/-- Sets a descriptor whole. -/
def Tile.setRec (tl : Tile) (g : BitVec 4) (r : Tlr) : Tile :=
  { tl.clearBad (opmG g.toNat) 96 with g := tSet 0 tl.g g.toNat r }

/-- The words of a descriptor that a field lies in: the OPM offset and the length in bytes. -/
def fieldWords (g : BitVec 4) (fld : BitVec 6) : Nat × Nat :=
  match fieldSpan fld with
  | none => (opmG g.toNat, 0)
  | some (lo, w) => (opmG g.toNat + lo / 64 * 8, ((lo + w - 1) / 64 + 1 - lo / 64) * 8)

/-- The field fills its words, so that writing it reads none of them. -/
def fieldWhole (fld : BitVec 6) : Bool := (fieldSpan fld).any fun (lo, w) => lo % 64 = 0 && w % 64 = 0

/-- Sets a field of a descriptor; a word written whole holds no error any more (R177, R380). -/
def Tile.setField (tl : Tile) (g : BitVec 4) (fld : BitVec 6) (v : Word) : Tile :=
  let tl1 := if fieldWhole fld then tl.clearBad (fieldWords g fld).1 (fieldWords g fld).2 else tl
  { tl1 with g := tSet 0 tl.g g.toNat (Tlr.setField (tl.desc g) fld v) }

/-- `tlset`'s effect (R177); a word that the field fills only in part is read (R380). -/
def tlsetBody (g : BitVec 4) (a : BitVec 5) (fld : BitVec 6) (t : Nat) (s : State) : Res State := do
  checkLinks t [a] [] s
  let (va, s1) ← readReg t a s
  check (fieldWhole fld || !(s.tile t).badAt (fieldWords g fld).1 (fieldWords g fld).2) .MEMERR
  .ok (s1.onTile t (·.setField g fld va))

/-- `tlset` (R177). -/
def execTlset (g : BitVec 4) (a : BitVec 5) (fld : BitVec 6) (s : State) : Out := runC s (tlsetBody g a fld)

/-- `tlget`'s result (R177); it reads only the words of the field (R380). -/
def tlgetBody (d : BitVec 5) (g : BitVec 4) (fld : BitVec 6) (t : Nat) (s : State) : Res State := do
  checkLinks t [] [d] s
  check (!(s.tile t).badAt (fieldWords g fld).1 (fieldWords g fld).2) .MEMERR
  writeReg t d (Tlr.getField ((s.tile t).desc g) fld) s

/-- `tlget` (R177). -/
def execTlget (d : BitVec 5) (g : BitVec 4) (fld : BitVec 6) (s : State) : Out :=
  runC s (tlgetBody d g fld)

/-- `tlclr` (R178). -/
def execTlclr (g : BitVec 4) (s : State) : Out := runC s fun t s => .ok (s.onTile t (·.setRec g 0))

/-- `tlmov` (R178). -/
def execTlmov (gd gs : BitVec 4) (s : State) : Out :=
  runC s fun t s => do
    let r ← readDesc s t gs
    .ok (s.onTile t (·.setRec gd r))

/-- What `tlchk` writes: the code of the first failing check, and RAGGED unless it is RSVD (R178). -/
def tlchkValue (s : State) (t : Nat) (e : Engine) (r : Tlr) : Word :=
  let c := match checkRecord s t e r false false true with
    | .ok _ => 0
    | .error c => c.code
  BitVec.ofNat 64 (c + if c ≠ 2 && Tlr.ragged r then 2 ^ 8 else 0)

/-- `tlchk` for an engine (R178). -/
def tlchkBody (e : Engine) (d : BitVec 5) (g : BitVec 4) (t : Nat) (s : State) : Res State := do
  checkLinks t [] [d] s
  let r ← readDesc s t g
  writeReg t d (tlchkValue s t e r) s

/-- `tlchk.l` (R178). -/
def execTlchkL (d : BitVec 5) (g : BitVec 4) (s : State) : Out := runC s (tlchkBody .L d g)

/-- `tlchk.x` (R178). -/
def execTlchkX (d : BitVec 5) (g : BitVec 4) (s : State) : Out := runC s (tlchkBody .X d g)

/-- `tlchk.s` (R178). -/
def execTlchkS (d : BitVec 5) (g : BitVec 4) (s : State) : Out := runC s (tlchkBody .S d g)

/-- The home `i` doublewords after another. -/
def Home.plus (h : Home) (n : Nat) : Home :=
  match h with
  | .scratch u o => .scratch u (o + n)
  | .global v => .global (v + n)
  | .opm u o => .opm u (o + n)

/-- Reads doublewords in ascending order; the record's low bits come first (R179). -/
def readDoubles (s : State) (t : Nat) (h : Home) : Nat → Res Nat
  | 0 => .ok 0
  | n + 1 => do
    let v ← cRead s t h 8
    let rest ← readDoubles s t (h.plus 8) n
    .ok (v + 2 ^ 64 * rest)

/-- What those reads do at their ports. -/
def viaDoubles (s : State) (t : Nat) (h : Home) (cls : BitVec 4) (n : Nat) : State :=
  (List.range n).foldl (fun s i => s.viaPort t (h.plus (8 * i)) 8 false cls) s

/-- Writes doublewords in ascending order (R179). -/
def writeDoubles (s : State) (t : Nat) (h : Home) (v : Nat) (cls : BitVec 4) : Nat → Res State
  | 0 => .ok s
  | n + 1 => do
    let s1 ← cWrite s t h 8 (v % 2 ^ 64) cls
    writeDoubles s1 t (h.plus 8) (v / 2 ^ 64) cls n

/-- `tlld`: an acquire precedes the twelve reads (R179). -/
def tlldBody (g : BitVec 4) (a : BitVec 5) (oc : BitVec 4) (ar : BitVec 1) (_scope : BitVec 3) (t : Nat) (s : State) :
    Res State := do
  checkLinks t [a] [] s
  let (va, s1) ← readReg t a s
  let (h, s2) ← cAccess s1 t va 96 8 true false
  let s3 := if ar = 1 then acquire s2 t else s2
  let v ← readDoubles s3 t h 12
  .ok ((viaDoubles s3 t h oc 12).onTile t (·.setRec g (BitVec.ofNat 768 v)))

/-- `tlld` (R179). -/
def execTlld (g : BitVec 4) (a : BitVec 5) (oc : BitVec 4) (ar : BitVec 1) (scope : BitVec 3) (s : State) : Out :=
  runC s (tlldBody g a oc ar scope)

/-- The home of a record store, and the state after rs1 is read (R179). -/
def tlstSource (a : BitVec 5) (t : Nat) (s : State) : Res (Home × State) := do
  let (va, s1) ← readReg t a s
  cAccess s1 t va 96 8 false true

/-- `tlst`: a release precedes the twelve writes (R179). -/
def tlstBody (g : BitVec 4) (a : BitVec 5) (oc : BitVec 4) (ar : BitVec 1) (scope : BitVec 3) (t : Nat) (s : State) :
    Res State := do
  checkLinks t [a] [] s
  let r ← readDesc s t g
  let _ ← tlstSource a t s
  let s1 ← if ar = 1 then release s t scope.toNat else .ok s
  let (h, s2) ← tlstSource a t s1
  writeDoubles s2 t h r.toNat oc 12

/-- `tlst` (R179). -/
def execTlst (g : BitVec 4) (a : BitVec 5) (oc : BitVec 4) (ar : BitVec 1) (scope : BitVec 3) (s : State) : Out :=
  runC s (tlstBody g a oc ar scope)

end Sys2Proof.Machine
end

