-- ==== Sys2Proof/Machine/Command.lean ====
section
/-! DEFINITION. What the commands of L, X and S share: the queue entry they run for, their captured records, the checks at
start beyond R77, the elements they read and write, and their end (06 R138-R142, 03 R74, 09 R216, R217, 11 R264-R268). -/

namespace Sys2Proof.Machine

open Sys2Proof

/-! ### The entry that runs -/

/-- The queue entry of the command that a meaning runs for. -/
def State.entryOf (s : State) (t : Nat) (e : Engine) : Option QEntry :=
  ((s.tile t).queue e).find? fun q => q.id = s.focus.entry

/-- Changes that entry. -/
def State.onEntry (s : State) (t : Nat) (e : Engine) (f : QEntry → QEntry) : State :=
  s.onTile t fun tl => tl.setQueue e ((tl.queue e).map fun q => if q.id = s.focus.entry then f q else q)

/-- How far the command has come. -/
def State.progOf (s : State) (t : Nat) (e : Engine) : CmdProgress :=
  ((s.entryOf t e).map (·.prog)).getD .start

/-- Records how far the command has come. -/
def State.onProg (s : State) (t : Nat) (e : Engine) (f : CmdProgress → CmdProgress) : State :=
  s.onEntry t e fun q => { q with prog := f q.prog }

/-- The word index that TRAPPC takes for the command (R366). -/
def State.indexOf (s : State) (t : Nat) (e : Engine) : Nat := ((s.entryOf t e).map (·.index)).getD 0

/-- A trap of the command: it stays in its queue, trapped, until `eret` (R367, R369). -/
def trapCommand (s : State) (t : Nat) (e : Engine) (c : Cause) (info : BitVec 14) : State :=
  deliverTrap (s.onEntry t e fun q => { q with phase := .trapped }) t e c info (s.indexOf t e) (some s.focus.entry)

/-- The word that an entry is running, or would run: in a nest, the body word it has reached. -/
def QEntry.active (q : QEntry) : IWord :=
  match q.nest with
  | none => q.word
  | some n => (q.body[n.body]?).getD q.word

/-- The entries ahead of one in its queue. -/
def Tile.ahead (tl : Tile) (e : Engine) (id : Nat) : List QEntry := (tl.queue e).takeWhile fun q => q.id ≠ id

/-- The entries that stand before the command's in its queue. -/
def State.earlier (s : State) (t : Nat) (e : Engine) : List QEntry :=
  if (s.entryOf t e).isSome then (s.tile t).ahead e s.focus.entry else []

/-- A command that has started, or has gone back to its queue since, and has still to make accesses (R139, R369, R372). -/
def QEntry.toDo (q : QEntry) : Bool := q.phase == .running || q.phase == .queued

/-- An earlier command of the engine has accesses to make, its note among them (R141, R267). -/
def State.earlierRuns (s : State) (t : Nat) (e : Engine) : Bool :=
  (s.earlier t e).any QEntry.toDo || (e = .S && (s.tile t).notes.any fun n => n.entry < s.focus.entry)

/-- A command waits for accesses of an earlier one. Under a lull sequence, where that one has gone back to its queue and no
command ahead runs, it goes back too, as far as it has come (R372; log 7 for what R145 and R300-R306 ask of it). -/
def heldStop {α : Type} (s : State) (t : Nat) (e : Engine) : Res α :=
  .error (if (s.tile t).lull ≠ .none && (s.earlier t e).any (·.phase == .queued) && !(s.earlier t e).any (·.phase == .running)
    then .back s else .wait s)

/-- THE RELEASE OF A COMMAND (R305): the accesses of the commands before it come first; one that has to wait keeps its bound. -/
def releaseCmd (s : State) (t : Nat) (e : Engine) (scope : Nat) : Res State :=
  if s.earlierRuns t e then heldStop s t e
  else match releaseIn s t [e] allClasses scope (s.progOf t e).relSince with
    | .error (.wait s1) => .error (.wait (s1.onProg t e fun p =>
        { p with relSince := some (p.relSince.getD (s1.stamp, s1.nextRequest)) }))
    | r => r

/-- Sets FPAGE of an engine's status register (R281). -/
def setFpage (s : State) (t : Nat) (e : Engine) (va : Nat) : State :=
  s.onTile t fun tl => match e with
    | .S => { tl with sstat := { tl.sstat with fpage := BitVec.ofNat 52 (va / 4096) } }
    | _ => { tl with lstat := { tl.lstat with fpage := BitVec.ofNat 52 (va / 4096) } }

/-- A command stops on a page that is not present, and the port raises a fault record (R268, R371). -/
def pageStop (s : State) (t : Nat) (e : Engine) (va : Nat) : State :=
  let s1 := setFpage (s.onEntry t e fun q =>
    { q with phase := .running, prog := { q.prog with page := some (va, none) } }) t e va
  { s1 with pageFaults := s1.pageFaults ++
      [{ ctx := (s.tile t).owner.getD 0, gen := ((s.ctxOf t).map (·.gen)).getD 0, va := va,
         who := .command t e s.focus.entry }] }

/-- RUNNING A COMMAND of L, X or S: its effect is performed, or it waits where it has come, or it traps precisely
(R139, R156, R216, R268). Completion, with its give tokens, is a step of its own (R141). -/
def runCmd (e : Engine) (s : State) (body : Nat → State → Res State) : Out :=
  let t := s.here
  match body t s with
  | .ok s' => .next (s'.onEntry t e fun q => { q with phase := .performed })
  | .error (.trap c info) => .next (trapCommand s t e c info)
  | .error (.trapIn s' c info) => .next (trapCommand s' t e c info)
  | .error .stall => .next (s.onEntry t e fun q => { q with phase := .running })
  | .error (.page va) => .next (pageStop s t e va)
  | .error (.wait s') => .next (s'.onEntry t e fun q => { q with phase := .running })
  | .error (.back s') => .next (s'.onEntry t e fun q => { q with phase := .queued })

/-! ### Records -/

/-- Bytes `n` of a block from a byte place. -/
def blockField (b : Line) (at_ n : Nat) : Nat := b.toNat / 2 ^ (8 * at_) % 2 ^ (8 * n)

/-- CNT of a dimension of a nest block (R234). -/
def blockCnt (b : Line) (d : Nat) : Nat := blockField b (2 * d) 2

/-- The enabled slot that names a descriptor (R234). -/
def blockSlot (b : Line) (g : Nat) : Option Nat :=
  (List.range 3).find? fun s => let v := blockField b (12 + s) 1; 128 ≤ v && v % 16 = g

/-- DELTA of a slot and a dimension (R234). -/
def blockDelta (b : Line) (s d : Nat) : Int := signedOf 16 (blockField b (16 + 12 * s + 2 * d) 2)

/-- The number of points of a nest. -/
def blockPoints (b : Line) : Nat := ((List.range 6).map fun d => blockCnt b d + 1).foldl (· * ·) 1

/-- The index of a point in dimension `d`; dimension 0 is innermost (R235). -/
def blockIndex (b : Line) (point d : Nat) : Nat :=
  point / ((List.range d).map fun k => blockCnt b k + 1).foldl (· * ·) 1 % (blockCnt b d + 1)

/-- A record as a replay uses it: BASE stepped by its slot (R235). -/
def stepRecord (n : NestState) (g : Nat) (r : Tlr) : Tlr :=
  match blockSlot n.block g with
  | none => r
  | some sl =>
    let d := ((List.range 6).map fun d => (blockIndex n.block n.point d : Int) * blockDelta n.block sl d).foldl (· + ·) 0
    Tlr.put r 0 64 (Tlr.base r + BitVec.ofInt 64 (64 * d)).toNat

/-- The record that a descriptor field of a command names: the captured copy, stepped in a nest (R74, R235); without
a capture, the descriptor as it stands. -/
def cmdDesc (s : State) (t : Nat) (e : Engine) (g : BitVec 4) : Res Tlr :=
  match s.entryOf t e with
  | none => readDesc s t g
  | some q => match tFind q.caps g.toNat, q.nest with
    | none, _ => readDesc s t g
    | some r, none => .ok r
    | some r, some n => .ok (stepRecord n g.toNat r)

/-! ### What a command touches -/

/-- A run of generic addresses that a command may read or write, with the bytes of the own scratchpad that the range
checker compares (R142, R363, R376). -/
structure Span where
  addr : Word
  n : Nat
  rd : Bool
  wr : Bool
  own : List (Nat × Nat)
  deriving DecidableEq, Repr

/-- The span of a record's box. -/
def recSpan (s : State) (t : Nat) (e : Engine) (r : Tlr) (box : Option Box) (rd wr : Bool) : List Span :=
  match box with
  | none => []
  | some b =>
    let (lo, hi) := Tlr.span r b
    [{ addr := Tlr.base r + BitVec.ofInt 64 (lo - spaceOffset (Tlr.base r)), n := (hi - lo + 1).toNat, rd := rd, wr := wr,
       own := ownInterval s t e r box }]

/-- The span of a run of the own scratchpad that a command names by its offset. -/
def ownSpan (s : State) (t : Nat) (off n : Nat) (rd wr : Bool) : Span :=
  { addr := localAddr (s.tile t).tileId.toNat off, n := n, rd := rd, wr := wr, own := [(off, off + n)] }

/-- The watches of a command's spans, in order (R376). -/
def watchSpans (s : State) (t : Nat) : List Span → Res State
  | [] => .ok s
  | sp :: rest => do
    let s1 ← checkWatch s t sp.addr sp.n sp.rd sp.wr
    watchSpans s1 t rest

/-- The lowest lapsed subscription whose region a span of the own scratchpad meets (R363). -/
def lapsedSpan (tl : Tile) (sps : List Span) : Option Nat :=
  (tl.subs.find? fun (i, e) => tl.barred i e &&
    sps.any fun sp => sp.own.any fun (a, b) => e.soff.toNat < b && a < e.soff.toNat + 64 * e.lines.toNat).map (·.1)

/-- The checks that follow a command's own: watches, then lapsed subscriptions (R363, R376), for which an access of the own
scratchpad reads the subscriber table (R380). -/
def guards (s : State) (t : Nat) (sps : List Span) : Res State := do
  let s1 ← watchSpans s t sps
  check (!((s.tile t).subsBad && sps.any fun sp => sp.own.any fun (a, b) => a < b)) .MEMERR
  match lapsedSpan (s.tile t) sps with
  | none => .ok s1
  | some k => .error (.trap .LAPSED (BitVec.ofNat 14 k))

/-- Two commands may not run at once: a write of one meets an access of the other (R142). -/
def spansConflict (a b : List Span) : Bool :=
  a.any fun x => b.any fun y => (x.wr || y.wr) && x.own.any fun (p, q) => y.own.any fun (u, v) => p < v && u < q

/-! ### Scratchpad areas named by an offset in units of 64 bytes (R202) -/

/-- The byte offset of an OFF field. -/
def areaOf (off : BitVec 15) : Nat := 64 * off.toNat

/-- The PERM rule of R202 for an area of `n` bytes. -/
def checkArea (off : BitVec 15) (n : Nat) : Res Unit := check (areaOf off + n ≤ bandStart) .PERM

/-- Reads an area: MEMERR on a poisoned line. -/
def readArea (s : State) (t off n : Nat) : Res Nat :=
  if poisoned (s.tile t).poison off n 64 then trap .MEMERR else .ok (bytesNat ((s.tile t).scratch.readBytes off n))

/-! ### Elements -/

/-- A stop of an element as a command raises it. -/
def liftStop {α : Type} (r : Except MStop α) : Res α :=
  match r with
  | .ok v => .ok v
  | .error (.refuse c) => trap c
  | .error (.page va) => .error (.page va)
  | .error .busy => .error .stall

/-- Where a note lies, and its length (R267). -/
def PendingNote.place (s : State) (t : Nat) (n : PendingNote) : Home × Nat :=
  (homeOfOffset s t .S (Tlr.base n.record) (spaceOffset (Tlr.base n.record)), elemBytes (Tlr.fmt n.record))

/-- A token of another command of the engine is on its way to bytes of a run, or a note that an S command before it owes: a read
of them returns that write's value, or a later one, and so waits for it (R267, R297, R299). -/
def State.ownToken (s : State) (t : Nat) (e : Engine) (u off n : Nat) : Bool :=
  (s.tokens.any fun k => k.src = t && k.eng = e && k.entry ≠ s.focus.entry && k.home = u &&
    off < k.offset + k.size && k.offset < off + n) ||
  (e = .S && (s.tile t).notes.any fun k => k.entry < s.focus.entry && match k.place s t with
    | (.scratch v o, l) => v = u && off < o + l && o < off + n
    | _ => false)

/-- Reads `n` bytes of a home, raw, for an engine of tile `t`. -/
def readHome (s : State) (t : Nat) (e : Engine) (h : Home) (n : Nat) : Except MStop Nat :=
  match h with
  | .scratch u off =>
    if s.ownToken t e u off n then .error .busy
    else if poisoned (s.tile u).poison off n 64 then .error (.refuse .MEMERR) else .ok (bytesNat (scratchBytes s t u off n))
  | .global va => do
    let r ← translateFor s t va n true false
    .ok (bytesNat (← routeRead s r n))
  | .opm u off =>
    if (s.tile u).opmBusy off then .error .busy
    else if (s.tile u).badAt off 8 then .error (.refuse .MEMERR)
    else .ok (opmRead s u off false).toNat

/-- Writes bytes to a home for an engine of tile `t`; a write of a scratchpad reads its publisher table (R354, R380). -/
def writeHome (s : State) (t : Nat) (e : Engine) (h : Home) (n v : Nat) (cls : BitVec 4) : Except MStop State :=
  match h with
  | .scratch u off =>
    if (s.tile u).pubsBad then .error (.refuse .MEMERR)
    else .ok (scratchWrite s u off (natBytes n v) cls true (e = .X))
  | .global va => do
    let r ← translateFor s t va n false true
    .ok (routeWrite (s.viaPort t h n true cls) ((s.tile t).owner.getD 0) (.engine t e s.focus.entry) cls r (natBytes n v))
  | .opm u off =>
    if (s.tile u).opmWriteBusy off then .error .busy
    else
      let (s1, discarded) := opmWrite s u off (BitVec.ofNat 64 v)
      .ok (if discarded then s1.onTile t fun tl => match e with
            | .S => { tl with sstat := { tl.sstat with opmBusy := true } }
            | _ => { tl with lstat := { tl.lstat with opmBusy := true } }
          else s1)

/-- Writes one nibble of the byte at a home: the other keeps the value that it has there, whatever permission a read would need
(R309). -/
def writeNibble (s : State) (t : Nat) (e : Engine) (h : Home) (high : Bool) (n : Nat) (cls : BitVec 4) : Except MStop State :=
  match h with
  | .scratch u off => writeHome s t e h 1 (mergeNibble ((s.tile u).scratch.byte off).toNat high n) cls
  | .global va => do
    let r ← translateFor s t va 1 false true
    .ok (routeNibble (s.viaPort t h 1 true cls) ((s.tile t).owner.getD 0) (.engine t e s.focus.entry) cls r high n)
  | .opm _ _ => writeHome s t e h 1 (mergeNibble 0 high n) cls

/-- Reads `bits` bits of an element where R75 and R48 put them. A 4-bit element is its four container bits as they stand,
an i3 element's bit 3 among them: R37 has reads of i3 ignore it, and R266 copies an element bit for bit (DESIGN CHOICE,
log 8). -/
def readElem (s : State) (t : Nat) (e : Engine) (r : Tlr) (bits : Nat) (el : Elem) : Except MStop Nat :=
  match el with
  | .discard => .ok 0
  | .value v => .ok (v % 2 ^ bits)
  | .place off nib => do
    let v ← readHome s t e (homeOfOffset s t e (Tlr.base r) off) ((bits + 7) / 8)
    .ok (if bits = 4 then v / (if isNibble (Tlr.fmt r) && nib = 1 then 16 else 1) % 16 else v)

/-- An i3 element is written with container bit 3 equal to bit 2 (R37). -/
def nibbleBits (fmt v : Nat) : Nat := if fmt = 10 then v % 8 + (if 4 ≤ v % 8 then 8 else 0) else v % 16

/-- Writes `bits` bits of an element of format `fmt` where R75 and R48 put them. -/
def writeElem (s : State) (t : Nat) (e : Engine) (r : Tlr) (bits fmt : Nat) (el : Elem) (v : Nat) (cls : BitVec 4) :
    Except MStop State :=
  match el with
  | .discard => .ok s
  | .value _ => .ok s
  | .place off nib =>
    let h := homeOfOffset s t e (Tlr.base r) off
    if bits = 4 then writeNibble s t e h (isNibble (Tlr.fmt r) && nib = 1) (nibbleBits fmt v) cls
    else writeHome s t e h ((bits + 7) / 8) v cls

/-! ### Words (R190) -/

/-- Elements in a word of a format. -/
def perWord (fmt : Nat) : Nat := 512 / elemBits fmt

/-- Element `i` of a word. -/
def wordElem (fmt : Nat) (w : Line) (i : Nat) : Nat := w.toNat / 2 ^ (elemBits fmt * i) % 2 ^ elemBits fmt

/-- Packs elements into a number, the first lowest. -/
def packElems (w : Nat) : List Nat → Nat
  | [] => 0
  | v :: vs => v % 2 ^ w + 2 ^ w * packElems w vs

/-- A word of elements; missing ones are zero. -/
def wordOf (fmt : Nat) (vs : List Nat) : Line := BitVec.ofNat 512 (packElems (elemBits fmt) vs)

/-- The number of words that a window packs into. -/
def Tlr.words (r : Tlr) : Nat := (Tlr.count r + perWord (Tlr.fmt r) - 1) / perWord (Tlr.fmt r)

/-- Reads elements `k` to `k + n - 1` of a window, in walk order. -/
def readElems (s : State) (t : Nat) (e : Engine) (r : Tlr) (k : Nat) : Nat → Except MStop (List Nat)
  | 0 => .ok []
  | n + 1 => do
    let v ← readElem s t e r (elemBits (Tlr.fmt r)) (Tlr.elem r k false)
    let rest ← readElems s t e r (k + 1) n
    .ok (v :: rest)

/-- Word `w` of a window, padded with zeros; a zero word after its end (R199, R201). -/
def windowWord (s : State) (t : Nat) (e : Engine) (r : Tlr) (w : Nat) : Except MStop Line := do
  let p := perWord (Tlr.fmt r)
  let vs ← readElems s t e r (w * p) (min p (Tlr.count r - w * p))
  .ok (wordOf (Tlr.fmt r) vs)

/-- Writes elements to a window from element `k` on, in walk order; those beyond the window are discarded. -/
def writeElems (s : State) (t : Nat) (e : Engine) (r : Tlr) (cls : BitVec 4) (k : Nat) :
    List Nat → Except MStop State
  | [] => .ok s
  | v :: vs =>
    if Tlr.count r ≤ k then .ok s
    else do
      let fmt := Tlr.fmt r
      let s1 ← writeElem s t e r (elemBits fmt) fmt (Tlr.elem r k true) v cls
      writeElems s1 t e r cls (k + 1) vs

/-- The elements of a word. -/
def wordElems (fmt : Nat) (w : Line) : List Nat := (List.range (perWord fmt)).map (wordElem fmt w)

/-! ### Stream ports (R121) -/

/-- Capacity of a port FIFO in words. -/
def portDepth : Nat := 8

/-- The inbound and outbound FIFOs of a tile port. -/
def Tile.inFifo (tl : Tile) (p : Nat) : List StreamWord := tGet [] tl.inPorts p
def Tile.outFifo (tl : Tile) (p : Nat) : List StreamWord := tGet [] tl.outPorts p

/-- A word that is data rather than EOS or a marker. -/
def StreamWord.isData (w : StreamWord) : Bool := w.kind.toNat < 2

/-- Takes the head of an inbound FIFO. -/
def takeIn (s : State) (t p : Nat) : State :=
  s.onTile t fun tl => { tl with inPorts := tSet [] tl.inPorts p (tl.inFifo p).tail }

/-- Room in an outbound FIFO. -/
def outRoom (s : State) (t p : Nat) : Bool := ((s.tile t).outFifo p).length < portDepth

/-- Sends a word to an outbound FIFO. -/
def putOut (s : State) (t p : Nat) (w : StreamWord) : State :=
  s.onTile t fun tl => { tl with outPorts := tSet [] tl.outPorts p (tl.outFifo p ++ [w]) }

/-- A configuration error owed by a region, to the tile's first command that names a port of that region. A port
holds the region's number plus one; the trap settles the error for every port of the region (R126). -/
def checkPort (s : State) (t p : Nat) : Res State :=
  let k := tGet 0 (s.tile t).cfgErr p
  if k = 0 then .ok s
  else .error (.trapIn (s.onTile t fun tl => { tl with cfgErr := tl.cfgErr.filter fun e => e.2 ≠ k }) .CFGERR 0)

end Sys2Proof.Machine
end

