-- ==== Sys2Proof/Machine/Streams.lean ====
section
/-! DEFINITION. Contexts' images, endpoints and the ways that stream words take between tiles, regions, route elements and
generators (01 R16-R19, 05 R121, 09 R236, R237). -/

namespace Sys2Proof.Machine

open Sys2Proof

/-! ### Contexts -/

/-- Changes a context. -/
def State.onCtx (s : State) (n : Nat) (f : Context → Context) : State :=
  match tFind s.ctxs n with
  | none => s
  | some c => { s with ctxs := tInsert s.ctxs n (f c) }

/-- The accepted image of a context (R28). -/
def State.imageOf (s : State) (c : Context) : Option Image := tFind s.images c.copy

/-- The module coordinate of a relative coordinate of a placed context (R111). -/
def Context.tileAt (c : Context) (rel : Nat) : Nat := (c.row + rel / 64) * 64 + (c.col + rel % 64)

/-- The relative coordinates of a rectangle, in row-major order. -/
def Context.rels (c : Context) : List Nat :=
  (List.range (c.height * c.width)).map fun i => i / c.width * 64 + i % c.width

/-- The tiles of a placed context, by module coordinate, in row-major order. -/
def Context.tileList (c : Context) : List Nat := c.rels.map c.tileAt

/-- Owns tiles that run or drain: placed, or under a lull sequence. -/
def Context.onModule (c : Context) : Bool := c.phase == .placed || c.phase == .lulling

/-- The endpoints of a context, in table order. -/
def State.endpointsOf (s : State) (c : Context) : List Endpoint := ((s.imageOf c).map (·.endpoints)).getD []

/-- An endpoint by its index in the table. -/
def State.endpoint (s : State) (c : Context) (i : Nat) : Option Endpoint := (s.endpointsOf c)[i]?

/-- An endpoint's generator. -/
def Context.generator (c : Context) (i : Nat) : Generator := tGet .idle c.gens i

/-- Changes an endpoint's generator. -/
def State.onGen (s : State) (n i : Nat) (f : Generator → Generator) : State :=
  s.onCtx n fun c => { c with gens := tSet .idle c.gens i (f (c.generator i)) }

/-- The operand that the active run binds to an endpoint, or that the last run left (R91). -/
def Context.operand (c : Context) (i : Nat) : Operand :=
  match c.run with
  | some r => match tFind r.binding.ops i with
    | some o => o
    | none => tGet .none c.lastOps i
  | none => tGet .none c.lastOps i

/-- The section of the configuration that a region has loaded. -/
def State.regionSec (s : State) (c : Context) (r : Region) : Option RegionSec :=
  match s.imageOf c with
  | none => none
  | some im => tFind im.regions r.stage

/-- The port map that a region has loaded. -/
def State.regionPorts (s : State) (c : Context) (r : Region) : List PortMap :=
  ((s.regionSec c r).map (·.ports)).getD []

/-- A failure event of a run reaches the Front: the first one names the record (R386). -/
def failRun (s : State) (n : Nat) (f : RunFail) : State :=
  s.onCtx n fun c => match c.run with
    | none => c
    | some r => if r.fail.isSome then c else { c with run := some { r with fail := some f } }

/-- A function by number. -/
def State.function (s : State) (f : Nat) : Function := tGet .reset s.functions f

/-- Changes a function. -/
def State.onFunction (s : State) (f : Nat) (g : Function → Function) : State :=
  { s with functions := tSet .reset s.functions f (g (s.function f)) }

/-- Host memory may be used for a function: the link is up, and its security is established again (R391). -/
def State.hostReady (s : State) (f : Nat) : Bool :=
  let fn := s.function f
  s.linkUp && (!fn.ideUsed || fn.ideUp) && (!fn.tdispUsed || fn.tdispLocked)

/-- The number of a host address space: a function and a PASID (R80). -/
def hostSpace (func pasid : Nat) : Nat := func * 2 ^ 20 + pasid

/-- The memory of a host space. -/
def State.host (s : State) (space : Nat) : Memory := tGet [] s.hostMem space

/-- Writes bytes of a host space. -/
def State.hostWrite (s : State) (space addr : Nat) (bytes : List Byte) : State :=
  { s with hostMem := tSet [] s.hostMem space ((s.host space).writeBytes addr bytes) }

/-- The key of a page of a host space in the ATS cache (R270). -/
def atsKey (space iova : Nat) : Nat := space * 2 ^ 52 + iova / 4096

/-- Asks the host for a page (R270). -/
def askHost (s : State) (ctx : Nat) (gen : BitVec 16) (space iova : Nat) (epid : BitVec 16) (who : PageWaiter) : State :=
  { s with
    hostRequests := s.hostRequests ++
      [{ number := s.nextRequest, ctx := ctx, gen := gen, space := space, iova := iova, epid := epid, who := who }]
    nextRequest := s.nextRequest + 1
    outbox := s.outbox ++ [.pageRequest s.nextRequest space (iova / 4096 * 4096)] }

/-! ### Corner-turn nodes on the way to an inbound port (R236) -/

/-- Bits [lo + w - 1 : lo] of a route entry. -/
def RouteNode.bits (n : RouteNode) (lo w : Nat) : Nat := n.param.toNat / 2 ^ lo % 2 ^ w

/-- The corner-turn nodes of a tile that words for an inbound port pass, the lower slot first. -/
def Tile.turners (tl : Tile) (p : Nat) : List Nat :=
  (tl.routes.filter fun (_, n) => n.kind = 0 && n.bits 40 2 = p).map (·.1)

/-- Sets a route element. -/
def Tile.setRoute (tl : Tile) (slot : Nat) (n : RouteNode) : Tile := { tl with routes := tInsert tl.routes slot n }

/-- Where a word for inbound port `p` goes after it has passed the nodes up to slot `after` (none: has passed none). -/
def Tile.nextTurner (tl : Tile) (p : Nat) (after : Option Nat) : Option Nat :=
  (tl.turners p).find? fun k => match after with
    | none => true
    | some a => a < k

/-- There is room for a word. A tile under a lull sequence takes words beyond its FIFO into the saved state (R372,
R373). -/
def Tile.inRoom (tl : Tile) (p : Nat) (after : Option Nat) : Bool :=
  match tl.nextTurner p after with
  | some k => match tFind tl.routes k with
    | some n => n.inq.isEmpty
    | none => false
  | none => (tl.inFifo p).length < portDepth || tl.lull ≠ .none

/-- Puts a word into the inbound FIFO, or into the node before it. -/
def Tile.putIn (tl : Tile) (p : Nat) (after : Option Nat) (w : StreamWord) : Tile :=
  match tl.nextTurner p after with
  | some k => match tFind tl.routes k with
    | some n => tl.setRoute k { n with inq := n.inq ++ [w] }
    | none => tl
  | none => { tl with inPorts := tSet [] tl.inPorts p (tl.inFifo p ++ [w]) }

/-- Room for a word towards an inbound port of a tile. -/
def State.inRoom (s : State) (u p : Nat) : Bool := (s.tile u).inRoom p none

/-- Delivers a word towards an inbound port of a tile. -/
def deliver (s : State) (u p : Nat) (w : StreamWord) : State := s.onTile u (·.putIn p none w)

/-- Takes the head of an outbound FIFO. -/
def takeOut (s : State) (u p : Nat) : State :=
  s.onTile u fun tl => { tl with outPorts := tSet [] tl.outPorts p (tl.outFifo p).tail }

/-- A lull marker (R121). -/
def marker : StreamWord := { data := 0, kind := 3 }

/-- An end-of-stream word (R121, R274). -/
def eosWord : StreamWord := { data := 0, kind := 2 }

/-- A word is a lull marker. -/
def StreamWord.isMarker (w : StreamWord) : Bool := w.kind = 3

/-- A word is an EOS. -/
def StreamWord.isEos (w : StreamWord) : Bool := w.kind = 2

/-! ### Endpoints at tile ports -/

/-- A QUEUE endpoint feeds a port rather than being fed by one: a region input that the image maps at its tile port is
fed, a region output there feeds it, and elsewhere the implementation decides (R284, log 21). -/
def queueFeeds (im : Image) (ep : Endpoint) : Bool :=
  let maps := (im.regions.flatMap fun (_, r) => r.ports).filter fun m => m.tile = ep.tile && m.tport = ep.port
  if maps.any (!·.toTile) then true
  else if maps.any (·.toTile) then false
  else Config.queueFeeds im.imageId.toNat ep.epid.toNat

/-- A kind whose endpoint feeds an inbound port. -/
def Endpoint.feeds (im : Image) (ep : Endpoint) : Bool :=
  match ep.kind with
  | .memIn | .hostIn | .hostToken | .jetIn => true
  | .queue => queueFeeds im ep
  | _ => false

/-- The region input that a QUEUE endpoint feeds stands at the tile's outbound port, and the region output that feeds
one at its inbound port: their FIFOs are those of the tile port (R121, R284). -/
def atRegion (im : Image) (ep : Endpoint) : Bool :=
  ep.kind == .queue && (im.regions.flatMap fun (_, r) => r.ports).any fun m => m.tile = ep.tile && m.tport = ep.port

/-- Endpoints of a context whose generators feed inbound port `p` of tile `u`, by index. -/
def State.feeders (s : State) (c : Context) (u p : Nat) : List Nat :=
  match s.imageOf c with
  | none => []
  | some im => (im.endpoints.zipIdx.filter fun (e, _) =>
      e.port = p && c.tileAt e.tile = u && e.feeds im && !atRegion im e).map (·.2)

/-- Inbound port `p` of tile `u` is fed by a HOST-TOKEN endpoint (R98, R272). -/
def State.tokenPort (s : State) (u p : Nat) : Bool :=
  match s.ctxOf u with
  | none => false
  | some c => (s.feeders c u p).any fun i => match s.endpoint c i with
    | some e => e.kind == .hostToken
    | none => false

/-- An `rcv.e` has taken an EOS from an inbound port: the sinks that feed it are met, but never a HOST-TOKEN (R382). -/
def meetSinks (s : State) (u p : Nat) : State :=
  match (s.tile u).owner with
  | none => s
  | some n => match tFind s.ctxs n with
    | none => s
    | some c => (s.feeders c u p).foldl (fun s i =>
        if ((s.endpoint c i).map (·.kind)) = some .hostToken then s else s.onGen n i fun g => { g with met := true }) s

end Sys2Proof.Machine
end

