-- ==== Sys2Proof/Machine/Packets.lean ====
section
/-! DEFINITION. Packets, their completion records, and validation (04 R80, R86-R94, R99-R101). -/

namespace Sys2Proof.Machine

open Sys2Proof

/-! ### Fields -/

/-- Bits [lo + w - 1 : lo] of a number. -/
def bitsOf (v lo w : Nat) : Nat := v / 2 ^ lo % 2 ^ w

/-- Ones at the listed fields, each a low bit and a width. -/
def fieldMask (fs : List (Nat × Nat)) : Nat := fs.foldl (fun m (lo, w) => m ||| (2 ^ w - 1) * 2 ^ lo) 0

/-- Every bit outside the listed fields is zero (R3). -/
def onlyBits (v : Nat) (fs : List (Nat × Nat)) : Bool := v &&& fieldMask fs == v

/-- A field of a packet (R86). -/
def pktField (p : BitVec 512) (lo w : Nat) : Nat := bitsOf p.toNat lo w

/-- OPC (R86). -/
def pktOpc (p : BitVec 512) : Nat := pktField p 0 5

/-- CTX, of the packets that name a context (R88, R89). -/
def pktCtx (p : BitVec 512) : Nat := pktField p 8 5

/-- RUNTAG: at [127:96] in a `QDESTROY`, at [95:64] in every other packet (R88, R89). -/
def pktTag (p : BitVec 512) : Nat := if pktOpc p = 0x0B then pktField p 96 32 else pktField p 64 32

/-! ### Statuses (R31, R93, R94, R100) -/

/-- The statuses of a completion record. -/
inductive Status where
  | OK | STREAMFAULT | HOSTLINK | KILLED | CTXFAULT | JETLINK
  | V_OPCODE | V_RSVD | V_CONTEXT | V_PRIO | V_WINDOW | V_ENDPOINT | V_CQ | V_FETCH | V_SOURCE | V_RING
  | IMG_FORMAT | IMG_STEP | IMG_AUTHOR | IMG_SIG | IMG_RSVD | IMG_LIMIT | IMG_BOUNDS | IMG_CONFLICT | IMG_REGION
  | IMG_SPACE | NOFIT | OVERCOMMIT | NOQUEUE | NOCTX
  deriving DecidableEq, Repr

/-- The code of a status. -/
def Status.code : Status → Nat
  | .OK => 0x00 | .STREAMFAULT => 0x01 | .HOSTLINK => 0x02 | .KILLED => 0x03 | .CTXFAULT => 0x04 | .JETLINK => 0x05
  | .V_OPCODE => 0x10 | .V_RSVD => 0x11 | .V_CONTEXT => 0x12 | .V_PRIO => 0x13 | .V_WINDOW => 0x14
  | .V_ENDPOINT => 0x15 | .V_CQ => 0x16 | .V_FETCH => 0x17 | .V_SOURCE => 0x18 | .V_RING => 0x19
  | .IMG_FORMAT => 0x20 | .IMG_STEP => 0x21 | .IMG_AUTHOR => 0x22 | .IMG_SIG => 0x23 | .IMG_RSVD => 0x24
  | .IMG_LIMIT => 0x25 | .IMG_BOUNDS => 0x26 | .IMG_CONFLICT => 0x27 | .IMG_REGION => 0x29 | .IMG_SPACE => 0x2A
  | .NOFIT => 0x30 | .OVERCOMMIT => 0x31 | .NOQUEUE => 0x32 | .NOCTX => 0x33

/-! ### Completion records (R99, R101) -/

/-- What a record reports beside its packet. -/
structure Report99 where
  status : Nat
  ctx : Nat
  result : Nat
  fepid : Nat
  faddr : Nat
  deriving DecidableEq, Repr

/-- A status, and nothing else. -/
def Status.plain (st : Status) : Report99 := { status := st.code, ctx := 0, result := 0, fepid := 0, faddr := 0 }

/-- A status for a packet that names a context. -/
def Status.on (st : Status) (ctx : Nat) : Report99 := { st.plain with ctx := ctx }

/-- SQ and LANE of a source: its queue, or its port. -/
def srcBits : PktSrc → Nat
  | .queue q => q % 2 ^ 12 * 2 ^ 48
  | .lane p _ => p % 2 ^ 6 * 2 ^ 48 + 2 ^ 60

/-- The 32 bytes of a record, with PHASE still to be set (R99). DESIGN CHOICE (log 26): R6 says that IMAGEID is reported in
completions and evidence, and no field of R99 or R100 holds it; it is reported in the evidence alone. -/
def recordBody (src : PktSrc) (runtag : Nat) (r : Report99) : BitVec 256 :=
  BitVec.ofNat 256 (r.faddr % 2 ^ 64 * 2 ^ 192 + r.fepid % 2 ^ 16 * 2 ^ 128 + r.result % 2 ^ 64 * 2 ^ 64 + srcBits src
    + r.ctx % 2 ^ 5 * 2 ^ 40 + r.status % 2 ^ 8 * 2 ^ 32 + runtag % 2 ^ 32)

/-! ### Jet messages (16 R396-R400) -/

/-- A jet port by number. -/
def State.jet (s : State) (p : Nat) : JetPort := tGet .reset s.jets p

/-- Changes a jet port. -/
def State.onJet (s : State) (p : Nat) (f : JetPort → JetPort) : State :=
  { s with jets := tSet .reset s.jets p (f (s.jet p)) }

/-- Flits of a message: its header flit, and 32 bytes in each further one. -/
def JetMsg.parts : JetMsg → Nat
  | .word _ _ => 3
  | .credit _ _ => 1
  | .packet _ => 3
  | .record _ => 2

/-- The flits of a message. -/
def JetMsg.flits (m : JetMsg) : List JetFlit := (List.range m.parts).map fun k => { msg := m, part := k, parts := m.parts }

/-- Sends a message on a port. A link that is not up carries nothing (R399). -/
def sendJet (s : State) (p : Nat) (m : JetMsg) : State :=
  if (s.jet p).link = .up then s.onJet p fun j => { j with txq := j.txq ++ m.flits } else s

/-! ### Completing a packet or a run -/

/-- A context is no longer busy with a record (R95, R101). -/
def notBusy (s : State) (ctx : Option Nat) : State :=
  match ctx with
  | none => s
  | some n => s.onCtx n fun c => { c with busy := false }

/-- A completion goes to its writer, or back over its lane (R94, R101). `ctx` is the context that stays busy until the
record is written. -/
def complete (s : State) (src : PktSrc) (cq : Nat) (body : BitVec 256) (ctok cirq : Bool) (ctx : Option Nat) : State :=
  match src with
  | .lane p _ => notBusy (sendJet s p (.record body)) ctx
  | .queue _ =>
    { s with held := s.held ++ [{ cq := cq, body := body, ctok := ctok, cirq := cirq, ctx := ctx }] }

/-- DCQ of a source; a lane has none. -/
def State.dcqOf (s : State) : PktSrc → Nat
  | .lane _ _ => 0
  | .queue q => ((tFind s.subQs q).map (·.ring.dcq)).getD 0

/-- Completes a packet on the DCQ of its queue. -/
def replyDcq (s : State) (src : PktSrc) (runtag : Nat) (r : Report99) : State :=
  complete s src (s.dcqOf src) (recordBody src runtag r) false false none

/-! ### What a source permits -/

/-- The limits under which a packet of a source is validated (R80, R94). A lane belongs to no function. -/
structure Limits where
  func : Option Nat
  opmask : Nat
  ctxmask : Nat
  prioMax : Nat
  windows : List Window
  pasid : Nat
  deriving DecidableEq, Repr

/-- An entry matches a source ID (R94). -/
def LaneSource.hits (e : LaneSource) (source : BitVec 12) : Bool := source &&& e.srcMask == e.srcId

/-- The limits of a source, if it has any: a queue that exists, or a lane with a matching entry. -/
def State.limitsOf (s : State) : PktSrc → Option Limits
  | .queue q => (tFind s.subQs q).map fun k =>
    { func := some k.ring.func, opmask := k.opmask.toNat, ctxmask := k.ctxmask.toNat, prioMax := k.prioMax,
      windows := k.windows, pasid := k.ring.pasid }
  | .lane p source =>
    let es := (s.jet p).sources.filter fun (_, e) => e.hits source
    if es.isEmpty then none
    else some { func := none, opmask := 7, ctxmask := es.foldl (fun m (_, e) => m ||| e.ctxmask.toNat) 0, prioMax := 3,
                windows := [], pasid := 0 }

/-- A live context that a packet of these limits may name (R93). -/
def State.liveCtx (s : State) (l : Limits) (n : Nat) : Option Context :=
  match tFind s.ctxs n with
  | none => none
  | some c => if (l.func.isNone || l.func = some c.func) && c.destroy.isNone then some c else none

/-- An enabled window (R80). -/
def Limits.window (l : Limits) (k : Nat) : Option Window :=
  match l.windows[k]? with
  | none => none
  | some w => if w.enabled then some w else none

/-- The first byte of a window. -/
def Window.start (w : Window) : Nat := w.base * 4096

/-- A run of bytes lies wholly inside a window. -/
def Window.holds (w : Window) (a n : Nat) : Bool := w.start ≤ a && a + n ≤ w.limit * 4096

/-- The function's device-memory allocation holds a run of bytes (R395). -/
def State.inAlloc (s : State) (f a n : Nat) : Bool :=
  let fn := s.function f
  fn.allocBase.toNat ≤ a && a + n ≤ fn.allocBase.toNat + fn.allocSize.toNat

/-- Bytes of a window's location, as the Front reads them. -/
def State.windowBytes (s : State) (l : Limits) (w : Window) (a n : Nat) : List Byte :=
  if w.host then (s.host (hostSpace (l.func.getD 0) l.pasid)).readBytes a n else devBytes s 0 a n

/-- The bytes can be read: the host's memory may be used, or no line of device memory is poisoned (R93, R391). -/
def State.windowReady (s : State) (l : Limits) (w : Window) (a n : Nat) : Bool :=
  if w.host then s.hostReady (l.func.getD 0) else !poisoned s.devPoison a n 64

/-! ### Reserved fields (R88, R89) -/

/-- The fields of a packet that are not reserved, by opcode; OPC at [4:0] with them. -/
def pktFields (opc : Nat) : List (Nat × Nat) :=
  (0, 5) :: match opc with
  | 0x00 => [(64, 32)]
  | 0x01 => [(128, 384), (98, 30), (96, 2), (64, 32), (52, 6), (44, 7), (32, 12), (24, 6), (21, 3), (20, 1), (19, 1),
             (18, 1), (16, 2), (8, 5)]
  | 0x02 => [(8, 5), (16, 16), (64, 32), (96, 32)]
  | 0x08 => [(64, 32), (128, 32), (160, 64), (224, 64)]
  | 0x09 => [(8, 5), (64, 32)]
  | 0x0A => [(64, 32), (96, 64), (160, 2)]
  | 0x0B => [(64, 12), (96, 32)]
  | 0x0C => [(8, 6), (64, 32), (96, 11), (112, 8), (120, 11)]
  | 0x0D => [(8, 5), (16, 4), (64, 32), (96, 256)]
  | 0x0E => [(8, 6), (16, 3), (64, 32), (96, 12), (112, 12), (128, 32)]
  | _ => [(0, 512)]

/-- The opcodes of R86. -/
def opcAssigned (opc : Nat) : Bool := opc ≤ 2 || (8 ≤ opc && opc ≤ 0x0E)

/-- NEPI, NEPX, ARGL, SHOVR and SHARE of a `BIND` (R89). -/
def bindNepi (p : BitVec 512) : Nat := pktField p 21 3
def bindNepx (p : BitVec 512) : Nat := pktField p 52 6
def bindArgl (p : BitVec 512) : Nat := pktField p 44 7
def bindCq (p : BitVec 512) : Nat := pktField p 32 12

/-- Inline binding `i` of a `BIND`. -/
def bindInline (p : BitVec 512) (i : Nat) : Nat := pktField p (128 + 64 * i) 64

/-- The reserved fields of a `BIND` that depend on its other fields (R89, R93). -/
def bindShape (p : BitVec 512) : Bool :=
  bindNepi p ≠ 7 && bindArgl p ≤ 64 && bindNepx p ≤ 58
    && ((List.range 6).all fun i => i < bindNepi p || bindInline p i = 0)
    && (pktField p 18 1 = 1 || pktField p 24 6 = 0)

/-! ### Bindings (R90, R283) -/

/-- A binding as it stands in a packet or in the extension block: kind-specific bits [63:16] of the inline form, or an
extended entry's length, window and address. -/
inductive RawBind where
  | inline (epid : Nat) (v : Nat)
  | extended (epid : Nat) (v : Nat)
  deriving DecidableEq, Repr

/-- Its EPID. -/
def RawBind.epid : RawBind → Nat
  | .inline e _ => e
  | .extended e _ => e

/-- The inline bindings of a packet. -/
def inlineBinds (p : BitVec 512) : List RawBind :=
  (List.range (bindNepi p)).map fun i => .inline (bindInline p i % 2 ^ 16) (bindInline p i)

/-- The endpoint with an EPID, and its index. -/
def findEp (eps : List Endpoint) (epid : Nat) : Option (Nat × Endpoint) :=
  (eps.zipIdx.find? fun (e, _) => e.epid.toNat = epid).map fun (e, i) => (i, e)

/-- Bits [63:40] and [39:16] of the inline form, wherever a binding holds them. -/
def RawBind.upper : RawBind → Nat
  | .inline _ v => bitsOf v 40 24
  | .extended _ v => bitsOf v 104 24
def RawBind.lower : RawBind → Nat
  | .inline _ v => bitsOf v 16 24
  | .extended _ v => bitsOf v 80 24

/-- The reserved bits of the kind-specific operands are zero (R283). -/
def kindReserved (k : EpKind) (b : RawBind) : Bool :=
  match k with
  | .hostToken => b.upper = 0 && b.lower = 0
  | .jetOut => b.upper % 2 ^ 12 = 0
  | .jetIn => b.upper = 0
  | _ => true

/-- The reserved bits of a binding of a kind are zero (R90, R283). -/
def RawBind.legal (k : EpKind) (b : RawBind) : Bool :=
  match b, k with
  | .inline _ _, _ => kindReserved k b
  | .extended _ v, .memIn | .extended _ v, .memOut => onlyBits v [(0, 48), (64, 64)]
  | .extended _ v, .hostIn | .extended _ v, .hostOut => onlyBits v [(0, 50), (64, 64)]
  | .extended _ v, _ => onlyBits v [(0, 16), (80, 48)] && kindReserved k b

/-- The window and the bytes of a host binding (R90): the window's index, the first byte's address, lines. -/
def RawBind.hostRun (l : Limits) (b : RawBind) : Option (Window × Nat × Nat) :=
  match b with
  | .inline _ v => (l.window (bitsOf v 16 2)).map fun w => (w, w.start + 256 * bitsOf v 40 24, bitsOf v 18 22)
  | .extended _ v => (l.window (bitsOf v 48 2)).map fun w => (w, bitsOf v 64 64, bitsOf v 16 32)

/-- A host buffer lies wholly inside an enabled host window, at a whole line (R93). -/
def RawBind.hostOk (l : Limits) (b : RawBind) : Bool :=
  match b.hostRun l with
  | none => false
  | some (w, a, n) => w.host && a % 64 = 0 && w.holds a (64 * n)

/-- The address and length of a MEM binding (R90). -/
def RawBind.memRun (tmpl : Template) : RawBind → Nat × Nat
  | .inline _ v => (tmpl.vbase + 256 * bitsOf v 40 24, bitsOf v 16 24)
  | .extended _ v => (bitsOf v 64 64, bitsOf v 16 32)

/-- A MEM binding lies wholly inside its template's range (R93). -/
def memOk (im : Image) (e : Endpoint) (b : RawBind) : Bool :=
  match im.templates[e.range]? with
  | none => false
  | some tm =>
    let (a, n) := b.memRun tm
    a % 64 = 0 && tm.vbase ≤ a && a + 64 * n ≤ tm.vlimit

/-- The operand of a binding (R90, R283). -/
def RawBind.operand (l : Limits) (im : Image) (e : Endpoint) (b : RawBind) : Operand :=
  match e.kind with
  | .memIn | .memOut => match im.templates[e.range]? with
    | none => .none
    | some tm => let (a, n) := b.memRun tm; .mem a n
  | .hostIn | .hostOut => match b.hostRun l with
    | none => .none
    | some (_, a, n) => .host (hostSpace (l.func.getD 0) l.pasid) a n
  | .hostToken => .none
  | .jetOut => .jetOut (BitVec.ofNat 12 (b.upper / 2 ^ 12)) (BitVec.ofNat 24 b.lower)
  | .jetIn => .jetIn (BitVec.ofNat 24 b.lower)
  | .queue => .queue (4096 * b.upper) b.lower

/-- The bytes that a queue occupies (R284). -/
def queueBytes (cap : Nat) : Nat := 64 * (cap + (cap + 255) / 256)

/-- The range entry that a context's template and backing table give (R287, R288). -/
def rangeOf (n : Nat) (gen : BitVec 16) (key : Nat) (tm : Template) (b : Backing) : RangeEntry :=
  { ctx := n, gen := gen, keyId := key, plain := tm.plain, share := tm.share, noAlloc := false, posted := tm.posted,
    peer := tm.peer, paged := b.paged, canRead := tm.canRead, canWrite := tm.canWrite, peerId := b.peerId,
    pbase := b.pbase, vlimit := tm.vlimit, vbase := tm.vbase }

/-- A queue of a binding obeys R284: a capacity, and its bytes inside one template's range that may be read and
written. -/
def queueOk284 (im : Image) (base cap : Nat) : Bool :=
  cap ≠ 0 && im.templates.any fun tm =>
    tm.canRead && tm.canWrite && tm.vbase ≤ base && base + queueBytes cap ≤ tm.vlimit

/-- Two queues of one context are the same, or their bytes do not overlap (R284). -/
def queuesApart (a b : Nat × Nat) : Bool :=
  a = b || a.1 + queueBytes a.2 ≤ b.1 || b.1 + queueBytes b.2 ≤ a.1

/-- The zero operand that an endpoint of a jet kind has before a run has named it (R91). A QUEUE's would have capacity 0,
which R284 refuses: it has no queue until a binding names it (log 21). -/
def Endpoint.zeroOperand (e : Endpoint) : Operand :=
  match e.kind with
  | .jetOut => .jetOut 0 0
  | .jetIn => .jetIn 0
  | _ => .none

/-- The operands of every endpoint once a binding holds: those it names, those the last run left, or zero (R91). -/
def mergedOps (eps : List Endpoint) (new old : Table Operand) : Table Operand :=
  eps.zipIdx.filterMap fun (e, i) =>
    let o := match tFind new i with
      | some o => o
      | none => tGet e.zeroOperand old i
    if o = .none then none else some (i, o)

/-- The queues among operands. An endpoint that no binding has named yet has none (R91). -/
def queueOperands (ops : Table Operand) : List (Nat × Nat) :=
  ops.filterMap fun (_, o) => match o with
    | .queue b c => some (b, c)
    | _ => none

/-- The operands that a context's endpoints will have once the bindings it holds have run (R91). -/
def Context.lastBound (c : Context) (eps : List Endpoint) : Table Operand :=
  ((c.run.map fun r => [r.binding]).getD [] ++ c.fifo).foldl (fun m b => mergedOps eps b.ops m) c.lastOps

/-- The checks of order 8 on the bindings as a whole (R91, R93, R284). -/
def endpointsOk (im : Image) (named : List (Nat × Endpoint × RawBind)) (count : Nat) (ops : Table Operand) : Bool :=
  let qs := queueOperands ops
  named.length = count && decide (count ≤ 64) && decide ((named.map (·.1)).Nodup)
    && (im.endpoints.zipIdx.all fun (e, i) =>
      (e.kind != .memIn && e.kind != .memOut && e.kind != .hostIn && e.kind != .hostOut) || named.any fun b => b.1 = i)
    && (named.all fun (_, e, b) => (e.kind != .memIn && e.kind != .memOut) || memOk im e b)
    && (qs.all fun (b, c) => queueOk284 im b c) && (qs.all fun a => qs.all fun b => queuesApart a b)

/-! ### The extension block (R90) -/

/-- Its length in bytes. -/
def extBytes (p : BitVec 512) : Nat := (4 * bindArgl p + 63) / 64 * 64 + 16 * bindNepx p

/-- The window and the address of the block. -/
def extRun (l : Limits) (p : BitVec 512) : Option (Window × Nat) :=
  (l.window (pktField p 96 2)).map fun w => (w, w.start + 64 * pktField p 98 30)

/-- The extended bindings of a block. -/
def extBinds (p : BitVec 512) (block : List Byte) : List RawBind :=
  (List.range (bindNepx p)).map fun i =>
    let v := bytesNat ((block.drop ((4 * bindArgl p + 63) / 64 * 64 + 16 * i)).take 16)
    .extended (v % 2 ^ 16) v

/-! ### Validation (R93) -/

/-- A rejection: the record, and whether it goes to the packet's own CQ. -/
structure Reject where
  rep : Report99
  own : Bool
  deriving DecidableEq, Repr

/-- Goes on if a condition holds, and rejects with a status otherwise. DESIGN CHOICE (log 26): R99 does not say whether FEPID
names the binding that V_ENDPOINT or V_WINDOW refuses; it is 0, as for every rejection. -/
def need (ok : Bool) (st : Status) (ctx : Nat) (own : Bool) : Except Reject Unit :=
  if ok then .ok () else .error { rep := st.on ctx, own := own }

/-- The opcodes whose packets name a context (R88, R89). -/
def namesCtx (opc : Nat) : Bool := opc = 1 || opc = 2 || opc = 9

/-- CTX for the record of a packet: where one is named (R99). -/
def recCtx (p : BitVec 512) : Nat := if namesCtx (pktOpc p) then pktCtx p else 0

/-- Orders 1 and 2. The reserved bits of an inline binding follow from the kind of endpoint that it names. -/
def checkShape (s : State) (l : Limits) (p : BitVec 512) : Except Reject Unit := do
  let opc := pktOpc p
  need (opcAssigned opc && l.opmask.testBit opc) .V_OPCODE (recCtx p) false
  need (onlyBits p.toNat (pktFields opc)) .V_RSVD (recCtx p) false
  if opc = 1 then do
    need (bindShape p) .V_RSVD (pktCtx p) false
    match s.liveCtx l (pktCtx p) with
    | none => .ok ()
    | some c =>
      let eps := s.endpointsOf c
      need ((inlineBinds p).all fun b => match findEp eps b.epid with
        | none => true
        | some (_, e) => b.legal e.kind) .V_RSVD (pktCtx p) false
  else .ok ()

/-- Order 3: CQ is a completion queue of the queue's function; a lane has no such check (R94). -/
def checkCq (s : State) (l : Limits) (p : BitVec 512) : Except Reject Unit :=
  match l.func with
  | none => .ok ()
  | some f => need (match tFind s.compQs (bindCq p) with
    | none => false
    | some r => r.func = f) .V_CQ (pktCtx p) false

/-- Order 4. -/
def checkCtx (s : State) (l : Limits) (p : BitVec 512) (own : Bool) : Except Reject Context :=
  match s.liveCtx l (pktCtx p) with
  | none => .error { rep := Status.V_CONTEXT.on (pktCtx p), own := own }
  | some c => if l.ctxmask.testBit (pktCtx p) then .ok c else .error { rep := Status.V_CONTEXT.on (pktCtx p), own := own }

/-- Named bindings, those whose EPID is in the table. -/
def namedBinds (eps : List Endpoint) (bs : List RawBind) : List (Nat × Endpoint × RawBind) :=
  bs.filterMap fun b => (findEp eps b.epid).map fun (i, e) => (i, e, b)

/-- Every named host binding passes order 6. -/
def hostsOk (l : Limits) (named : List (Nat × Endpoint × RawBind)) : Bool :=
  named.all fun (_, e, b) => (e.kind != .hostIn && e.kind != .hostOut) || b.hostOk l

/-- Orders 6 to 8 of a `BIND`: the binding that enters the FIFO, but for its source and stamp. DESIGN CHOICE (log 26): FADDR of a
V_FETCH is the block's first byte; R99 does not say whether it is that or the place that could not be read. -/
def checkBinds (s : State) (l : Limits) (p : BitVec 512) (c : Context) (im : Image) :
    Except Reject (List Byte × Table Operand) := do
  let n := pktCtx p
  let eps := im.endpoints
  let ext := bindArgl p ≠ 0 || bindNepx p ≠ 0
  need (!ext || match extRun l p with
    | none => false
    | some (w, a) => w.holds a (extBytes p)) .V_WINDOW n true
  need (hostsOk l (namedBinds eps (inlineBinds p))) .V_WINDOW n true
  let block ← (match (if ext then extRun l p else none) with
    | none => .ok []
    | some (w, a) =>
      if s.windowReady l w a (extBytes p) then .ok (s.windowBytes l w a (extBytes p))
      else .error { rep := { Status.V_FETCH.on n with faddr := a }, own := true })
  let xb := extBinds p block
  need (xb.all fun b => match findEp eps b.epid with
    | none => true
    | some (_, e) => b.legal e.kind) .V_RSVD n true
  need (hostsOk l (namedBinds eps xb)) .V_WINDOW n true
  let all := inlineBinds p ++ xb
  let named := namedBinds eps all
  let ops : Table Operand := named.foldl (fun m (i, e, b) => tInsert m i (b.operand l im e)) []
  need (endpointsOk im named all.length (mergedOps eps ops (c.lastBound eps))) .V_ENDPOINT n true
  .ok (block.take (4 * bindArgl p), ops)

/-- A rejected packet: its record goes to its own CQ once that check has passed, and to DCQ otherwise (R93). DESIGN CHOICE (log 26):
CIRQ and CTOK of a rejected `BIND` act for a record on its own CQ and not for one on DCQ; R93 says that a rejected packet has no
effect but its record, and R89 that they go with the record. -/
def rejectPacket (s : State) (src : PktSrc) (p : BitVec 512) (r : Reject) : State :=
  let body := recordBody src (pktTag p) r.rep
  if r.own && pktOpc p = 1 then
    complete s src (bindCq p) body (pktField p 20 1 = 1) (pktField p 19 1 = 1) none
  else complete s src (s.dcqOf src) body false false none

end Sys2Proof.Machine
end

