-- ==== Sys2Proof/Machine/Front.lean ====
section
/-! DEFINITION. The Front: doorbells, slots, fetch, and the packets that the Front or the policy core handles, but for the
creation and destruction of contexts (04 R78-R103, R429). -/

namespace Sys2Proof.Machine

open Sys2Proof

/-! ### Doorbells (R82) -/

/-- A dropped doorbell write is counted. -/
def dropDoorbell (s : State) (f : Nat) : State := s.onFunction f fun fn => { fn with dbDrop := fn.dbDrop + 1 }

/-- The queue has a slot. -/
def State.mapped (s : State) (q : Nat) : Bool := s.slots.any fun u => u.queue = q

/-- Sets the pending bit of a queue that has no slot, at its place in the order (R82, R84). -/
def setPending (s : State) (q : Nat) : State :=
  if s.mapped q || s.pendingQs.contains q then s else { s with pendingQs := s.pendingQs ++ [q] }

/-- Notes the doorbell write as the queue's last (R84). -/
def noteDoorbell (s : State) (q : Nat) : State := { s with doorbells := s.doorbells.filter (· ≠ q) ++ [q] }

/-- A count beyond the ring stops the queue, and V_RING goes to its DCQ (R82). -/
def ringError (s : State) (q dcq : Nat) : State :=
  complete s (.queue q) dcq (recordBody (.queue q) 0 (Status.plain .V_RING)) false false none

/-- A submission queue's doorbell: its tail count goes to the shadow (R82). -/
def ringSub (s : State) (q : Nat) (k : SubQueue) (count : BitVec 32) : State :=
  let tooMany := k.ring.size < (count - k.ring.count).toNat
  let s1 := { s with subQs := tInsert s.subQs q { k with ring :=
                { k.ring with shadow := count, stopped := k.ring.stopped || tooMany } } }
  let s2 := noteDoorbell s1 q
  if tooMany then (if k.ring.stopped then s2 else ringError s2 q k.ring.dcq) else setPending s2 q

/-- A completion queue's doorbell: its head count goes to the shadow, and a queue without a slot becomes pending, as for any
other queue. A head ahead of the records written makes more than the ring outstanding, as the counts run free (R82). -/
def ringComp (s : State) (q : Nat) (r : Ring) (count : BitVec 32) : State :=
  let tooMany := r.size < (r.count - count).toNat
  let s1 := { s with compQs := tInsert s.compQs q { r with shadow := count, stopped := r.stopped || tooMany } }
  let s2 := noteDoorbell s1 q
  if tooMany then (if r.stopped then s2 else ringError s2 q r.dcq) else setPending s2 q

/-- The doorbell page (R82). -/
def doorbellPage : Nat := 32768

/-- `DOORBELL_WRITE` (R82). DESIGN CHOICE (log 26): R82 does not name a 32-bit write at an offset that is neither 8q nor
8q + 4; it is dropped and counted like the writes of another size. -/
def execDoorbellWrite (func offset bytes : Nat) (count : BitVec 32) (s : State) : Out :=
  let q := offset / 8
  let mine (r : Ring) : Bool := r.func = func
  if doorbellPage ≤ offset then .next s
  else if bytes ≠ 4 then .next (dropDoorbell s func)
  else if offset % 8 = 4 then
    match tFind s.compQs q with
    | some r => if q = func && mine r then .next (ringComp s q r count) else .next (dropDoorbell s func)
    | none => .next (dropDoorbell s func)
  else if offset % 8 ≠ 0 then .next (dropDoorbell s func)
  else match tFind s.subQs q with
    | some k => if mine k.ring then .next (ringSub s q k count) else .next (dropDoorbell s func)
    | none => match tFind s.compQs q with
      | some r => if 32 ≤ q && mine r then .next (ringComp s q r count) else .next (dropDoorbell s func)
      | none => .next (dropDoorbell s func)

/-! ### Fetch (R78, R85, R95, R98) -/

/-- Bindings that a context's FIFO holds, and token words that an endpoint's holds. -/
def fifoDepth : Nat := 16
def tokenFifoDepth : Nat := 64

/-- Packets of an opcode and a context that have been fetched and not yet handled. -/
def fetchedFor (s : State) (opc ctx : Nat) : List (BitVec 512) :=
  (s.fetched.map (·.2)).filter fun p => pktOpc p = opc && pktCtx p = ctx

/-- The FIFO that a packet would enter is full, counting the packets on their way to it (R95, R98). -/
def fifoFull (s : State) (p : BitVec 512) : Bool :=
  match tFind s.ctxs (pktCtx p) with
  | none => false
  | some c =>
    if pktOpc p = 1 then fifoDepth ≤ c.fifo.length + (fetchedFor s 1 (pktCtx p)).length
    else if pktOpc p = 2 then
      match findEp (s.endpointsOf c) (pktField p 16 16) with
      | none => false
      | some (i, _) => tokenFifoDepth ≤ (c.generator i).tokens.length
          + ((fetchedFor s 2 (pktCtx p)).filter fun r => pktField r 16 16 = pktField p 16 16).length
    else false

/-- Bytes of a ring's location. -/
def ringBytes (s : State) (r : Ring) (a n : Nat) : List Byte :=
  if r.host then (s.host (hostSpace r.func r.pasid)).readBytes a n else devBytes s 0 a n

/-- Writes bytes in a ring's location. -/
def ringWrite (s : State) (r : Ring) (a : Nat) (bs : List Byte) : State :=
  if r.host then s.hostWrite (hostSpace r.func r.pasid) a bs else devWrite s 0 a bs

/-- A ring's memory may be used: host memory only while the link and its security stand (R391). -/
def ringReady (s : State) (r : Ring) : Bool := !r.host || s.hostReady r.func

/-- The packet at a ring's head. -/
def ringPacket (s : State) (r : Ring) : BitVec 512 :=
  BitVec.ofNat 512 (bytesNat (ringBytes s r (r.base + 64 * (r.count.toNat % r.size)) 64))

/-- Takes up to `n` packets, in ring order, up to one whose FIFO is full. -/
def fetchPackets (s : State) (q : Nat) : Nat → State
  | 0 => s
  | n + 1 =>
    match tFind s.subQs q with
    | none => s
    | some k =>
      if k.ring.count = k.ring.shadow then s
      else
        let p := ringPacket s k.ring
        if fifoFull s p then s
        else
          let s1 := { s with subQs := tInsert s.subQs q { k with ring := { k.ring with count := k.ring.count + 1 } }
                             fetched := s.fetched ++ [(.queue q, p)] }
          fetchPackets s1 q n

/-- Writes the head count to HWB, if the queue has one (R85). -/
def writeHead (s : State) (q : Nat) : State :=
  match tFind s.subQs q with
  | none => s
  | some k => if k.ring.hwb = 0 then s else ringWrite s k.ring k.ring.hwb (natBytes 4 k.ring.count.toNat)

/-- `PACKET_FETCH` (R85): up to 8 packets of a mapped queue, and the head is written back. -/
def execPacketFetch (q : Nat) (s : State) : Out :=
  match tFind s.subQs q, s.slots.find? (fun u => u.queue = q) with
  | some k, some u =>
    if u.quiescing || k.ring.stopped || k.ring.count = k.ring.shadow || !ringReady s k.ring then .next s
    else
      let s1 := fetchPackets s q 8
      .next (if s1.fetched.length = s.fetched.length then s else writeHead s1 q)
  | _, _ => .next s

/-! ### Slots (R83, R84) -/

/-- Hardware slots. -/
def slotCount : Nat := 64

/-- Packets of a queue are in fetch or validation. -/
def State.inFetch (s : State) (q : Nat) : Bool := s.fetched.any fun e => e.1 = .queue q

/-- An idle queue: its head is its shadow, and no packet of it is in fetch or validation. -/
def State.idleQueue (s : State) (q : Nat) : Bool :=
  match tFind s.subQs q with
  | none => !s.inFetch q
  | some k => k.ring.count = k.ring.shadow && !s.inFetch q

/-- The idle mapped queue whose last doorbell write is oldest. -/
def State.oldestIdle (s : State) : Option Nat :=
  let idle := (s.slots.map (·.queue)).filter s.idleQueue
  match s.doorbells.find? (fun q => idle.contains q) with
  | some q => some q
  | none => idle.head?

/-- Frees the slot of a queue. -/
def freeSlot (s : State) (q : Nat) : State := { s with slots := s.slots.filter fun u => u.queue ≠ q }

/-- Loads the oldest pending queue into a free slot, and clears its pending bit. -/
def loadSlot (s : State) : State :=
  match s.pendingQs with
  | [] => s
  | q :: rest =>
    if s.slots.length < slotCount then
      { s with slots := s.slots ++ [{ queue := q, quiescing := false }], pendingQs := rest }
    else s

/-- `QUEUE_MAP` (R83, R84): the oldest pending queue takes a free slot, or that of an idle queue. -/
def execQueueMap (s : State) : Out :=
  if s.pendingQs.isEmpty then .next s
  else if s.slots.length < slotCount then .next (loadSlot s)
  else match s.oldestIdle with
    | none => .next s
    | some q => .next (loadSlot (freeSlot s q))

/-- A quiesced queue frees its slot once none of its packets is in fetch or validation; what its shadow still shows
puts it at the end of the mapping order. -/
def endQuiesce (s : State) (q : Nat) : State :=
  if s.inFetch q then s
  else
    let s1 := freeSlot s q
    if s.idleQueue q then s1 else setPending s1 q

/-- `QUEUE_QUIESCE` (R84): no mapped queue is idle and one is pending, and the queue that has held its slot longest is
quiesced. -/
def execQueueQuiesce (s : State) : Out :=
  match s.slots.find? (·.quiescing) with
  | some u => .next (endQuiesce s u.queue)
  | none =>
    if s.pendingQs.isEmpty || s.slots.length < slotCount || s.oldestIdle.isSome then .next s
    else match s.slots with
      | [] => .next s
      | u :: rest => .next (endQuiesce { s with slots := { u with quiescing := true } :: rest } u.queue)

/-! ### Handling a packet -/

/-- The oldest fetched packet of a source. -/
def State.headOf (s : State) (src : PktSrc) : Option (BitVec 512) := (s.fetched.find? fun e => e.1 = src).map (·.2)

/-- Takes the oldest fetched packet of a source. -/
def takePacket (s : State) (src : PktSrc) : State :=
  { s with fetched := s.fetched.eraseIdx (s.fetched.findIdx fun e => e.1 = src) }

/-- What a packet does once orders 1 and 2 are passed; `none` waits. -/
abbrev Handler := State → Limits → PktSrc → BitVec 512 → Option State

/-- HANDLING A PACKET: it is validated, and rejected with its record or handled (R78, R93). -/
def runPacket (s : State) (src : PktSrc) (p : BitVec 512) (h : Handler) : Option State :=
  match s.limitsOf src with
  | none => some (takePacket s src)
  | some l => match checkShape s l p with
    | .error r => some (takePacket (rejectPacket s src p r) src)
    | .ok () => (h s l src p).map fun s1 => takePacket s1 src

/-- A packet row acts on the oldest fetched packet of its source, if that is the packet and has the row's opcode. -/
def packetRow (src : PktSrc) (p : BitVec 512) (opc : Nat → Bool) (h : Handler) (s : State) : Out :=
  if s.headOf src = some p && opc (pktOpc p) then
    match runPacket s src p h with
    | none => .next s
    | some s1 => .next s1
  else .next s

/-- The outcome of a handler that rejects. -/
def settle (s : State) (src : PktSrc) (p : BitVec 512) (r : Except Reject State) : Option State :=
  match r with
  | .ok s1 => some s1
  | .error e => some (rejectPacket s src p e)

/-- Reports a result on DCQ. -/
def reply (s : State) (src : PktSrc) (p : BitVec 512) (st : Status) (result : Nat) : State :=
  replyDcq s src (pktTag p) { st.on (recCtx p) with result := result }

/-- NOP completes with OK. -/
def handleNop : Handler := fun s _ src p => some (reply s src p .OK 0)

/-- `NOP` (R86). A packet with a reserved opcode is rejected here too: it has no row of its own. -/
def execNop (src : PktSrc) (p : BitVec 512) (s : State) : Out :=
  packetRow src p (fun o => o = 0 || !opcAssigned o) handleNop s

/-- A `BIND` that has passed orders 1 and 2: the other checks, and the context's FIFO (R93, R95). -/
def handleBind : Handler := fun s l src p =>
  let n := pktCtx p
  match (do checkCq s l p; checkCtx s l p true) with
  | .error r => some (rejectPacket s src p r)
  | .ok c =>
    match s.imageOf c with
    | none => none
    | some im => match (do
        need (pktField p 16 2 ≤ l.prioMax) .V_PRIO n true
        checkBinds s l p c im) with
      | .error r => some (rejectPacket s src p r)
      | .ok (args, ops) =>
        if fifoDepth ≤ c.fifo.length then none
        else
          let b : Binding :=
            { src := src, runtag := BitVec.ofNat 32 (pktTag p), cq := bindCq p, prio := pktField p 16 2,
              shovr := pktField p 18 1 = 1, share := pktField p 24 6, ctok := pktField p 20 1 = 1,
              cirq := pktField p 19 1 = 1, args := args, ops := ops, stamp := s.stamp, aged := 0 }
          some ({ s with stamp := s.stamp + 1 }.onCtx n fun c => { c with fifo := c.fifo ++ [b] })

/-- `BIND` (R89). -/
def execBind (src : PktSrc) (p : BitVec 512) (s : State) : Out := packetRow src p (· = 1) handleBind s

/-- The word of a host ingress token: VALUE, RUNTAG, zeros (R282). -/
def tokenWord (p : BitVec 512) : Line := BitVec.ofNat 512 (pktField p 96 32 + pktField p 64 32 * 2 ^ 32)

/-- A `TOKEN` goes to the FIFO of its HOST-TOKEN endpoint (R93, R98). -/
def handleToken : Handler := fun s l src p =>
  match checkCtx s l p false with
  | .error r => some (rejectPacket s src p r)
  | .ok c => match findEp (s.endpointsOf c) (pktField p 16 16) with
    | none => some (reply s src p .V_ENDPOINT 0)
    | some (i, e) =>
      if e.kind ≠ .hostToken then some (reply s src p .V_ENDPOINT 0)
      else if tokenFifoDepth ≤ (c.generator i).tokens.length then none
      else some (reply (s.onGen (pktCtx p) i fun g => { g with tokens := g.tokens ++ [tokenWord p] }) src p .OK 0)

/-- `TOKEN` (R98). -/
def execToken (src : PktSrc) (p : BitVec 512) (s : State) : Out := packetRow src p (· = 2) handleToken s

/-! ### Queues (R80, R81, R88) -/

/-- A window of a descriptor. -/
def descWindow (w : Nat) : Window :=
  { enabled := bitsOf w 63 1 = 1, host := bitsOf w 62 1 = 1, base := bitsOf w 0 30, limit := bitsOf w 32 30 }

/-- The windows of a descriptor, 0 first. -/
def descWindows (d : Nat) : List Window := (List.range 4).map fun k => descWindow (bitsOf d (704 + 64 * k) 64)

/-- The reserved fields of a descriptor; a completion queue's masks, priority and windows with them (R80). -/
def descReserved (d : Nat) : Bool :=
  onlyBits d [(960, 64), (704, 256), (640, 64), (124, 25), (98, 26), (90, 4), (0, 65)]
    && ((List.range 4).all fun k => bitsOf d (704 + 64 * k + 30) 2 = 0)
    && (bitsOf d 123 1 = 0 || (bitsOf d 640 320 = 0 && bitsOf d 124 2 = 0))

/-- A window that the function may have. -/
def windowLegal (s : State) (f : Nat) (w : Window) : Bool :=
  !w.enabled || (w.base < w.limit && (w.host || s.inAlloc f (4096 * w.base) (4096 * (w.limit - w.base))))

/-- The conditions of R81 other than reserved fields. -/
def descLegal (s : State) (f d : Nat) : Bool :=
  bitsOf d 98 5 = f && (descWindows d).all (windowLegal s f)
    && (match tFind s.compQs (bitsOf d 126 12) with
        | none => false
        | some r => r.func = f)
    && bitsOf d 648 8 = 0 && decide (bitsOf d 90 4 ≤ 10) && bitsOf d 0 12 = 0 && bitsOf d 960 3 = 0

/-- The ring of a descriptor. -/
def descRing (d : Nat) : Ring :=
  { func := bitsOf d 98 5, pasid := bitsOf d 103 20, host := bitsOf d 64 1 = 1, base := bitsOf d 0 64,
    size := 2 ^ (bitsOf d 90 4 + 6), dcq := bitsOf d 126 12, msix := bitsOf d 138 11, hwb := bitsOf d 960 64, count := 0,
    shadow := 0, stopped := false }

/-- The submission queue of a descriptor. -/
def descQueue (d : Nat) : SubQueue :=
  { ring := descRing d, opmask := BitVec.ofNat 32 (bitsOf d 640 32), ctxmask := BitVec.ofNat 32 (bitsOf d 672 32),
    prioMax := bitsOf d 124 2, windows := descWindows d }

/-- The lowest free queue ID (R88). -/
def State.freeQueue (s : State) : Option Nat :=
  ((List.range 4064).map (· + 32)).find? fun q => (tFind s.subQs q).isNone && (tFind s.compQs q).isNone

/-- Creates the queue of an accepted descriptor (R81, R88). -/
def createQueue (s : State) (src : PktSrc) (p : BitVec 512) (d : Nat) : State :=
  match s.freeQueue with
  | none => reply s src p .NOQUEUE 0
  | some q =>
    reply (if bitsOf d 123 1 = 1 then { s with compQs := tInsert s.compQs q (descRing d) }
           else { s with subQs := tInsert s.subQs q (descQueue d) }) src p .OK q

/-- A `QCREATE`: its descriptor is read, checked and adopted. DESIGN CHOICE (log 26): R81 and R88 do not say what a descriptor
brings that reads poisoned, or that lies in host memory which cannot be reached; the first answers V_FETCH with its address
in FADDR, as R93 does for an extension block, and the second waits. -/
def handleQcreate : Handler := fun s l src p =>
  let a := pktField p 96 64
  match l.window (pktField p 160 2) with
  | none => some (reply s src p .V_WINDOW 0)
  | some w =>
    if !w.holds a 128 then some (reply s src p .V_WINDOW 0)
    else if w.host && !s.hostReady (l.func.getD 0) then none
    else if !s.windowReady l w a 128 then
      some (replyDcq s src (pktTag p) { Status.plain .V_FETCH with faddr := a })
    else
      let d := bytesNat (s.windowBytes l w a 128)
      if !descReserved d then some (reply s src p .V_RSVD 0)
      else if !descLegal s (l.func.getD 0) d then some (reply s src p .V_WINDOW 0)
      else some (createQueue s src p d)

/-- `QCREATE` (R81). -/
def execQcreate (src : PktSrc) (p : BitVec 512) (s : State) : Out := packetRow src p (· = 0x0A) handleQcreate s

/-- A queue is no more: its ring, its slot, its pending bit and its doorbells. -/
def removeQueue (s : State) (q : Nat) : State :=
  { freeSlot s q with subQs := tErase s.subQs q, compQs := tErase s.compQs q, pendingQs := s.pendingQs.filter (· ≠ q),
                      doorbells := s.doorbells.filter (· ≠ q) }

/-- The function of a user queue. -/
def State.queueFunc (s : State) (q : Nat) : Option Nat :=
  match tFind s.subQs q, tFind s.compQs q with
  | some k, _ => some k.ring.func
  | none, some r => some r.func
  | none, none => none

/-- A `QDESTROY` waits for the queue's packets in fetch and validation; a QID that is no user queue of the function
has no effect, and a status that the spec leaves open (log 22). -/
def handleQdestroy : Handler := fun s l src p =>
  let q := pktField p 64 12
  if 32 ≤ q && (s.queueFunc q).isSome && s.queueFunc q = l.func then
    if s.inFetch q then none else some (reply (removeQueue s q) src p .OK 0)
  else some (replyDcq s src (pktTag p) { Status.plain .OK with status := (Config.openStatus s.tick).toNat })

/-- `QDESTROY` (R88). -/
def execQdestroy (src : PktSrc) (p : BitVec 512) (s : State) : Out := packetRow src p (· = 0x0B) handleQdestroy s

/-! ### Shares, allow lists, lanes (R30, R94, R102) -/

/-- The sum of MIN over all classes, with one class's MIN replaced. -/
def minSum (shares : Table Share) (cls m : Nat) : Nat :=
  ((List.range 64).map fun k => if k = cls then m else (tGet Share.reset shares k).min).foldl (· + ·) 0

/-- A `SHARESET` (R102). DESIGN CHOICE (log 26): of a packet that meets both conditions R102 names no order; V_RSVD is
answered. -/
def handleShareset : Handler := fun s _ src p =>
  let cls := pktField p 8 6
  let mn := pktField p 96 11
  let ceil := pktField p 120 11
  if ceil < mn || 1024 < mn || 1024 < ceil then some (reply s src p .V_RSVD 0)
  else if 1024 < minSum s.shares cls mn then some (reply s src p .OVERCOMMIT 0)
  else some (reply { s with shares := tSet .reset s.shares cls { min := mn, weight := pktField p 112 8, ceil := ceil } }
    src p .OK 0)

/-- `SHARESET` (R102). -/
def execShareset (src : PktSrc) (p : BitVec 512) (s : State) : Out := packetRow src p (· = 0x0C) handleShareset s

/-- An `ALLOWSET`: an AUTHKEYH of 0 clears the entry (R88). -/
def handleAllowset : Handler := fun s _ src p =>
  let k := pktField p 96 256
  some (reply (s.onFunction (pktField p 8 5) fun fn =>
    { fn with allow := tSet 0 fn.allow (pktField p 16 4) (BitVec.ofNat 256 k) }) src p .OK 0)

/-- `ALLOWSET` (R30). -/
def execAllowset (src : PktSrc) (p : BitVec 512) (s : State) : Out := packetRow src p (· = 0x0D) handleAllowset s

/-- A `LANESET` (R94). -/
def handleLaneset : Handler := fun s _ src p =>
  some (reply (s.onJet (pktField p 8 6) fun j =>
    { j with sources := tInsert j.sources (pktField p 16 3)
              { srcId := BitVec.ofNat 12 (pktField p 96 12), srcMask := BitVec.ofNat 12 (pktField p 112 12),
                ctxmask := BitVec.ofNat 32 (pktField p 128 32) } }) src p .OK 0)

/-- `LANESET` (R94). -/
def execLaneset (src : PktSrc) (p : BitVec 512) (s : State) : Out := packetRow src p (· = 0x0E) handleLaneset s

/-! ### Launch lanes (R94, R95) -/

/-- Validates and handles a packet of a lane. -/
def lanePacket (s : State) (src : PktSrc) (l : Limits) (p : BitVec 512) : Option State :=
  match checkShape s l p with
  | .error r => some (rejectPacket s src p r)
  | .ok () =>
    if pktOpc p = 0 then handleNop s l src p
    else if pktOpc p = 1 then handleBind s l src p
    else handleToken s l src p

/-- `LAUNCH_LANE_MESSAGE` (R94): the oldest message of a port is matched, validated and handled; one whose FIFO is full
stays, and its credit with it. -/
def execLaunchLaneMessage (port : Nat) (source : BitVec 12) (p : BitVec 512) (s : State) : Out :=
  let j := s.jet port
  let src := PktSrc.lane port source
  if j.link ≠ .up || j.lane.head? ≠ some p || j.peer ≠ source then .next s
  else
    let s1 := s.onJet port fun j => { j with lane := j.lane.tail }
    match s.limitsOf src with
    | none => .next (replyDcq s1 src (pktTag p) (Status.V_SOURCE.on (recCtx p)))
    | some l => match lanePacket s1 src l p with
      | none => .next s
      | some s2 => .next s2

/-! ### The completion writer (R99, R101, R387) -/

/-- The admin queues of a function that AQCTL enables (R87, R429). -/
def adminOpmask (f : Nat) : BitVec 32 := if f = 0 then 0x7F07 else 0x0F07

/-- PHASE of the record with a number: 1 on the first pass through the ring, and inverted on each (R99). -/
def phaseBit (r : Ring) : Nat := if r.count.toNat / r.size % 2 = 0 then 1 else 0

/-- The ring holds as many records as it has room for (R101). -/
def ringFull (r : Ring) : Bool := r.size ≤ (r.count - r.shadow).toNat

/-- A host-token: one more than the last at its place in the host-token page (R387). -/
def hostToken (s : State) (f cq : Nat) : State :=
  let fn := s.function f
  if fn.htBase = 0 then s
  else
    let k := cq % 512
    let v := tGet 0 fn.tokens k + 1
    (s.onFunction f fun fn => { fn with tokens := tSet 0 fn.tokens k v }).hostWrite
      (hostSpace f (bitsOf fn.aqCtl.toNat 4 20)) (fn.htBase.toNat + 8 * k) (natBytes 8 v.toNat)

/-- The host-token and the MSI-X message that a record asks for, in that order, while the host can be reached. -/
def announce (s : State) (h : HeldRecord) (r : Ring) : State :=
  if !s.hostReady r.func then s
  else
    let s1 := if h.ctok then hostToken s r.func h.cq else s
    if h.cirq then { s1 with outbox := s1.outbox ++ [.msix r.func r.msix] } else s1

/-- Writes a held record at the tail of its ring. -/
def writeRecord (s : State) (h : HeldRecord) (r : Ring) : State :=
  let v := h.body.toNat + phaseBit r * 2 ^ 63
  let s1 := ringWrite s r (r.base + 32 * (r.count.toNat % r.size)) (natBytes 32 v)
  let s2 := { s1 with compQs := tInsert s1.compQs h.cq { r with count := r.count + 1 } }
  notBusy (announce s2 h r) h.ctx

/-- `COMPLETION_RECORD_WRITE` (R101): the oldest held record of a queue is written once the ring has room and the host
can be reached. A record whose queue is no more is discarded (log 22). -/
def execCompletionRecordWrite (cq : Nat) (s : State) : Out :=
  match s.held.find? (fun h => h.cq = cq) with
  | none => .next s
  | some h =>
    let s1 := { s with held := s.held.erase h }
    match tFind s.compQs cq with
    | none => .next (notBusy s1 h.ctx)
    | some r => if r.stopped || ringFull r || !ringReady s r then .next s else .next (writeRecord s1 h r)

end Sys2Proof.Machine
end

