-- ==== Sys2Proof/Machine/MlDsa.lean ====
section
/-! DEFINITION. ML-DSA-44 verification, which 01 R26 and 16 R401 name and FIPS 204 defines (log 3). -/

namespace Sys2Proof.Machine

open Sys2Proof

/-! ### Polynomials modulo q

A polynomial is the list of its 256 coefficients, each below q. -/

/-- The modulus. -/
def dsaQ : Nat := 8380417

/-- Eight bits in reverse order. -/
def mirror8 (n : Nat) : Nat := ((List.range 8).map fun i => n / 2 ^ i % 2 * 2 ^ (7 - i)).foldl (· + ·) 0

/-- The exponents of 1753 at which a polynomial is evaluated, in the order of its transform. -/
def dsaExps : List Nat := (List.range 128).flatMap fun i => [mirror8 (128 + i), mirror8 (128 + i) + 256]

/-- The points, and their inverses: 1753 has order 512. -/
def dsaPoints : List Nat := dsaExps.map fun e => 1753 ^ e % dsaQ
def dsaInverses : List Nat := dsaExps.map fun e => 1753 ^ (512 - e) % dsaQ

/-- The value of a polynomial at a point. -/
def dsaValue (p : List Nat) (x : Nat) : Nat := p.foldr (fun c v => (c + x * v) % dsaQ) 0

/-- The transform: the values at the points. -/
def dsaValues (p : List Nat) : List Nat := dsaPoints.map (dsaValue p)

/-- The coefficients of the polynomial whose terms at the points, divided by 256, these are; each further coefficient
divides every term by its point. -/
def dsaCoeffs (terms : List Nat) : Nat → List Nat
  | 0 => []
  | n + 1 => 8347681 * terms.foldl (· + ·) 0 % dsaQ :: dsaCoeffs (List.zipWith (fun t x => t * x % dsaQ) terms dsaInverses) n

/-- A value as an integer near zero. -/
def dsaSigned (c : Nat) : Int := if c ≤ dsaQ / 2 then c else (c : Int) - dsaQ

/-- Fields of `w` bits of a byte string. -/
def bitFields (w n : Nat) (bs : List Byte) : List Nat :=
  let v := bytesNat bs
  (List.range n).map fun i => v / 2 ^ (w * i) % 2 ^ w

/-- Bytes `at_` to `at_ + n - 1` of a string. -/
def byteRun (bs : List Byte) (at_ n : Nat) : List Byte := (bs.drop at_).take n

/-! ### What the key and the signature hold -/

/-- The entry of the public matrix in a row and a column, as its transform: 23-bit numbers of SHAKE128, those below q.
512 numbers hold 256 such ones, but for a chance below 2^-256. -/
def dsaMatrix (rho : List Byte) (row col : Nat) : List Nat :=
  let bs := shake128 (rho ++ [BitVec.ofNat 8 col, BitVec.ofNat 8 row]) 1536
  (((List.range 512).map fun i => bytesNat (byteRun bs (3 * i) 3) % 2 ^ 23).filter (· < dsaQ)).take 256

/-- One polynomial of the vector t1, times 2^13. -/
def dsaT1 (pk : List Byte) (i : Nat) : List Nat := (bitFields 10 256 (byteRun pk (32 + 320 * i) 320)).map (· * 2 ^ 13)

/-- One polynomial of the vector z. -/
def dsaZ (sig : List Byte) (i : Nat) : List Nat :=
  (bitFields 18 256 (byteRun sig (32 + 576 * i) 576)).map fun v => (2 ^ 17 + dsaQ - v) % dsaQ

/-- Where the hints of polynomial `i` end among the 80 bytes of a signature's hint, for i from 1; they begin at 0. -/
def hintEnd (h : List Byte) (i : Nat) : Nat := if i = 0 then 0 else ((h[80 + i - 1]?).map (·.toNat)).getD 0

/-- The places of the hints of a polynomial. -/
def hintPlaces (h : List Byte) (i : Nat) : List Nat :=
  (byteRun h (hintEnd h i) (hintEnd h (i + 1) - hintEnd h i)).map (·.toNat)

/-- A list of numbers rises. -/
def rises : List Nat → Bool
  | a :: b :: rest => a < b && rises (b :: rest)
  | _ => true

/-- The hint is well-formed: ends that do not fall, places that rise, and zeros behind them. -/
def hintOk (h : List Byte) : Bool :=
  (List.range 4).all (fun i => hintEnd h i ≤ hintEnd h (i + 1) && hintEnd h (i + 1) ≤ 80 && rises (hintPlaces h i))
    && ((h.take 80).drop (hintEnd h 4)).all (· = 0)

/-! ### The challenge -/

/-- Places the signs of a challenge at places `i`, `i + 1` and so on: the next byte that is not above the place says with
which it changes. -/
def placeSigns (signs : Nat) : Nat → Nat → List Byte → List Nat → List Nat
  | 0, _, _, poly => poly
  | n + 1, i, bs, poly =>
    let rest := bs.dropWhile fun b => i < b.toNat
    let j := ((rest.head?).map (·.toNat)).getD 0
    let sign := if signs % 2 = 0 then 1 else dsaQ - 1
    placeSigns (signs / 2) n (i + 1) rest.tail ((poly.set i ((poly[j]?).getD 0)).set j sign)

/-- The challenge polynomial of a 32-byte seed: 39 coefficients of 1 or -1. -/
def dsaChallenge (seed : List Byte) : List Nat :=
  let bs := shake256 seed 1024
  placeSigns (bytesNat (bs.take 8)) 39 217 (bs.drop 8) (List.replicate 256 0)

/-! ### Verification -/

/-- Twice gamma2: the width of a step of the high part. -/
def dsaStep : Nat := 190464

/-- The high part of a value, and whether its low part is positive. -/
def dsaHigh (r : Nat) : Nat × Bool :=
  let low := r % dsaStep
  let up := decide (dsaStep / 2 < low)
  let high := r / dsaStep + if up then 1 else 0
  if high = 44 then (0, false) else (high, !up && low ≠ 0)

/-- The high part as a hint corrects it. -/
def dsaHinted (hint : Bool) (r : Nat) : Nat :=
  let (high, pos) := dsaHigh r
  if !hint then high else if pos then (high + 1) % 44 else (high + 43) % 44

/-- One polynomial of A z - c t1 2^13, by its transform. -/
def dsaApprox (pk sig c : List Byte) (i : Nat) : List Nat :=
  let rows := (List.range 4).map fun j => List.zipWith (· * ·) (dsaMatrix (pk.take 32) i j) (dsaValues (dsaZ sig j))
  let ct := List.zipWith (· * ·) (dsaValues (dsaChallenge c)) (dsaValues (dsaT1 pk i))
  let sums := rows.foldl (List.zipWith (· + ·)) (ct.map fun v => dsaQ - v % dsaQ)
  dsaCoeffs (sums.map (· % dsaQ)) 256

/-- The bytes of one polynomial of the high parts: 6 bits each. -/
def dsaHighBytes (pk sig c : List Byte) (i : Nat) : List Byte :=
  let places := hintPlaces (byteRun sig 2336 84) i
  let vs := (dsaApprox pk sig c i).zipIdx.map fun (r, k) => dsaHinted (places.contains k) r
  natBytes 192 (vs.foldr (fun v n => v + 64 * n) 0)

/-- ML-DSA-44 VERIFICATION of a signature of a message under a public key, with a context string (R26). -/
def mldsaVerify (pk msg ctx sig : List Byte) : Bool :=
  let c := sig.take 32
  let mu := shake256 (shake256 pk 64 ++ [0, BitVec.ofNat 8 ctx.length] ++ ctx ++ msg) 64
  pk.length = 1312 && sig.length = 2420 && ctx.length ≤ 255 && hintOk (byteRun sig 2336 84)
    && (List.range 4).all (fun j => (dsaZ sig j).all fun v => decide ((dsaSigned v).natAbs < 2 ^ 17 - 78))
    && decide (c = shake256 (mu ++ (List.range 4).flatMap (dsaHighBytes pk sig c)) 32)

end Sys2Proof.Machine
end

