-- ==== Sys2Proof/Machine/Accept.lean ====
section
/-! DEFINITION. Describing and accepting a graph image, and the creation of a context (01 R6-R33, R428, 11 R288, 13 R340). -/

namespace Sys2Proof.Machine

open Sys2Proof

/-! ### Reading an image (R6, R7) -/

/-- `n` little-endian bytes at an offset. -/
def leAt (b : List Byte) (off n : Nat) : Nat := bytesNat ((b.drop off).take n)

/-- The parts of a byte string of whole entries. -/
def entriesOf (b : List Byte) (size : Nat) : List Nat := (List.range (b.length / size)).map fun i => leAt b (size * i) size

/-- A section as its directory entry gives it. -/
structure Sect where
  kind : Nat
  inst : Nat
  off : Nat
  len : Nat
  bytes : List Byte
  deriving DecidableEq, Repr

/-- An image's header and sections. -/
structure RawImage where
  all : List Byte
  head : Nat
  nsect : Nat
  sigOff : Nat
  sects : List Sect
  deriving DecidableEq, Repr

/-- Bytes of the signature block (R24). -/
def sigBytes : Nat := 3740

/-- The header and the directory of an image. -/
def readImage (b : List Byte) : RawImage :=
  let h := leAt b 0 64
  let n := bitsOf h 80 16
  { all := b, head := h, nsect := n, sigOff := bitsOf h 128 32
    sects := (List.range (min n 4200)).map fun i =>
      let d := leAt b (64 + 16 * i) 16
      { kind := bitsOf d 0 8, inst := bitsOf d 16 16, off := bitsOf d 32 32, len := bitsOf d 64 32
        bytes := (b.drop (bitsOf d 32 32)).take (bitsOf d 64 32) } }

/-- The sections of a kind, in order. -/
def RawImage.ofKind (r : RawImage) (k : Nat) : List Sect := r.sects.filter fun s => s.kind = k

/-- The bytes of the section of a kind that may stand once. -/
def RawImage.one (r : RawImage) (k : Nat) : List Byte := ((r.ofKind k).head?.map (·.bytes)).getD []

/-- The rectangle request (R10). -/
def RawImage.rect (r : RawImage) : Nat := leAt (r.one 1) 0 8
def RawImage.width (r : RawImage) : Nat := bitsOf r.rect 0 7
def RawImage.height (r : RawImage) : Nat := bitsOf r.rect 8 6

/-- The preamble of a section of a text or a region. -/
def Sect.preamble (s : Sect) : Nat := leAt s.bytes 0 16

/-- Port-map entries of a region section. -/
def Sect.portWords (s : Sect) : List Nat :=
  (List.range (bitsOf s.preamble 48 8)).map fun i => leAt s.bytes (16 + 4 * i) 4

/-- The entries of the tables. -/
def RawImage.routeWords (r : RawImage) : List Nat := entriesOf (r.one 6) 16
def RawImage.endpointWords (r : RawImage) : List Nat := entriesOf (r.one 7) 32
def RawImage.templateWords (r : RawImage) : List Nat := entriesOf (r.one 8) 32
def RawImage.subWords (r : RawImage) : List Nat := entriesOf (r.one 9) 16
def RawImage.listWords (r : RawImage) : List Nat := entriesOf (r.one 10) 16

/-! ### Check 2: the container (R7-R9, R24) -/

/-- The counts of R9. -/
def countOk (r : RawImage) : Bool :=
  let c (k : Nat) : Nat := (r.ofKind k).length
  c 1 = 1 && 1 ≤ c 2 && c 2 ≤ 2048 && c 3 ≤ 1 && c 4 ≤ 2048 && c 5 ≤ 64 && c 6 ≤ 1 && c 7 = 1 && c 8 ≤ 1 && c 9 ≤ 1
    && c 10 ≤ 1 && (r.ofKind 2).map (·.inst) = List.range (c 2)

/-- The pairs (KIND, INST) rise (R7). -/
def rising : List Sect → Bool
  | a :: b :: rest => (a.kind < b.kind || (a.kind = b.kind && a.inst < b.inst)) && rising (b :: rest)
  | _ => true

/-- Two sections do not overlap (R8). -/
def apartSects (a b : Sect) : Bool := a.off + a.len ≤ b.off || b.off + b.len ≤ a.off

/-- Every two elements of a list are in a relation. -/
def pairwiseB {α : Type} (rel : α → α → Bool) : List α → Bool
  | [] => true
  | a :: rest => rest.all (rel a) && pairwiseB rel rest

/-- IMG_FORMAT is not due. -/
def formatOk (b : List Byte) (r : RawImage) : Bool :=
  64 ≤ b.length && bitsOf r.head 0 32 = 0x49475445 && bitsOf r.head 32 16 = 1 && bitsOf r.head 160 32 = b.length
    && 3 ≤ r.nsect && decide (r.nsect ≤ 4200) && decide (64 + 16 * r.nsect ≤ r.sigOff) && r.sigOff % 64 = 0
    && bitsOf r.head 160 32 = r.sigOff + sigBytes
    && (r.sects.all fun s => s.off % 64 = 0 && 64 + 16 * r.nsect ≤ s.off && 1 ≤ s.len && s.off + s.len ≤ r.sigOff)
    && rising r.sects && pairwiseB apartSects r.sects && countOk r

/-! ### Checks 4 and 5: author and signature (R24-R26, R30) -/

/-- The author's public key, the algorithm code and the signature. -/
def RawImage.publicKey (r : RawImage) : List Byte := (r.all.drop (r.sigOff + 8)).take 1312
def RawImage.signature (r : RawImage) : List Byte := (r.all.drop (r.sigOff + 1320)).take 2420
def RawImage.authKey (r : RawImage) : BitVec 256 := BitVec.ofNat 256 (bitsOf r.head 256 256)

/-- The measurement (R25). -/
def RawImage.measurement (r : RawImage) : BitVec 256 :=
  sha3 (r.all.take (64 + 16 * r.nsect) ++ r.sects.flatMap (·.bytes))

/-- The bytes of an ASCII string. -/
def asciiBytes (t : String) : List Byte := t.toList.map fun c => BitVec.ofNat 8 c.toNat

/-- The author is allowed (R30). -/
def authorOk (s : State) (f : Nat) (r : RawImage) : Bool :=
  sha3 r.publicKey = r.authKey && (s.function f).allow.any fun (_, k) => k = r.authKey

/-- The signature verifies (R26). -/
def signatureOk (r : RawImage) : Bool :=
  leAt r.all r.sigOff 4 = 1 &&
    mldsaVerify r.publicKey (natBytes 32 r.measurement.toNat) (asciiBytes "aperlia-graph-image") r.signature

/-! ### Check 6: reserved fields and kinds -/

/-- A pair of OP and FMT that the table of an RMW node lists (R277). -/
def rmwPairOk (op fmt : Nat) : Bool :=
  let int : Bool := [7, 8, 11, 12, 13, 14].contains fmt
  match op with
  | 0 | 7 => int || fmt = 0 || fmt = 15
  | 1 | 2 | 3 => int || fmt = 0
  | 4 | 5 | 6 | 8 => int || fmt = 15
  | _ => false

/-- A route entry holds no reserved bit or code (R18, R236, R277, R340). -/
def routeLegal (w : Nat) : Bool :=
  match bitsOf w 12 3 with
  | 0 => onlyBits w [(0, 11), (12, 3), (16, 2), (40, 2), (46, 2)] && bitsOf w 46 2 ≠ 3
  | 1 => onlyBits w [(0, 11), (12, 3), (16, 2), (32, 4), (40, 4)] && rmwPairOk (bitsOf w 32 4) (bitsOf w 40 4)
  | 2 | 3 | 4 =>
    let k := bitsOf w 12 3
    let n := bitsOf w 110 3
    onlyBits w [(0, 11), (12, 3), (16, 2), (32, 89)] && 1 ≤ n && n ≤ 6 && bitsOf w (32 + 13 * n) (78 - 13 * n) = 0
      && (if k = 4 then bitsOf w 117 4 ≤ 3 else bitsOf w 117 4 = 0) && (k = 2 || bitsOf w 115 2 = 0)
  | _ => false

/-- An endpoint entry holds no reserved bit or kind (R19). -/
def endpointLegal (w : Nat) : Bool :=
  let f := bitsOf w 128 128
  let k := bitsOf f 16 4
  onlyBits f [(0, 21), (24, 13), (40, 13), (56, 14), (72, 4)] && k ≤ 7 && (k = 5 || k = 6 || bitsOf f 64 6 = 0)
    && (k ≤ 1 || bitsOf f 56 8 = 0)

/-- A region section holds no reserved bit (R16). -/
def regionLegal (s : Sect) : Bool :=
  onlyBits s.preamble [(0, 11), (16, 7), (24, 6), (32, 10), (48, 8), (64, 32)]
    && s.portWords.all fun w => onlyBits w [(0, 14), (16, 8)]

/-- IMG_RSVD is not due. -/
def reservedOk (r : RawImage) : Bool :=
  onlyBits r.head [(256, 256), (192, 64), (160, 32), (128, 32), (80, 16), (72, 1), (0, 64)]
    && (r.sects.all fun s => 1 ≤ s.kind && s.kind ≤ 10)
    && ((List.range r.nsect).all fun i => onlyBits (leAt r.all (64 + 16 * i) 16) [(0, 8), (16, 80)])
    && leAt r.all (r.sigOff + 4) 4 = 0
    && onlyBits r.rect [(0, 7), (8, 6), (16, 4), (24, 17)]
    && (r.ofKind 5).all regionLegal && r.routeWords.all routeLegal && r.endpointWords.all endpointLegal
    && (r.templateWords.all fun w => onlyBits w [(0, 131), (136, 6), (144, 2)])
    && r.subWords.all fun w => onlyBits w [(0, 11), (16, 11), (32, 21), (64, 21), (96, 13), (112, 16)]

/-! ### Check 7: ranges and lengths -/

/-- A text section within its limits (R11). -/
def textLimits (s : Sect) : Bool :=
  let p := s.preamble
  let n := bitsOf p 0 32
  1 ≤ n && n ≤ 16384 && bitsOf p 32 32 < n && bitsOf p 64 32 ≤ 2031616 && bitsOf p 96 32 % 64 = 0
    && s.len = 16 + 4 * n + bitsOf p 64 32

/-- A region section within its limits (R9, R16). -/
def regionLimits (s : Sect) : Bool :=
  let p := s.preamble
  s.inst ≤ 63 && bitsOf p 48 8 ≤ 64 && 50 ≤ bitsOf p 32 10 && bitsOf p 32 10 ≤ 800 && 1 ≤ bitsOf p 24 6
    && bitsOf p 24 6 ≤ 32 && 1 ≤ bitsOf p 16 7 && bitsOf p 16 7 ≤ 64
    && s.len = 16 + 4 * bitsOf p 48 8 + bitsOf p 64 32

/-- A name: at least one byte that is not zero (R19); R31 lists no check of its other bytes (log 14). -/
def nameOk (v : Nat) : Bool := v ≠ 0

/-- A template within its limits (R20). DESIGN CHOICE (log 14): R31 names no status for a VBASE that is not below VLIMIT; it gets
IMG_LIMIT. -/
def templateLimits (w : Nat) : Bool :=
  let lo := bitsOf w 0 64
  let hi := bitsOf w 64 64
  bitsOf w 128 2 ≠ 0 && lo % 4096 = 0 && hi % 4096 = 0 && lo < 2 ^ 60 && lo < hi

/-- A subscription declaration within its limits (R22). -/
def subLimits (w : Nat) : Bool :=
  1 ≤ bitsOf w 96 13 && bitsOf w 96 13 ≤ 4096 && bitsOf w 32 21 % 64 = 0 && bitsOf w 64 21 % 64 = 0

/-- IMG_LIMIT is not due. DESIGN CHOICE (log 14): R31 names no status for a stage-swap section of more than 8 entries (R23) nor
for an endpoint whose name is all zero (R19); both get IMG_LIMIT. -/
def limitsOk (r : RawImage) : Bool :=
  let n := r.width * r.height
  (r.one 1).length = 8 && 1 ≤ r.width && r.width ≤ 64 && 1 ≤ r.height && r.height ≤ 32 && bitsOf r.rect 24 9 ≤ 256
    && bitsOf r.rect 33 7 ≤ 64
    && (r.sects.all fun s => s.inst = 0 || s.kind = 2 || s.kind = 4 || s.kind = 5)
    && (r.ofKind 2).all textLimits
    && (if (r.ofKind 3).isEmpty then (r.ofKind 2).length = n else (r.one 3).length = 2 * n)
    && ((r.ofKind 4).all fun s => s.len = 160) && (r.ofKind 5).all regionLimits
    && (r.one 6).length % 16 = 0 && (r.one 7).length % 32 = 0 && (r.one 8).length % 32 = 0
    && (r.one 9).length % 16 = 0 && (r.one 10).length % 16 = 0
    && 1 ≤ r.endpointWords.length && r.endpointWords.length ≤ 64 && r.templateWords.length ≤ 256
    && r.listWords.length ≤ 8
    && (r.endpointWords.all fun w => nameOk (bitsOf w 0 128) && 8 ≤ bitsOf w 168 9 && bitsOf w 168 9 ≤ 256)
    && r.templateWords.all templateLimits && r.subWords.all subLimits

/-! ### The parsed image -/

/-- The endpoint kind of a code (R19). -/
def epKindOf : Nat → EpKind
  | 0 => .memIn | 1 => .memOut | 2 => .hostIn | 3 => .hostOut | 4 => .hostToken | 5 => .jetIn | 6 => .jetOut
  | _ => .queue

/-- An endpoint of its entry. -/
def parseEndpoint (w : Nat) : Endpoint :=
  { name := BitVec.ofNat 128 w, epid := BitVec.ofNat 16 (bitsOf w 128 16), kind := epKindOf (bitsOf w 144 4),
    sink := bitsOf w 148 1 = 1, tile := bitsOf w 152 11, port := bitsOf w 163 2, burst := bitsOf w 168 9,
    fmt := bitsOf w 177 4, range := bitsOf w 184 8, jetIdx := bitsOf w 192 6, oc := BitVec.ofNat 4 (bitsOf w 200 4) }

/-- A text of its section. -/
def parseText (s : Sect) : TextSec :=
  let n := bitsOf s.preamble 0 32
  { words := (List.range n).map fun i => BitVec.ofNat 32 (leAt s.bytes (16 + 4 * i) 4), entry := bitsOf s.preamble 32 32
    doff := bitsOf s.preamble 96 32, data := s.bytes.drop (16 + 4 * n) }

/-- A region of its section. -/
def parseRegion (s : Sect) : RegionSec :=
  let p := s.preamble
  { corg := bitsOf p 0 11, cwidth := bitsOf p 16 7, cheight := bitsOf p 24 6, clock := bitsOf p 32 10
    ports := s.portWords.map fun w =>
      { rport := bitsOf w 16 8, toTile := bitsOf w 13 1 = 1, tport := bitsOf w 11 2, tile := bitsOf w 0 11 }
    bits := s.bytes.drop (16 + 4 * bitsOf p 48 8) }

/-- A route element of its entry. -/
def parseRoute (w : Nat) : RouteSec :=
  { tile := bitsOf w 0 11, slot := bitsOf w 16 2, kind := bitsOf w 12 3, param := BitVec.ofNat 128 w }

/-- A template of its entry. -/
def parseTemplate (w : Nat) : Template :=
  { vbase := bitsOf w 0 64, vlimit := bitsOf w 64 64, canRead := bitsOf w 128 1 = 1, canWrite := bitsOf w 129 1 = 1,
    plain := bitsOf w 130 1 = 1, share := bitsOf w 136 6, posted := bitsOf w 144 1 = 1, peer := bitsOf w 145 1 = 1 }

/-- A subscription of its declaration. -/
def parseSub (w : Nat) : SubDecl :=
  { pub := bitsOf w 0 11, subTile := bitsOf w 16 11, poff := bitsOf w 32 21, soff := bitsOf w 64 21,
    lines := bitsOf w 96 13, spillK := bitsOf w 112 16 }

/-- NSTAGE regions of a stage-swap list (R23). -/
def parseList (w : Nat) : List Nat := (List.range (min (bitsOf w 0 8) 15)).map fun i => bitsOf w (8 + 8 * i) 8

/-- The image, with the tile map of R14 when it has none of its own. -/
def parseImage (r : RawImage) : Image :=
  { authKey := r.authKey, imageId := BitVec.ofNat 64 (bitsOf r.head 192 64), prot := bitsOf r.head 72 1 = 1
    measurement := r.measurement, totLen := bitsOf r.head 160 32, width := r.width, height := r.height
    edges := BitVec.ofNat 4 (bitsOf r.rect 16 4), memPorts := bitsOf r.rect 24 9, jetPorts := bitsOf r.rect 33 7
    hostEp := bitsOf r.rect 40 1 = 1, texts := (r.ofKind 2).map parseText
    tileMap := if (r.ofKind 3).isEmpty then List.range (r.width * r.height) else entriesOf (r.one 3) 2
    rowCfgs := (r.ofKind 4).map fun s => (s.inst, BitVec.ofNat 1280 (leAt s.bytes 0 160))
    regions := (r.ofKind 5).map fun s => (s.inst, parseRegion s), routes := r.routeWords.map parseRoute
    endpoints := r.endpointWords.map parseEndpoint, templates := r.templateWords.map parseTemplate
    subs := r.subWords.map parseSub, stageLists := r.listWords.map parseList }

/-! ### Check 8: bounds -/

/-- A relative coordinate inside the rectangle. -/
def Image.inside (im : Image) (rel : Nat) : Bool := rel / 64 < im.height && rel % 64 < im.width

/-- A field of a route entry, whose bits keep their numbers. -/
def RouteSec.bits (n : RouteSec) (lo w : Nat) : Nat := bitsOf n.param.toNat lo w

/-- The arcs of an arbiter, counter or merge node: tile and outbound port (R340). -/
def RouteSec.arcs (n : RouteSec) : List (Nat × Nat) :=
  if n.kind < 2 then []
  else (List.range (n.bits 110 3)).map fun a => (n.bits (34 + 13 * a) 11, n.bits (32 + 13 * a) 2)

/-- A relative coordinate inside a region's rectangle. -/
def RegionSec.inside (g : RegionSec) (rel : Nat) : Bool :=
  g.corg / 64 ≤ rel / 64 && rel / 64 < g.corg / 64 + g.cheight && g.corg % 64 ≤ rel % 64
    && rel % 64 < g.corg % 64 + g.cwidth

/-- IMG_BOUNDS is not due. -/
def boundsOk (im : Image) : Bool :=
  (im.tileMap.all fun k => k = 0xFFFF || k < im.texts.length)
    && (im.texts.all fun x => x.doff + x.data.length ≤ 0x1F0000)
    && (im.rowCfgs.all fun (k, _) => im.inside k)
    && (im.regions.all fun (_, g) => g.corg / 64 + g.cheight ≤ im.height && g.corg % 64 + g.cwidth ≤ im.width
        && g.ports.all fun p => g.inside p.tile)
    && (im.routes.all fun n => im.inside n.tile && n.arcs.all fun (t, _) => im.inside t)
    && (im.endpoints.all fun e => im.inside e.tile
        && ((e.kind != .memIn && e.kind != .memOut) || e.range < im.templates.length)
        && ((e.kind != .jetIn && e.kind != .jetOut) || e.jetIdx < im.jetPorts))
    && (im.subs.all fun d => im.inside d.pub && im.inside d.subTile && d.poff + 64 * d.lines ≤ 0x1F0000
        && d.soff + 64 * d.lines ≤ 0x1F0000)
    && im.stageLists.all fun l => l.all fun k => (tFind im.regions k).isSome

/-! ### Check 9: conflicts -/

/-- The number of times a value stands in a list. -/
def timesIn {α : Type} [DecidableEq α] (l : List α) (a : α) : Nat := (l.filter (· = a)).length

/-- Two regions share a cell. -/
def cellsMeet (a b : RegionSec) : Bool :=
  a.corg / 64 < b.corg / 64 + b.cheight && b.corg / 64 < a.corg / 64 + a.cheight
    && a.corg % 64 < b.corg % 64 + b.cwidth && b.corg % 64 < a.corg % 64 + a.cwidth

/-- Two regions are stages of one list. -/
def Image.sameList (im : Image) (a b : Nat) : Bool := im.stageLists.any fun l => l.contains a && l.contains b

/-- The stages of a list have one rectangle (R17). -/
def stagesAgree (im : Image) (l : List Nat) : Bool :=
  let gs := l.filterMap (tFind im.regions)
  gs.all fun a => gs.all fun b => a.corg = b.corg && a.cwidth = b.cwidth && a.cheight = b.cheight

/-- A list obeys R23. -/
def listOk (w : Nat) : Bool :=
  let n := bitsOf w 0 8
  2 ≤ n && n ≤ 8 && bitsOf w (8 + 8 * n) (120 - 8 * n) = 0

/-- Regions loaded at placement: those in no list, and the first of each (R23). -/
def Image.firstStages (im : Image) : List Nat :=
  (im.regions.map (·.1)).filter fun k => im.stageLists.all fun l => !l.contains k || l.head? = some k

/-- Tile ports that regions feed, and that feed regions. -/
def Image.regionFeeds (im : Image) (toTile : Bool) : List (Nat × Nat) :=
  im.regions.flatMap fun (_, g) => (g.ports.filter fun p => p.toTile = toTile).map fun p => (p.tile, p.tport)

/-- Outbound ports that an endpoint or a region maps; inbound ports that an endpoint or a region feeds. -/
def Image.outMapped (im : Image) : List (Nat × Nat) :=
  ((im.endpoints.filter fun e => !e.feeds im).map fun e => (e.tile, e.port)) ++ im.regionFeeds false
def Image.inFed (im : Image) : List (Nat × Nat) :=
  ((im.endpoints.filter fun e => e.feeds im).map fun e => (e.tile, e.port)) ++ im.regionFeeds true

/-- The ports of arbiter, counter and merge nodes obey R340; an arbiter's replies feed an inbound port of each arc tile
(R341). DESIGN CHOICE (log 14): R31, R340 and R341 do not name an arbiter whose RPORT is also an arc, or is mapped by an endpoint
or a region; such an image gets IMG_CONFLICT, as for every other port used twice. -/
def nodesOk (im : Image) : Bool :=
  let nodes := im.routes.filter fun n => 2 ≤ n.kind
  let arcs := nodes.flatMap (·.arcs)
  let tports := nodes.map fun n => (n.tile, n.bits 113 2)
  let replies := (nodes.filter fun n => n.kind = 2).flatMap fun n => n.arcs.map fun (t, _) => (t, n.bits 115 2)
  (arcs.all fun a => timesIn arcs a = 1 && !im.outMapped.contains a)
    && (tports.all fun p => timesIn tports p = 1 && !im.inFed.contains p && !replies.contains p)
    && nodes.all fun n => n.kind ≠ 2 ||
        (!arcs.contains (n.tile, n.bits 115 2) && !im.outMapped.contains (n.tile, n.bits 115 2))

/-- IMG_CONFLICT is not due. -/
def conflictsOk (im : Image) (lists : List Nat) : Bool :=
  let stages := im.stageLists.flatMap id
  decide ((im.endpoints.map (·.epid)).Nodup)
    && (im.regions.all fun (_, g) => decide ((g.ports.map (·.rport)).Nodup))
    && decide ((im.routes.map fun n => (n.tile, n.slot)).Nodup)
    && (im.regions.all fun (i, a) => im.regions.all fun (j, b) => i = j || !cellsMeet a b || im.sameList i j)
    && im.stageLists.all (stagesAgree im)
    && (im.subs.all fun d => d.pub ≠ d.subTile && timesIn (im.subs.map (·.pub)) d.pub ≤ 32
        && timesIn (im.subs.map (·.subTile)) d.subTile ≤ 32)
    && lists.all listOk && decide stages.Nodup
    && (!im.prot || im.templates.all fun t => !t.plain)
    && im.endpoints.any (·.sink)
    && (im.memPorts ≠ 0 || (im.templates.isEmpty && im.endpoints.all fun e =>
        e.kind != .memIn && e.kind != .memOut && e.kind != .queue))
    && pairwiseB (fun a b => decide (a.vlimit ≤ b.vbase) || decide (b.vlimit ≤ a.vbase)) im.templates
    && nodesOk im

/-! ### Acceptance (R31) -/

/-- Bytes of the image store (R28). -/
def storeBytes : Nat := 2 ^ 34

/-- Bytes of the distinct copies that the store holds. -/
def State.storeUsed (s : State) : Nat := (s.images.map fun (_, im) => im.totLen).foldl (· + ·) 0

/-- Goes on if a check passes. -/
def passes (ok : Bool) (st : Status) : Except Status Unit := if ok then .ok () else .error st

/-- The checks of R31, in order: the first on the TOTLEN of the header (R6, R428). -/
def acceptImage (s : State) (f : Nat) (b : List Byte) : Except Status Image := do
  passes (decide (s.storeUsed + bitsOf (leAt b 0 64) 160 32 ≤ storeBytes)) .IMG_SPACE
  let r := readImage b
  passes (formatOk b r) .IMG_FORMAT
  passes (bitsOf r.head 48 16 = 0xB0) .IMG_STEP
  passes (authorOk s f r) .IMG_AUTHOR
  passes (signatureOk r) .IMG_SIG
  passes (reservedOk r) .IMG_RSVD
  passes (limitsOk r) .IMG_LIMIT
  let im := parseImage r
  passes (boundsOk im) .IMG_BOUNDS
  passes (conflictsOk im r.listWords) .IMG_CONFLICT
  passes (im.regions.all fun (_, g) => Config.regionAccepts g.bits) .IMG_REGION
  .ok im

/-! ### The backing table (R88, R288, R428) -/

/-- A backing entry obeys R288, but for its reserved bits. -/
def backingOk (s : State) (f : Nat) (tm : Template) (w : Nat) : Bool :=
  let pm := bitsOf w 63 1 = 1
  let base := bitsOf w 12 40 * 4096
  let span := tm.vlimit - tm.vbase
  (tm.peer || bitsOf w 64 12 = 0) && (!pm || (tm.vbase % 65536 = 0 && tm.vlimit % 65536 = 0))
    && (tm.peer || s.inAlloc f base (if pm then 8 * (span / 65536) else span))

/-- The entries, in template order: a reserved bit, then any other condition (R428). -/
def checkBacking (s : State) (f : Nat) : List Template → List Nat → Except Status (List Backing)
  | tm :: ts, w :: ws => do
    passes (onlyBits w [(12, 40), (63, 1), (64, 12)]) .V_RSVD
    passes (backingOk s f tm w) .V_WINDOW
    let rest ← checkBacking s f ts ws
    .ok ({ peerId := bitsOf w 64 12, paged := bitsOf w 63 1 = 1, pbase := bitsOf w 12 40 * 4096 } :: rest)
  | _, _ => .ok []

/-- The backing table at BACKP. -/
def readBacking (s : State) (f : Nat) (im : Image) (backp : Nat) : Except Status (List Backing) := do
  let n := im.templates.length
  passes (if n = 0 then backp = 0 else backp ≠ 0 && backp % 16 = 0 && s.inAlloc f backp (16 * n)) .V_WINDOW
  checkBacking s f im.templates (entriesOf (devBytes s 0 backp (16 * n)) 16)

/-! ### `CTXCREATE` (R428) -/

/-- The lowest number not in use. -/
def lowestKey {α : Type} (m : Table α) (n : Nat) : Option Nat := (List.range n).find? fun k => (tFind m k).isNone

/-- Key slots (R291). -/
def keySlotCount : Nat := 8192

/-- The copy that an accepted image shares, or a new one (R32). -/
def storeCopy (s : State) (im : Image) : State × Nat :=
  match s.images.find? fun (_, k) => k.measurement = im.measurement with
  | some (n, _) => (s, n)
  | none =>
    let n := (lowestKey s.images (s.images.length + 1)).getD 0
    ({ s with images := tInsert s.images n im }, n)

/-- A key slot takes a key of a new number (R88, R291). -/
def newKey (s : State) : State × Nat :=
  match lowestKey s.keySlots keySlotCount with
  | none => (s, 0)
  | some k => ({ s with keySlots := tInsert s.keySlots k s.nextKey, nextKey := s.nextKey + 1 }, s.nextKey)

/-- A resident context that owns no tile (R105). -/
def newContext (s : State) (n f copy key : Nat) (im : Image) (backs : List Backing) : Context :=
  { func := f, gen := tGet 0 s.gens n, row := 0, col := 0, width := im.width, height := im.height,
    memPorts := im.memPorts, ranges := [], key := key, copy := copy, backing := backs, phase := .resident, ports := [],
    jets := [], fifo := [], run := none, busy := false, heldFault := none, lastOps := [], gens := [], queues := [],
    regions := [], sealedRec := none, evictAsked := false, toClear := [], destroy := none, idleSince := s.stamp, aged := 0,
    waitsRoom := false }

/-- Step 4 of R428. -/
def createContext (s : State) (src : PktSrc) (p : BitVec 512) (n f : Nat) (im : Image) (backs : List Backing) : State :=
  let (s1, copy) := storeCopy s im
  let (s2, key) := newKey s1
  reply { s2 with ctxs := tInsert s2.ctxs n (newContext s2 n f copy key im backs), stamp := s2.stamp + 1 } src p .OK n

/-- A `CTXCREATE`: order 6, then the steps of R428. -/
def handleCtxcreate : Handler := fun s l src p =>
  let f := l.func.getD 0
  let a := pktField p 160 64
  let len := pktField p 128 32
  if !s.inAlloc f a len then some (reply s src p .V_WINDOW 0)
  else match lowestKey s.ctxs 32 with
    | none => some (reply s src p .NOCTX 0)
    | some n => match (do
        let im ← acceptImage s f (devBytes s 0 a len)
        let backs ← readBacking s f im (pktField p 224 64)
        .ok (im, backs)) with
      | .error st => some (reply s src p st 0)
      | .ok (im, backs) => some (createContext s src p n f im backs)

/-- `CTXCREATE` (R428). -/
def execCtxcreate (src : PktSrc) (p : BitVec 512) (s : State) : Out := packetRow src p (· = 0x08) handleCtxcreate s

end Sys2Proof.Machine
end

