-- ==== Sys2Proof/Machine/Flow.lean ====
section
/-! DEFINITION. The flow instructions (06 R131-R137, 07 R180-R182). -/

namespace Sys2Proof.Machine

open Sys2Proof

/-- C may not complete a flow instruction while OUTSTANDING has reached `DRIFT` (R133); a handler's flow words are
its own (R182). -/
def Tile.driftHolds (tl : Tile) : Bool := !tl.inHandler && tl.drift.toNat ≤ tl.outstanding

/-- Appends an outcome, outside handler state (R132, R182). -/
def appendOutcome (s : State) (t : Nat) (o : FlowOutcome) : State :=
  s.onTile t fun tl => if tl.inHandler then tl else { tl with outcomes := tl.outcomes ++ [o] }

/-- RUNNING A FLOW INSTRUCTION OF C. Its evaluation gives the state with its register written, and the target if it is
taken; a taken target outside the text is RANGE and appends nothing (R135, R137, R180). -/
def runFlow (s : State) (eval : Nat → State → Res (State × Option Int)) : Out :=
  let t := s.here
  let tl := s.tile t
  let pc := tl.cntC.pc
  if tl.driftHolds then .next (waitC s t)
  else match eval t s with
    | .error (.trap c info) => .next (deliverTrap s t .C c info pc)
    | .error (.wait s') | .error (.back s') => .next (waitC s' t)
    | .error _ => .next (waitC s t)
    | .ok (s1, none) => .next (retireTo (appendOutcome s1 t (.goto (pc + 1))) t (pc + 1))
    | .ok (s1, some tgt) =>
      if tgt < 0 || (tl.nwords : Int) ≤ tgt then .next (deliverTrap s t .C .RANGE 0 pc)
      else .next (retireTo (appendOutcome s1 t (.goto tgt.toNat)) t tgt.toNat)

/-- A register of a flow word; a link operand is ILLOP (R163). -/
def flowReg (t : Nat) (r : BitVec 5) (s : State) : Res Word := do
  check (!isLink r) .ILLOP
  let (v, _) ← readReg t r s
  .ok v

/-- The target of a branch: its own index plus the offset (R180). -/
def branchTarget (s : State) (t : Nat) (off : BitVec 14) : Int := ((s.tile t).cntC.pc : Int) + off.toInt

/-- A conditional branch (R180). -/
def branchEval (a b : BitVec 5) (off : BitVec 14) (taken : Word → Word → Bool) (t : Nat) (s : State) :
    Res (State × Option Int) := do
  let va ← flowReg t a s
  let vb ← flowReg t b s
  .ok (s, if taken va vb then some (branchTarget s t off) else none)

/-- `b` (R180). -/
def execB (off : BitVec 14) (s : State) : Out := runFlow s fun t s => .ok (s, some (branchTarget s t off))

/-- `beq` (R180). -/
def execBeq (a b : BitVec 5) (off : BitVec 14) (s : State) : Out := runFlow s (branchEval a b off fun x y => x == y)

/-- `bne` (R180). -/
def execBne (a b : BitVec 5) (off : BitVec 14) (s : State) : Out := runFlow s (branchEval a b off fun x y => x != y)

/-- `blt` (R180). -/
def execBlt (a b : BitVec 5) (off : BitVec 14) (s : State) : Out := runFlow s (branchEval a b off fun x y => x.slt y)

/-- `bge` (R180). -/
def execBge (a b : BitVec 5) (off : BitVec 14) (s : State) : Out := runFlow s (branchEval a b off fun x y => !x.slt y)

/-- `bltx` (R180). -/
def execBltx (a b : BitVec 5) (off : BitVec 14) (s : State) : Out :=
  runFlow s (branchEval a b off fun x y => decide (x < y))

/-- `bgex` (R180). -/
def execBgex (a b : BitVec 5) (off : BitVec 14) (s : State) : Out :=
  runFlow s (branchEval a b off fun x y => !decide (x < y))

/-- `call`: the link is index plus one (R181). -/
def callEval (r : BitVec 5) (off : BitVec 14) (t : Nat) (s : State) : Res (State × Option Int) := do
  check (!isLink r) .ILLOP
  let pc := (s.tile t).cntC.pc
  .ok (s.onTile t (·.setX r.toNat (BitVec.ofNat 64 (pc + 1))), some (branchTarget s t off))

/-- `call` (R181). -/
def execCall (r : BitVec 5) (off : BitVec 14) (s : State) : Out := runFlow s (callEval r off)

/-- `ret`: continues at the word index in the register (R181). -/
def retEval (r : BitVec 5) (t : Nat) (s : State) : Res (State × Option Int) := do
  let v ← flowReg t r s
  .ok (s, some v.toNat)

/-- `ret` (R181). -/
def execRet (r : BitVec 5) (s : State) : Out := runFlow s (retEval r)

/-- `loop`: a count of 0 falls through; otherwise it falls by one and the loop goes on while it is not 0 (R181). -/
def loopEval (r : BitVec 5) (off : BitVec 14) (t : Nat) (s : State) : Res (State × Option Int) := do
  let v ← flowReg t r s
  if v = 0 then .ok (s, none)
  else
    let s1 := s.onTile t (·.setX r.toNat (v - 1))
    .ok (s1, if v - 1 = 0 then none else some (branchTarget s t off))

/-- `loop` (R181). -/
def execLoop (r : BitVec 5) (off : BitVec 14) (s : State) : Out := runFlow s (loopEval r off)

/-- C halts at its `halt`, whose index it keeps; the halt mark is appended unless the other counters have halted
already (R136). A tile whose counters have all halted closes its batches (R357). -/
def haltC (s : State) (t : Nat) : State :=
  let s1 := s.onTile t fun tl =>
    let others := tl.cntL.st == .halted && tl.cntX.st == .halted && tl.cntS.st == .halted
    { tl with outcomes := if others then tl.outcomes else tl.outcomes ++ [.halt]
              cntC := tl.cntC.halt, haltedAt := some tl.cntC.pc, restored := false, drained := false, cwait := none }
  if (s1.tile t).allHalted then closeBatches s1 t else s1

/-- `halt` (R136, R182): ILLOP in handler state. -/
def execHalt (s : State) : Out :=
  let t := s.here
  let tl := s.tile t
  if tl.inHandler then .next (deliverTrap s t .C .ILLOP 0 tl.cntC.pc)
  else if tl.driftHolds then .next (waitC s t)
  else .next (haltC s t)

end Sys2Proof.Machine
end

