-- ==== Sys2Proof/Machine/Flags.lean ====
section
/-! DEFINITION. Number formats, exact arithmetic, rounding, and every flag that an X engine instruction raises
(02 R34-R58). A value is decoded, computed on exactly, and rounded once where the spec names a rounding. -/

namespace Sys2Proof.Machine

open Sys2Proof

/-! ### Flags (R53) -/

/-- The bits of `FFLAGS`. -/
abbrev FpFlags := BitVec 6

def flagNX : FpFlags := 1
def flagUF : FpFlags := 2
def flagOF : FpFlags := 4
def flagNV : FpFlags := 8
def flagRR : FpFlags := 16
def flagZNF : FpFlags := 32

/-- A flag if a condition holds. -/
def flagIf (b : Bool) (f : FpFlags) : FpFlags := if b then f else 0

/-- Result bits and the flags raised. -/
abbrev Flagged := Nat × FpFlags

/-! ### Formats (R34) -/

/-- The floating-point formats, e8m0 included. -/
def isFloat (fmt : Nat) : Bool := fmt ≤ 6

/-- The integer formats. -/
def isInteger (fmt : Nat) : Bool := 7 ≤ fmt && fmt ≤ 14

/-- The group F of R205. -/
def inF (fmt : Nat) : Bool := fmt ≤ 2

/-- The group I of R205. -/
def inI (fmt : Nat) : Bool := fmt = 7 || fmt = 8 || (11 ≤ fmt && fmt ≤ 14)

/-- A floating-point format with a sign: significand bits below the leading one, bias, and the largest finite value
`kmax × 2^qmax` (R34, R36). -/
structure FpFmt where
  mbits : Nat
  bias : Int
  width : Nat
  kmax : Nat
  qmax : Int
  hasInf : Bool
  deriving DecidableEq, Repr

/-- The signed floating-point formats; f32 for every other code. -/
def fpFmt (fmt : Nat) : FpFmt :=
  match fmt with
  | 1 => { mbits := 7, bias := 127, width := 16, kmax := 255, qmax := 120, hasInf := true }
  | 2 => { mbits := 10, bias := 15, width := 16, kmax := 2047, qmax := 5, hasInf := true }
  | 3 => { mbits := 3, bias := 7, width := 8, kmax := 14, qmax := 5, hasInf := false }
  | 4 => { mbits := 2, bias := 15, width := 8, kmax := 7, qmax := 13, hasInf := true }
  | 5 => { mbits := 1, bias := 1, width := 4, kmax := 3, qmax := 1, hasInf := false }
  | _ => { mbits := 23, bias := 127, width := 32, kmax := 16777215, qmax := 104, hasInf := true }

/-- The exponent of the smallest subnormal. -/
def FpFmt.qmin (f : FpFmt) : Int := 1 - f.bias - f.mbits

/-- The encoding of the largest finite magnitude. -/
def FpFmt.maxBits (f : FpFmt) : Nat := (f.qmax - f.qmin).toNat * 2 ^ f.mbits + f.kmax

/-- The encoding of infinity, in a format that has one. -/
def FpFmt.infBits (f : FpFmt) : Nat := (2 ^ (f.width - 1 - f.mbits) - 1) * 2 ^ f.mbits

/-- The sign bit of an encoding. -/
def FpFmt.signBit (f : FpFmt) (neg : Bool) : Nat := if neg then 2 ^ (f.width - 1) else 0

/-- A decoded value: a NaN, signalling or quiet; an infinity; or `(-1)^neg × m × 2^e`, where `m = 0` is a signed
zero. -/
inductive FVal where
  | nan (sig : Bool)
  | inf (neg : Bool)
  | num (neg : Bool) (m : Nat) (e : Int)
  deriving DecidableEq, Repr

namespace FVal

def isNan : FVal → Bool
  | .nan _ => true
  | _ => false

def isSnan : FVal → Bool
  | .nan s => s
  | _ => false

def isInf : FVal → Bool
  | .inf _ => true
  | _ => false

def isZero : FVal → Bool
  | .num _ m _ => m = 0
  | _ => false

def sign : FVal → Bool
  | .nan _ => false
  | .inf n => n
  | .num n _ _ => n

/-- The value with its sign changed. -/
def neg : FVal → FVal
  | .nan s => .nan s
  | .inf n => .inf (!n)
  | .num n m e => .num (!n) m e

/-- The value of an integer. -/
def ofInt (v : Int) : FVal := .num (v < 0) v.natAbs 0

end FVal

/-- Decodes an encoding of a signed floating-point format (R35, R36). -/
def decodeSigned (fmt bits : Nat) : FVal :=
  let f := fpFmt fmt
  let neg := bits / 2 ^ (f.width - 1) % 2 = 1
  let ebits := f.width - 1 - f.mbits
  let e := bits / 2 ^ f.mbits % 2 ^ ebits
  let m := bits % 2 ^ f.mbits
  if f.hasInf && e = 2 ^ ebits - 1 then
    if m = 0 then .inf neg else .nan (m < 2 ^ (f.mbits - 1))
  else if fmt = 3 && e = 15 && m = 7 then .nan false
  else if e = 0 then .num neg m f.qmin
  else .num neg (2 ^ f.mbits + m) (f.qmin + e - 1)

/-- The integer that an encoding of an integer format stands for (R34, R37). -/
def decodeInteger (fmt bits : Nat) : Int :=
  match fmt with
  | 7 => signedOf 8 (bits % 256)
  | 8 => ((bits % 256 : Nat) : Int)
  | 9 => signedOf 4 (bits % 16)
  | 10 => signedOf 3 (bits % 8)
  | 11 => signedOf 16 (bits % 65536)
  | 12 => signedOf 32 (bits % 2 ^ 32)
  | 13 => ((bits % 2 ^ 32 : Nat) : Int)
  | _ => signedOf 64 (bits % 2 ^ 64)

/-- Decodes an encoding of any numeric format. -/
def decodeVal (fmt bits : Nat) : FVal :=
  if fmt = 6 then (if bits % 256 = 255 then .nan false else .num false 1 ((bits % 256 : Nat) - 127))
  else if isFloat fmt then decodeSigned fmt bits
  else .ofInt (decodeInteger fmt bits)

/-! ### Rounding (R39-R41) -/

/-- Assigned rounding modes and saturation rules (R39, R40). -/
def roundingMode (rm : Nat) : Bool := rm ≤ 4
def satRule (sat : Nat) : Bool := sat ≤ 2

/-- Whether a discarded part rounds the magnitude up. `odd` is the low bit kept, `cmp` compares the part with a half:
0 below, 1 a tie, 2 above; the part is not zero. -/
def roundsUp (rm : Nat) (neg odd : Bool) (cmp : Nat) : Bool :=
  match rm with
  | 0 => cmp = 2 || (cmp = 1 && odd)
  | 1 => false
  | 2 => neg
  | 3 => !neg
  | _ => 1 ≤ cmp

/-- The magnitude `m × 2^e` rounded to a multiple of `2^q`, as that multiple (R39). -/
def roundMag (rm : Nat) (neg : Bool) (m : Nat) (e q : Int) : Nat :=
  if q ≤ e then m * 2 ^ (e - q).toNat
  else
    let d := 2 ^ (q - e).toNat
    let k := m / d
    let r := m % d
    if r = 0 then k
    else k + if roundsUp rm neg (k % 2 = 1) (if 2 * r < d then 0 else if 2 * r = d then 1 else 2) then 1 else 0

/-- Compares two magnitudes: `a × 2^ea < b × 2^eb`. -/
def magLt (a : Nat) (ea : Int) (b : Nat) (eb : Int) : Bool :=
  if ea ≤ eb then a < b * 2 ^ (eb - ea).toNat else a * 2 ^ (ea - eb).toNat < b

/-- Two magnitudes are the same. -/
def magEq (a : Nat) (ea : Int) (b : Nat) (eb : Int) : Bool := !magLt a ea b eb && !magLt b eb a ea

/-- Overflow rounds to infinity rather than to the largest finite value (R41). -/
def overflowsToInf (rm : Nat) (neg : Bool) : Bool := rm = 0 || rm = 4 || (rm = 3 && !neg) || (rm = 2 && neg)

/-- What an overflowing result delivers (R41): NaN in e4m3, ±6 in e2m1, where there is no infinity. -/
def overflowBits (fmt rm sat : Nat) (neg : Bool) : Nat :=
  let f := fpFmt fmt
  if sat = 1 || !overflowsToInf rm neg then f.signBit neg + f.maxBits
  else if f.hasInf then f.signBit neg + f.infBits
  else if fmt = 3 then canonicalNan 3
  else f.signBit neg + f.maxBits

/-- Rounds a non-zero magnitude to a signed floating-point format, with the flags of R41. -/
def roundFinite (fmt rm sat : Nat) (neg : Bool) (m : Nat) (e : Int) : Flagged :=
  let f := fpFmt fmt
  let q0 : Int := (Nat.log2 m : Int) + e - f.mbits
  let k0 := roundMag rm neg m e q0
  if magLt f.kmax f.qmax k0 q0 then (overflowBits fmt rm sat neg, flagOF ||| flagNX)
  else
    let q := max q0 f.qmin
    let k := roundMag rm neg m e q
    let inexact := !magEq k q m e
    (f.signBit neg + (q - f.qmin).toNat * 2 ^ f.mbits + k,
     flagIf inexact flagNX ||| flagIf (inexact && magLt k0 q0 1 (1 - f.bias)) flagUF)

/-- A value in a signed floating-point format with an infinity, as an arithmetic operation delivers it (R41, R42). -/
def roundVal (fmt rm sat : Nat) (v : FVal) : Flagged :=
  let f := fpFmt fmt
  match v with
  | .nan _ => (canonicalNan fmt, 0)
  | .inf n => (f.signBit n + f.infBits, 0)
  | .num n m e => if m = 0 then (f.signBit n, 0) else roundFinite fmt rm sat n m e

/-! ### Exact arithmetic (R207, R50) -/

/-- The product of two values, and whether it is a product of zero and infinity. -/
def mulVal (a b : FVal) : FVal × Bool :=
  match a, b with
  | .nan _, _ => (.nan false, false)
  | _, .nan _ => (.nan false, false)
  | .inf n, .inf k => (.inf (n ^^ k), false)
  | .inf n, .num k m _ => if m = 0 then (.nan false, true) else (.inf (n ^^ k), false)
  | .num n m _, .inf k => if m = 0 then (.nan false, true) else (.inf (n ^^ k), false)
  | .num n m e, .num k p f => (.num (n ^^ k) (m * p) (e + f), false)

/-- The least exponent of the finite terms. -/
def minExp : List FVal → Int → Int
  | [], acc => acc
  | .num _ _ e :: vs, acc => minExp vs (min e acc)
  | _ :: vs, acc => minExp vs acc

/-- The sum of the finite terms in units of `2^q`. -/
def sumAt (q : Int) : List FVal → Int
  | [] => 0
  | .num n m e :: vs =>
    let k : Int := ((m * 2 ^ (e - q).toNat : Nat) : Int)
    (if n then -k else k) + sumAt q vs
  | _ :: vs => sumAt q vs

/-- The exact sum of terms, none of them a product that is still to be checked, and whether it holds both infinities.
A zero sum is −0 only if every term is −0 (R50, R207). -/
def sumVals (vs : List FVal) : FVal × Bool :=
  let pos := vs.any fun v => v.isInf && !v.sign
  let neg := vs.any fun v => v.isInf && v.sign
  if pos && neg then (.nan false, true)
  else if vs.any (·.isNan) then (.nan false, false)
  else if pos then (.inf false, false)
  else if neg then (.inf true, false)
  else
    let q := minExp vs 1000
    let k := sumAt q vs
    if k = 0 then (.num (vs.all fun v => v.isZero && v.sign) 0 0, false) else (.num (k < 0) k.natAbs q, false)

/-- NV of an operation: an invalid case, or a signalling NaN among the operands (R42, R50, R207). -/
def nvOf (invalid : Bool) (ops : List FVal) : FpFlags := flagIf (invalid || ops.any (·.isSnan)) flagNV

/-- One value is less than another, −0 below +0 (R207). -/
def ltVal (a b : FVal) : Bool :=
  match a, b with
  | .nan _, _ => false
  | _, .nan _ => false
  | .inf n, .inf k => n && !k
  | .inf n, .num _ _ _ => n
  | .num _ _ _, .inf k => !k
  | .num n m e, .num k p f =>
    if n && !k then true
    else if !n && k then false
    else if n then magLt p f m e else magLt m e p f

/-- Two values are numerically equal; +0 and −0 are (R207). -/
def eqVal (a b : FVal) : Bool :=
  match a, b with
  | .nan _, _ => false
  | _, .nan _ => false
  | .inf n, .inf k => n == k
  | .inf _, .num _ _ _ => false
  | .num _ _ _, .inf _ => false
  | .num n m e, .num k p f => magEq m e p f && (n == k || m = 0)

/-! ### Conversions (R43-R46) -/

/-- The least and the greatest value and the width of an integer format (R34). -/
def intRange (fmt : Nat) : Int × Int × Nat :=
  match fmt with
  | 7 => (-128, 127, 8)
  | 8 => (0, 255, 8)
  | 9 => (-8, 7, 4)
  | 10 => (-4, 3, 3)
  | 11 => (-32768, 32767, 16)
  | 12 => (-(2 ^ 31), 2 ^ 31 - 1, 32)
  | 13 => (0, 2 ^ 32 - 1, 32)
  | _ => (-(2 ^ 63), 2 ^ 63 - 1, 64)

/-- The container of an integer: an i3 element's bit 3 is its bit 2 (R37). -/
def intBits (fmt : Nat) (v : Int) : Nat :=
  match fmt with
  | 10 => let b := (v % 8).toNat; if 4 ≤ b then b + 8 else b
  | _ => (v % (2 ^ (intRange fmt).2.2 : Nat)).toNat

/-- Fits an exact integer result to an integer format (R46). -/
def fitInt (fmt sat : Nat) (v : Int) : Flagged :=
  let (lo, hi, _) := intRange fmt
  if lo ≤ v && v ≤ hi then (intBits fmt v, 0)
  else if sat = 2 then (intBits fmt v, 0)
  else (intBits fmt (if v < lo then lo else hi), flagNV)

/-- A rounded integer outside the target's range of a conversion from floating point (R45). -/
def clampFp (fmt sat : Nat) (v : Int) (nx : Bool) : Flagged :=
  let (lo, hi, _) := intRange fmt
  if lo ≤ v && v ≤ hi then (intBits fmt v, flagIf nx flagNX)
  else if sat = 2 then (intBits fmt v, flagIf nx flagNX)
  else (intBits fmt (if v < lo then lo else hi), flagNV ||| flagIf nx flagNX)

/-- A floating-point value to an integer format (R45). -/
def toInteger (fmt rm sat : Nat) (v : FVal) : Flagged :=
  let (lo, hi, _) := intRange fmt
  match v with
  | .nan _ => (0, flagNV)
  | .inf n => if sat = 2 then (0, flagNV) else (intBits fmt (if n then lo else hi), flagNV)
  | .num n m e =>
    let k := roundMag rm n m e 0
    clampFp fmt sat (if n then -(k : Int) else (k : Int)) (!magEq k 0 m e)

/-- A value to e8m0 (R43, R44). -/
def toE8m0 (rm sat : Nat) (v : FVal) : Flagged :=
  match v with
  | .nan _ => (0xFF, flagNV)
  | .inf n => (if !n && sat = 1 then 0xFE else 0xFF, flagNV)
  | .num n m e =>
    if m = 0 || n then (0xFF, flagNV)
    else
      let l : Int := (Nat.log2 m : Int) + e
      let exact := magEq m e 1 l
      let tie := magEq m e 3 (l - 1)
      let up := !exact && roundsUp rm false ((l + 127) % 2 ≠ 0) (if tie then 1 else if magLt m e 3 (l - 1) then 0 else 2)
      let x := if up then l + 1 else l
      if 127 < x then
        ((if sat = 1 || !overflowsToInf rm false then 0xFE else 0xFF), flagOF ||| flagNX)
      else if x < -127 then (0, flagUF ||| flagNX)
      else ((x + 127).toNat, flagIf (!exact) flagNX)

/-- A value to a signed floating-point format (R43). -/
def toFpFormat (fmt rm sat : Nat) (v : FVal) : Flagged :=
  let f := fpFmt fmt
  match v with
  | .nan s => if fmt = 5 then (0, flagNV) else (canonicalNan fmt, flagIf s flagNV)
  | .inf n =>
    if fmt = 3 then ((if sat = 1 then f.signBit n + f.maxBits else canonicalNan 3), flagNV)
    else if fmt = 5 then (f.signBit n + f.maxBits, flagNV)
    else (f.signBit n + f.infBits, 0)
  | .num n m e => if m = 0 then (f.signBit n, 0) else roundFinite fmt rm sat n m e

/-- A conversion from one numeric format to another (R43-R46). -/
def convert (src tgt rm sat bits : Nat) : Flagged :=
  if isInteger src && isInteger tgt then fitInt tgt sat (decodeInteger src bits)
  else
    let v := decodeVal src bits
    if isInteger tgt then toInteger tgt rm sat v
    else if tgt = 6 then toE8m0 rm sat v
    else toFpFormat tgt rm sat v

/-- The exact e4m3 encoding of a narrow weight (R47): the e2m1 values, and the integers of i4 and i3. -/
def expandWeight (src bits : Nat) : Nat := (convert src 3 0 0 bits).1

/-! ### Groups of products (R49, R50) -/

/-- One rounding of the accumulator plus a group of products (R49, R50). -/
def addGroup (acc : Nat) (prods : List (FVal × FVal)) : Flagged :=
  let a := decodeSigned 0 acc
  let ps := prods.map fun p => mulVal p.1 p.2
  let (s, both) := sumVals (a :: ps.map (·.1))
  let ops := a :: (prods.map (·.1) ++ prods.map (·.2))
  let (bits, fl) := roundVal 0 0 0 s
  (bits, fl ||| nvOf (both || ps.any (·.2)) ops)

end Sys2Proof.Machine
end

