-- ==== Sys2Proof/Machine/Special.lean ====
section
/-! DEFINITION. The special functions of the element row (02 R56-R58, 08 R211). A result within its bound is a free value of
`Config.special`, kept to the bound by comparing it with the exact value, which is computed here in fixed point with
far more bits than any bound needs (log 8). -/

namespace Sys2Proof.Machine

open Sys2Proof

/-- Fraction bits of the fixed-point numbers. -/
def fxBits : Nat := 320

/-- One, in fixed point. -/
def fxOne : Nat := 2 ^ fxBits

/-- Terms that a series takes. -/
def fxTerms : Nat := 110

/-- `sum of z^(2k+1) / (2k+1)`, with a sign that alternates if asked: the series of atan and atanh. -/
def fxAtan (alt : Bool) (z : Nat) : Nat → Nat → Nat → Int
  | 0, _, _ => 0
  | n + 1, k, p =>
    let t : Int := ((p / (2 * k + 1) : Nat) : Int)
    (if alt && k % 2 = 1 then -t else t) + fxAtan alt z n (k + 1) (p * z / fxOne * z / fxOne)

/-- ln 2. -/
def fxLn2 : Nat := 2 * (fxAtan false (fxOne / 3) fxTerms 0 (fxOne / 3)).toNat

/-- π / 2. -/
def fxHalfPi : Nat :=
  (8 * fxAtan true (fxOne / 5) 160 0 (fxOne / 5) - 2 * fxAtan true (fxOne / 239) fxTerms 0 (fxOne / 239)).toNat

/-- `sum of t^k / k!`. -/
def fxExpSeries (t : Nat) : Nat → Nat → Nat → Nat
  | 0, _, _ => 0
  | n + 1, k, p => p + fxExpSeries t n (k + 1) (p * t / fxOne / (k + 1))

/-- `e^t` of a non-negative number, in fixed point. -/
def fxExp (t : Nat) : Nat :=
  let n := t / fxLn2
  fxExpSeries (t % fxLn2) fxTerms 0 fxOne * 2 ^ n

/-- `sum of (-1)^k t^(2k+b) / (2k+b)!`: cos for `b = 0`, sin for `b = 1`. -/
def fxTrig (t : Nat) : Nat → Nat → Nat → Int
  | 0, _, _ => 0
  | n + 1, k, p => (p : Int) - fxTrig t n (k + 2) (p * t / fxOne * t / fxOne / ((k + 1) * (k + 2)))

/-- The magnitude `m × 2^e` in fixed point. -/
def fxOf (m : Nat) (e : Int) : Nat :=
  if 0 ≤ e + fxBits then m * 2 ^ (e + fxBits).toNat else m / 2 ^ (-(e + fxBits)).toNat

/-- Integer square root, bit by bit. -/
def isqrtFrom (v : Nat) : Nat → Nat → Nat
  | 0, r => r
  | b + 1, r => isqrtFrom v b (if (r + 2 ^ b) * (r + 2 ^ b) ≤ v then r + 2 ^ b else r)

/-- The integer square root. -/
def isqrt (v : Nat) : Nat := isqrtFrom v (Nat.log2 v / 2 + 1) 0

/-- The exact value of a function, as far as its bound needs it: sign, magnitude `m × 2^e`, and whether that is the
value itself. -/
structure Near where
  neg : Bool
  m : Nat
  e : Int
  exact : Bool
  deriving DecidableEq, Repr

/-- The numbers of the special functions, from their EOPs 0x30 to 0x38 (R206). -/
inductive SpecialFn where
  | exp2 | log2 | rcp | rsqrt | sqrt | sin | cos | tanh | sigm
  deriving DecidableEq, Repr

/-- The special function of a number. -/
def specialFn (n : Nat) : SpecialFn :=
  match n with
  | 0 => .exp2 | 1 => .log2 | 2 => .rcp | 3 => .rsqrt | 4 => .sqrt | 5 => .sin | 6 => .cos | 7 => .tanh | _ => .sigm

/-- The number of a special function. -/
def SpecialFn.code : SpecialFn → Nat
  | .exp2 => 0 | .log2 => 1 | .rcp => 2 | .rsqrt => 3 | .sqrt => 4 | .sin => 5 | .cos => 6 | .tanh => 7 | .sigm => 8

/-- `2^x`. -/
def nearExp2 (neg : Bool) (m : Nat) (e : Int) : Near :=
  if magLt 1024 0 m e then { neg := false, m := 1, e := if neg then -2000 else 2000, exact := false }
  else
    let x : Int := if neg then -(fxOf m e : Int) else (fxOf m e : Int)
    let n := x / fxOne
    let f := (x % fxOne).toNat
    if f = 0 then { neg := false, m := 1, e := n, exact := true }
    else { neg := false, m := fxExpSeries (f * fxLn2 / fxOne) fxTerms 0 fxOne, e := n - fxBits, exact := false }

/-- `log2 x`. -/
def nearLog2 (m : Nat) (e : Int) : Near :=
  let l := Nat.log2 m
  let n : Int := (l : Int) + e
  let frac := m * fxOne / 2 ^ l
  if m = 2 ^ l then { neg := n < 0, m := n.natAbs, e := 0, exact := true }
  else
    let z := (frac - fxOne) * fxOne / (frac + fxOne)
    let ln := 2 * (fxAtan false z (2 * fxTerms) 0 z).toNat
    let y : Int := n * fxOne + ((ln * fxOne / fxLn2 : Nat) : Int)
    { neg := y < 0, m := y.natAbs, e := -fxBits, exact := false }

/-- `1 / x`. -/
def nearRcp (neg : Bool) (m : Nat) (e : Int) : Near :=
  { neg := neg, m := 2 ^ (fxBits + Nat.log2 m) / m, e := -e - (fxBits + Nat.log2 m : Nat), exact := m = 2 ^ Nat.log2 m }

/-- `1 / sqrt x`. -/
def nearRsqrt (m : Nat) (e : Int) : Near :=
  let odd := e % 2 ≠ 0
  let v := if odd then 2 * m else m
  let h := if odd then (e - 1) / 2 else e / 2
  { neg := false, m := isqrt (2 ^ (4 * fxBits) / v), e := -h - (2 * fxBits : Nat),
    exact := v = 2 ^ Nat.log2 v && Nat.log2 v % 2 = 0 }

/-- `sin x`, or `cos x` with `shift` 1, for an operand below 2^20. -/
def nearTrig (shift : Nat) (neg : Bool) (m : Nat) (e : Int) : Near :=
  let x : Int := if neg then -(fxOf m e : Int) else (fxOf m e : Int)
  let q := (2 * x + fxHalfPi) / (2 * fxHalfPi)
  let r := x - q * fxHalfPi
  let quad := ((q + shift) % 4).toNat
  let t := r.natAbs
  let sn := fxTrig t 50 1 t
  let cs := fxTrig t 50 0 fxOne
  let y : Int := match quad with
    | 0 => if r < 0 then -sn else sn
    | 1 => cs
    | 2 => if r < 0 then sn else -sn
    | _ => -cs
  if y = 0 then { neg := neg, m := m, e := e, exact := false }
  else { neg := y < 0, m := y.natAbs, e := -fxBits, exact := false }

/-- `tanh x`. -/
def nearTanh (neg : Bool) (m : Nat) (e : Int) : Near :=
  if magLt 64 0 m e then { neg := neg, m := 2 ^ 200 - 1, e := -200, exact := false }
  else
    let u := fxExp (2 * fxOf m e)
    { neg := neg, m := fxOne - 2 * fxOne * fxOne / (u + fxOne), e := -fxBits, exact := false }

/-- The logistic function. -/
def nearSigm (neg : Bool) (m : Nat) (e : Int) : Near :=
  if magLt 200 0 m e then
    if neg then { neg := false, m := 1, e := -280, exact := false }
    else { neg := false, m := 2 ^ 200 - 1, e := -200, exact := false }
  else
    let u := fxExp (fxOf m e)
    if neg then { neg := false, m := 2 ^ (3 * fxBits) / (u + fxOne), e := -(2 * fxBits : Nat), exact := false }
    else { neg := false, m := u * fxOne / (u + fxOne), e := -fxBits, exact := false }

/-- The exact value of a function at an operand that no special case covers. -/
def nearOf (f : SpecialFn) (neg : Bool) (m : Nat) (e : Int) : Near :=
  match f with
  | .exp2 => nearExp2 neg m e
  | .log2 => nearLog2 m e
  | .rcp => nearRcp neg m e
  | .rsqrt => nearRsqrt m e
  | .sqrt => { neg := false, m := m, e := e, exact := false }
  | .sin => nearTrig 0 neg m e
  | .cos => nearTrig 1 neg m e
  | .tanh => nearTanh neg m e
  | .sigm => nearSigm neg m e

/-- The bound in ulps (R56). -/
def SpecialFn.ulps : SpecialFn → Nat
  | .sin | .cos | .tanh | .sigm => 2
  | _ => 1

/-- The functions that are exact where their result is representable (R56). -/
def SpecialFn.exactWhere : SpecialFn → Bool
  | .exp2 | .log2 => true
  | _ => false

/-- The exact result is too small for its ulp to shrink with it: below the smallest normal number. -/
def ulpExp (y : Near) : Int := max ((Nat.log2 y.m : Int) + y.e) (-126) - 23

/-- An f32 value is within the bound of the exact one (R56). A zero within it is so with either sign: R56 to R58 name none
(DESIGN CHOICE, log 8). -/
def withinBound (f : SpecialFn) (y : Near) (c : Nat) : Bool :=
  match decodeSigned 0 c with
  | .num n m e =>
    match sumVals [.num n m e, .num (!y.neg) y.m y.e] with
      | (.num _ d de, _) =>
        !magLt f.ulps (ulpExp y) d de || ((f = .sin || f = .cos) && !magLt 1 (-24) d de)
      | _ => false
  | _ => false

/-- The f32 result of a function at an operand that no special case covers (R56): the free value if it is within the
bound, else the nearest; R41 decides overflow and underflow of the exact result under RNE and IEEE. -/
def specialResult (f : SpecialFn) (x : Nat) (neg : Bool) (m : Nat) (e : Int) : Flagged :=
  let y := nearOf f neg m e
  let (near, fl) := roundFinite 0 0 0 y.neg y.m y.e
  if fl &&& flagOF ≠ 0 then (near, fl)
  else
    let c := (Config.special f.code (BitVec.ofNat 32 x)).toNat
    let keep := f.exactWhere && y.exact && fl = 0
    let bits := if !keep && withinBound f y c then c else near
    let inexact := !(y.exact && bits = near && fl = 0)
    let q0 : Int := (Nat.log2 y.m : Int) + y.e - 23
    let tiny := magLt (roundMag 0 y.neg y.m y.e q0) q0 1 (-126)
    (bits, flagIf inexact flagNX ||| flagIf (inexact && tiny) flagUF)

/-- f32 encodings of the special cases. -/
def f32Nan : Nat := 0x7FC00000
def f32Inf (n : Bool) : Nat := if n then 0xFF800000 else 0x7F800000
def f32Zero (n : Bool) : Nat := if n then 0x80000000 else 0
def f32One (n : Bool) : Nat := if n then 0xBF800000 else 0x3F800000
def f32Half : Nat := 0x3F000000

/-- The special cases of R57 and R58; none where the bound applies. -/
def specialCase (f : SpecialFn) (v : FVal) : Option Flagged :=
  match v with
  | .nan s => some (f32Nan, flagIf s flagNV)
  | .inf n => match f with
    | .exp2 | .sigm => some (if n then f32Zero false else if f = .exp2 then f32Inf false else f32One false, 0)
    | .log2 | .sqrt => some (if n then (f32Nan, flagNV) else (f32Inf false, 0))
    | .rsqrt => some (if n then (f32Nan, flagNV) else (f32Zero false, 0))
    | .rcp => some (f32Zero n, 0)
    | .sin | .cos => some (f32Nan, flagRR)
    | .tanh => some (f32One n, 0)
  | .num n m e =>
    if m = 0 then match f with
      | .exp2 | .cos => some (f32One false, 0)
      | .log2 => some (f32Inf true, 0)
      | .rcp | .rsqrt => some (f32Inf n, 0)
      | .sqrt | .sin | .tanh => some (f32Zero n, 0)
      | .sigm => some (f32Half, 0)
    else match f with
      | .log2 => if n then some (f32Nan, flagNV) else if (m : Int) = 2 ^ Nat.log2 m ∧ e = -(Nat.log2 m : Int) then some (f32Zero false, 0) else none
      | .sqrt | .rsqrt => if n then some (f32Nan, flagNV) else none
      | .sin | .cos => if magLt m e 1 20 then none else some (f32Nan, flagRR)
      | _ => none

/-- A square root, rounded once (R56, R211): the root of a scaled integer, with a last bit that says it is not exact. -/
def sqrtFinite (fmt rm sat m : Nat) (e : Int) : Flagged :=
  let odd := e % 2 ≠ 0
  let v := (if odd then 2 * m else m) * 2 ^ 128
  let h := (if odd then (e - 1) / 2 else e / 2) - 64
  let r := isqrt v
  roundFinite fmt rm sat false (2 * r + if r * r = v then 0 else 1) (h - 1)

/-- A special function on an element of an F format (R211): widened to f32, computed, converted back. -/
def specialOp (f : SpecialFn) (fmt rm sat bits : Nat) : Flagged :=
  let v := decodeSigned fmt bits
  match specialCase f v, v with
  | some (r, fl), _ =>
    let (b, g) := convert 0 fmt rm sat r
    (b, fl ||| g)
  | none, .num n m e =>
    if f = .sqrt then sqrtFinite fmt rm sat m e
    else
      let (r, fl) := specialResult f (roundVal 0 0 0 v).1 n m e
      let (b, g) := if fmt = 0 then (r, 0) else convert 0 fmt rm sat r
      (b, fl ||| g)
  | none, _ => (canonicalNan fmt, 0)

end Sys2Proof.Machine
end

