-- ==== Sys2Proof/Machine/Row.lean ====
section
/-! DEFINITION. The element row: its configuration checks, the element operations, and the instructions `erow`, `ecfg`,
`emode` (08 R190-R213). -/

namespace Sys2Proof.Machine

open Sys2Proof

/-! ### Configuration words (R157, R158, R194-R197) -/

/-- The fields of an operation word (R157). -/
structure LaneOp where
  eop : Nat
  srcA : Nat
  srcB : Nat
  dst : Nat
  fmt : Nat
  mod_ : Nat
  deriving DecidableEq, Repr

/-- The fields of a lane's operation word. -/
def laneOp (tl : Tile) (k : Nat) : LaneOp :=
  let w := (tGet 0 tl.rowOps k).toNat
  { eop := w / 2 ^ 26 % 64, srcA := w / 2 ^ 22 % 16, srcB := w / 2 ^ 18 % 16, dst := w / 2 ^ 14 % 16, fmt := w / 2 ^ 10 % 16,
    mod_ := w % 2 ^ 10 }

/-- The rounding mode and the saturation rule of a lane (R194). -/
def laneRm (tl : Tile) (k : Nat) : Nat := (tGet 0 tl.rowCfg k).toNat % 8
def laneSat (tl : Tile) (k : Nat) : Nat := (tGet 0 tl.rowCfg k).toNat / 16 % 4

/-- Bypass, fork, side and tap of a lane's switch word (R158). -/
def laneByp (tl : Tile) (k : Nat) : Bool := (tGet 0 tl.rowSw k).getLsbD 0
def laneFork (tl : Tile) (k : Nat) : Bool := (tGet 0 tl.rowSw k).getLsbD 1
def laneSide (tl : Tile) (k : Nat) : Nat := (tGet 0 tl.rowSw k).toNat / 4 % 4
def laneTap (tl : Tile) (k : Nat) : Nat := (tGet 0 tl.rowSw k).toNat / 16 % 4

/-- The formats that an operation accepts (R205, R206). -/
inductive EopFormats where
  /-- None: FMT is 0. -/
  | none_
  | any
  | f
  | fi
  | i
  | fin
  deriving DecidableEq, Repr

/-- What an operation uses: its formats, SRCA, SRCB, and the bits of MOD; none for an unassigned EOP (R206). -/
def eopUse (eop : Nat) : Option (EopFormats × Bool × Bool × Nat) :=
  match eop with
  | 0x00 => some (.none_, false, false, 0)
  | 0x01 => some (.any, true, false, 0)
  | 0x02 | 0x03 => some (.any, true, false, 3)
  | 0x04 => some (.any, true, false, 0x7F)
  | 0x05 => some (.any, true, true, 0)
  | 0x06 | 0x07 => some (.any, true, true, 3)
  | 0x08 | 0x09 | 0x0A | 0x0D | 0x0E => some (.fi, true, true, 0)
  | 0x0B | 0x0C | 0x11 => some (.fi, true, true, 3)
  | 0x0F | 0x10 => some (.fi, true, false, 0)
  | 0x12 => some (.f, true, true, 3)
  | 0x13 => some (.fi, true, false, 3)
  | 0x14 => some (.f, true, true, 7)
  | 0x18 | 0x19 | 0x1A => some (.fi, true, true, 0)
  | 0x1C | 0x1D | 0x1E => some (.any, true, true, 0)
  | 0x1F => some (.any, true, false, 0)
  | 0x20 | 0x21 => some (.i, true, false, 0x3F)
  | 0x24 => some (.fin, true, false, 0xF)
  | 0x25 => some (.fin, true, true, 0xF)
  | 0x26 => some (.fin, true, false, 0x1F)
  | 0x28 | 0x29 | 0x2A => some (.fi, true, false, 0)
  | 0x30 | 0x31 | 0x32 | 0x33 | 0x34 | 0x35 | 0x36 | 0x37 | 0x38 => some (.f, true, false, 0)
  | _ => none

/-- A format lies among those an operation accepts. -/
def EopFormats.accepts (u : EopFormats) (fmt : Nat) : Bool :=
  match u with
  | .none_ => fmt = 0
  | .any => true
  | .f => inF fmt
  | .fi => inF fmt || inI fmt
  | .i => inI fmt
  | .fin => fmt ≠ 15

/-- A source code that is assigned (R195). -/
def sourceOk (c : Nat) : Bool := c ≤ 2 || (4 ≤ c && c ≤ 7)

/-- A destination code that is assigned (R195). -/
def destOk (c : Nat) : Bool := c = 0 || (4 ≤ c && c ≤ 11)

/-- What only some operations check: the target format of a conversion, `drop`'s condition, `dn` (R205, R206). -/
def eopExtra (o : LaneOp) : Bool :=
  match o.eop with
  | 0x00 => o.dst = 0
  | 0x02 => o.dst = 0 && o.mod_ ≠ 3
  | 0x24 => o.mod_ ≠ 15
  | 0x25 => o.mod_ ≠ 15 && 2 * elemBits o.mod_ = elemBits o.fmt
  | 0x26 => o.mod_ % 16 ≠ 15 && elemBits (o.mod_ % 16) = 2 * elemBits o.fmt
  | _ => true

/-- A lane's words pass R197. `sides` says which side ports the `erow` enables. -/
def laneOk (tl : Tile) (sideA sideB : Bool) (k : Nat) : Bool :=
  let o := laneOp tl k
  let srcUsed (c : Nat) : Bool :=
    sourceOk c && (c ≠ 1 || (0 < k && laneFork tl (k - 1))) &&
      (c ≠ 2 || (laneSide tl k = 1 && sideA) || (laneSide tl k = 2 && sideB))
  (match eopUse o.eop with
    | none => false
    | some (fm, a, b, m) =>
      fm.accepts o.fmt && (if a then srcUsed o.srcA else o.srcA = 0) && (if b then srcUsed o.srcB else o.srcB = 0)
        && Nat.land o.mod_ m = o.mod_ && destOk o.dst && eopExtra o)
    && (tGet 0 tl.rowCfg k).toNat / 64 = 0 && !(tGet 0 tl.rowCfg k).getLsbD 3
    && roundingMode (laneRm tl k) && satRule (laneSat tl k)
    && (tGet 0 tl.rowSw k).toNat / 64 = 0 && laneTap tl k ≠ 3 && laneSide tl k ≠ 3

/-- The whole configuration passes R197. -/
def rowConfigOk (tl : Tile) (sideA sideB : Bool) : Bool :=
  (List.range 16).all (laneOk tl sideA sideB) && !laneFork tl 15
    && ((List.range 16).filter fun k => laneTap tl k ≠ 0).length ≤ 1

/-! ### Element operations (R206-R211) -/

/-- The rounding, saturation and format of a lane. -/
structure LaneFmt where
  fmt : Nat
  rm : Nat
  sat : Nat
  deriving DecidableEq, Repr

/-- A sum of products and single terms in F: rounded once (R207). -/
def sumF (c : LaneFmt) (terms : List (FVal × Bool)) (ops : List FVal) : Flagged :=
  let (s, both) := sumVals (terms.map (·.1))
  let (b, fl) := roundVal c.fmt c.rm c.sat s
  (b, fl ||| nvOf (both || terms.any (·.2)) ops)

/-- A single term. -/
def one (v : FVal) : FVal × Bool := (v, false)

/-- Arithmetic of two or three elements in F (R207). -/
def arithF (c : LaneFmt) (eop : Nat) (a b m : FVal) : Flagged :=
  match eop with
  | 0x08 => sumF c [one a, one b] [a, b]
  | 0x09 => sumF c [one a, one b.neg] [a, b]
  | 0x0A => sumF c [mulVal a b] [a, b]
  | 0x0B => sumF c [mulVal a b, one m] [a, b, m]
  | 0x0C => sumF c [mulVal a b, one m.neg] [a, b, m]
  | 0x12 =>
    let (d, bad) := sumVals [b, a.neg]
    let p := mulVal m d
    sumF c [one a, (p.1, p.2 || bad)] [a, b, m]
  | _ => sumF c [one m, one a] [m, a]

/-- Arithmetic of two or three elements in I: the exact result, to be fitted (R207). -/
def arithI (eop : Nat) (a b m : Int) : Int :=
  match eop with
  | 0x08 => a + b
  | 0x09 => a - b
  | 0x0A => a * b
  | 0x0B => a * b + m
  | 0x0C => a * b - m
  | _ => m + a

/-- One of two elements by the ordering of R207: the smaller, or the greater. -/
def pickF (c : LaneFmt) (greater : Bool) (x y : Nat) : Nat :=
  let a := decodeVal c.fmt x
  let b := decodeVal c.fmt y
  if a.isNan || b.isNan then canonicalNan c.fmt
  else if greater then (if ltVal a b then y else x) else (if ltVal b a then y else x)

/-- One of two elements in I. -/
def pickI (c : LaneFmt) (greater : Bool) (x y : Nat) : Nat :=
  let a := decodeInteger c.fmt x
  let b := decodeInteger c.fmt y
  if greater then (if a < b then y else x) else (if b < a then y else x)

/-- `min` and `max` of two elements. -/
def pick (c : LaneFmt) (greater : Bool) (x y : Nat) : Nat := if inF c.fmt then pickF c greater x y else pickI c greater x y

/-- NV of operations that look at F elements and do not compute: only for a signalling NaN. -/
def snanNv (c : LaneFmt) (xs : List Nat) : FpFlags :=
  if inF c.fmt then nvOf false (xs.map (decodeVal c.fmt)) else 0

/-- Absolute value or negation of an element (R207). -/
def signOp (c : LaneFmt) (negate : Bool) (x : Nat) : Flagged :=
  if inF c.fmt then
    let v := decodeVal c.fmt x
    let f := fpFmt c.fmt
    if v.isNan then (canonicalNan c.fmt, nvOf false [v])
    else (x % 2 ^ (f.width - 1) + f.signBit (negate && !v.sign), 0)
  else
    let v := decodeInteger c.fmt x
    fitInt c.fmt c.sat (if negate then -v else (v.natAbs : Int))

/-- A comparison of two elements: all ones if it holds (R206, R207). -/
def compareOp (c : LaneFmt) (eop x y : Nat) : Flagged :=
  let holds :=
    if inF c.fmt then
      let a := decodeVal c.fmt x
      let b := decodeVal c.fmt y
      match eop with
      | 0x18 => eqVal a b
      | 0x19 => ltVal a b && !eqVal a b
      | _ => eqVal a b || ltVal a b
    else
      let a := decodeInteger c.fmt x
      let b := decodeInteger c.fmt y
      match eop with
      | 0x18 => decide (a = b)
      | 0x19 => decide (a < b)
      | _ => decide (a ≤ b)
  (if holds then 2 ^ elemBits c.fmt - 1 else 0, snanNv c [x, y])

/-- A shift of an element (R206). -/
def shiftOp (c : LaneFmt) (left : Bool) (x n : Nat) : Nat :=
  let w := elemBits c.fmt
  if left then (if w ≤ n then 0 else x * 2 ^ n % 2 ^ w)
  else (decodeInteger c.fmt x / 2 ^ n % 2 ^ w).toNat

/-- `scale`: a power of two, or a NaN (R206, R207). -/
def scaleOp (c : LaneFmt) (x e : Nat) : Flagged :=
  let a := decodeVal c.fmt x
  if e = 255 then (canonicalNan c.fmt, nvOf false [a])
  else sumF c [mulVal a (.num false 1 ((e : Int) - 127))] [a]

/-- Element `i` of an element-wise result. -/
def elemOp (c : LaneFmt) (o : LaneOp) (a b m : Line) (i : Nat) : Flagged :=
  let x := wordElem c.fmt a i
  let y := wordElem c.fmt b i
  let z := wordElem c.fmt m i
  let w := elemBits c.fmt
  match o.eop with
  | 0x01 | 0x03 => (x, 0)
  | 0x04 => (wordElem c.fmt a (o.mod_ % perWord c.fmt), 0)
  | 0x05 => (wordElem c.fmt a (y % perWord c.fmt), 0)
  | 0x06 => (if m.getLsbD i then y else x, 0)
  | 0x07 => (if z = 0 then y else x, 0)
  | 0x08 | 0x09 | 0x0A | 0x0B | 0x0C | 0x12 | 0x13 =>
    if inF c.fmt then arithF c o.eop (decodeVal c.fmt x) (decodeVal c.fmt y) (decodeVal c.fmt z)
    else fitInt c.fmt c.sat (arithI o.eop (decodeInteger c.fmt x) (decodeInteger c.fmt y) (decodeInteger c.fmt z))
  | 0x0D => (pick c false x y, snanNv c [x, y])
  | 0x0E => (pick c true x y, snanNv c [x, y])
  | 0x0F => signOp c false x
  | 0x10 => signOp c true x
  | 0x11 => (pick c false (pick c true x y) z, snanNv c [x, y, z])
  | 0x14 => scaleOp c x (b.toNat / 2 ^ (8 * (i / 2 ^ (o.mod_ % 8) % 64)) % 256)
  | 0x18 | 0x19 | 0x1A => compareOp c o.eop x y
  | 0x1C => (Nat.land x y, 0)
  | 0x1D => (Nat.lor x y, 0)
  | 0x1E => (Nat.xor x y, 0)
  | 0x1F => (2 ^ w - 1 - x, 0)
  | 0x20 => (shiftOp c true x (o.mod_ % 64), 0)
  | 0x21 => (shiftOp c false x (o.mod_ % 64), 0)
  | _ => specialOp (specialFn (o.eop - 0x30)) c.fmt c.rm c.sat x

/-- A list of results as a word, with their flags together. -/
def collect (fmt : Nat) (rs : List Flagged) : Line × FpFlags :=
  (wordOf fmt (rs.map (·.1)), (rs.map (·.2)).foldl (· ||| ·) 0)

/-- `cvt`, `pack` and `unpack` (R208). -/
def convertOp (c : LaneFmt) (o : LaneOp) (a b : Line) : Line × FpFlags :=
  let tgt := o.mod_ % 16
  let nIn := perWord c.fmt
  let nOut := perWord tgt
  let one (v : Nat) : Flagged := convert c.fmt tgt c.rm c.sat v
  match o.eop with
  | 0x24 => collect tgt ((List.range (min nIn nOut)).map fun i => one (wordElem c.fmt a i))
  | 0x25 => collect tgt ((List.range nIn).map (fun i => one (wordElem c.fmt a i))
              ++ (List.range nIn).map (fun i => one (wordElem c.fmt b i)))
  | _ => collect tgt ((List.range nOut).map fun i => one (wordElem c.fmt a (o.mod_ / 16 % 2 * nOut + i)))

/-- The row reductions (R209). -/
def reduceOp (c : LaneFmt) (eop : Nat) (a : Line) : Line × FpFlags :=
  let xs := (List.range (perWord c.fmt)).map (wordElem c.fmt a)
  match eop with
  | 0x28 =>
    if inF c.fmt then
      let vs := xs.map (decodeVal c.fmt)
      collect c.fmt [sumF c (vs.map one) vs]
    else collect c.fmt [fitInt c.fmt c.sat ((xs.map (decodeInteger c.fmt)).foldl (· + ·) 0)]
  | _ => (wordOf c.fmt [xs.tail.foldl (pick c (eop = 0x29)) (pick c true (xs.headD 0) (xs.headD 0))], snanNv c xs)

/-- The result of an operation on whole words (R206), `pass`, `drop` and the tap of `tee` apart. -/
def wordOp (c : LaneFmt) (o : LaneOp) (a b m : Line) : Line × FpFlags :=
  if 0x24 ≤ o.eop && o.eop ≤ 0x26 then convertOp c o a b
  else if 0x28 ≤ o.eop && o.eop ≤ 0x2A then reduceOp c o.eop a
  else collect c.fmt ((List.range (perWord c.fmt)).map (elemOp c o a b m))

/-- `drop` drops the word (R206). -/
def drops (o : LaneOp) (a : Line) : Bool :=
  match o.mod_ % 4 with
  | 0 => true
  | 1 => a = 0
  | _ => a ≠ 0

/-! ### A word through the lanes (R191, R192, R199) -/

/-- A word on its way through the lanes. -/
structure RowWalk where
  up : Line
  /-- The input of the lane before. -/
  before : Line
  reached : Bool
  out : Option Line
  lanes : Table Line
  tees : Table Line
  /-- Words that `tee` lanes have to send before they can hold this one: lane, port and word. -/
  sends : List (Nat × Nat × StreamWord)
  flags : FpFlags
  /-- A lane register that was read holds an uncorrectable error (R380). -/
  bad : Bool
  /-- The OPM offsets of the lane registers written. -/
  wrote : List Nat
  deriving DecidableEq, Repr

/-- The operations that read `m`. -/
def readsM (eop : Nat) : Bool :=
  eop = 0x06 || eop = 0x07 || eop = 0x0B || eop = 0x0C || eop = 0x11 || eop = 0x12 || eop = 0x13

/-- The OPM offset of a lane register (R69). -/
def opmLane (k m : Nat) : Nat := 0x21D000 + 256 * k + 64 * m

/-- One lane acts on a word (R199). -/
def laneStep (tl : Tile) (sa sb : Line) (w : RowWalk) (k : Nat) : RowWalk :=
  if !w.reached then w
  else
    let o := laneOp tl k
    let c : LaneFmt := { fmt := o.fmt, rm := laneRm tl k, sat := laneSat tl k }
    let reg (m : Nat) : Line := tGet 0 w.lanes (4 * k + m)
    let side := if laneSide tl k = 1 then sa else sb
    let source (x : Nat) : Line :=
      match x with
      | 0 => w.up
      | 1 => w.before
      | 2 => side
      | _ => reg (x % 4)
    let badReg (x : Nat) : Bool := 4 ≤ x && tl.badAt (opmLane k (x % 4)) 64
    let tap (w : RowWalk) (inp down : Line) : RowWalk :=
      { w with out := if laneTap tl k = 1 then some down else if laneTap tl k = 2 then some inp else w.out }
    if laneByp tl k || o.eop = 0 then tap { w with before := w.up } w.up w.up
    else
      let a := source o.srcA
      let bad := badReg o.srcA || badReg o.srcB || (readsM o.eop && badReg (4 + o.mod_ % 4))
      if o.eop = 2 then
        if drops o a then { w with reached := false, bad := w.bad || bad }
        else tap { w with before := w.up, bad := w.bad || bad } w.up w.up
      else
        let (res, fl) := wordOp c o a (source o.srcB) (reg (o.mod_ % 4))
        let l1 := if 4 ≤ o.dst then tSet 0 w.lanes (4 * k + o.dst % 4) res else w.lanes
        let l2 := if o.eop = 0x13 then tSet 0 l1 (4 * k + o.mod_ % 4) res else l1
        let down := if 4 ≤ o.dst && o.dst ≤ 7 then w.up else res
        let (tees, sends) :=
          if o.eop = 3 then
            (tInsert w.tees k a, match tFind w.tees k with
              | none => w.sends
              | some h => w.sends ++ [(k, o.mod_ % 4, { data := h, kind := 0 })])
          else (w.tees, w.sends)
        let wrote := (if 4 ≤ o.dst then [opmLane k (o.dst % 4)] else [])
          ++ (if o.eop = 0x13 then [opmLane k (o.mod_ % 4)] else [])
        tap { w with up := down, before := w.up, lanes := l2, tees := tees, sends := sends, flags := w.flags ||| fl,
                     bad := w.bad || bad, wrote := w.wrote ++ wrote } w.up down

/-- A word through all sixteen lanes. -/
def rowWalk (tl : Tile) (tees : Table Line) (w sa sb : Line) : RowWalk :=
  let r := (List.range 16).foldl (laneStep tl sa sb)
    { up := w, before := 0, reached := true, out := none, lanes := tl.lanes, tees := tees, sends := [], flags := 0, bad := false,
      wrote := [] }
  let taps := (List.range 16).any fun k => laneTap tl k ≠ 0
  if !taps && r.reached then { r with out := some r.up } else r

/-! ### `erow` (R198-R201) -/

/-- A side port of an `erow`: its mode and its field. -/
structure SidePort where
  mode : Nat
  field : BitVec 4
  deriving DecidableEq, Repr

/-- The records of an `erow`: input, side A, side B, output. -/
structure RowRecords where
  gin : Tlr
  sa : Option Tlr
  sb : Option Tlr
  gout : Option Tlr
  deriving DecidableEq, Repr

/-- The record of a side port in descriptor mode. -/
def sideRecord (s : State) (t : Nat) (p : SidePort) : Res (Option Tlr) :=
  if p.mode = 1 then do .ok (some (← cmdDesc s t .X p.field)) else .ok none

/-- The checks of R77 for an operand, and its span. -/
def useRecord (s : State) (t : Nat) (e : Engine) (r : Tlr) (rd : Bool) : Res (List Span) := do
  liftCause (checkRecord s t e r false false rd)
  .ok (recSpan s t e r (Tlr.windowBox r rd) rd (!rd))

/-- The spans of an operand that may be absent. -/
def useOption (s : State) (t : Nat) (r : Option Tlr) (rd : Bool) : Res (List Span) :=
  match r with
  | none => .ok []
  | some r => useRecord s t .X r rd

/-- The checks of an `erow` at start, in order, its records and its spans (R197, R199). -/
def erowPlan (s : State) (t : Nat) (gin gout : BitVec 4) (pa pb : SidePort) (nout : Bool) :
    Res (RowRecords × List Span) := do
  let tl := s.tile t
  check (!tl.badAt 0x220000 0xA0) .MEMERR
  check (rowConfigOk tl (pa.mode ≠ 0) (pb.mode ≠ 0)) .ILLOP
  let i ← cmdDesc s t .X gin
  let s1 ← useRecord s t .X i true
  let a ← sideRecord s t pa
  let s2 ← useOption s t a true
  let b ← sideRecord s t pb
  let s3 ← useOption s t b true
  let o ← if nout then .ok none else do .ok (some (← cmdDesc s t .X gout))
  let s4 ← useOption s t o false
  .ok ({ gin := i, sa := a, sb := b, gout := o }, s1 ++ s2 ++ s3 ++ s4)

/-- The side word of a port for an input word, if it can be had: the word, the state after it is taken, and whether
the port has met an EOS or a marker (R201). -/
def sideWord (s : State) (t : Nat) (p : SidePort) (r : Option Tlr) (ended : Bool) (w : Nat) :
    Res (Line × State × Bool) :=
  match p.mode, r with
  | 1, some r => do .ok (← liftStop (windowWord s t .X r w), s, false)
  | 2, _ =>
    if ended then .ok (0, s, true)
    else match (s.tile t).inFifo (p.field.toNat % 4) with
      | [] => .error .stall
      | h :: _ => if h.isData then .ok (h.data, takeIn s t (p.field.toNat % 4), false) else .ok (0, s, true)
  | _, _ => .ok (0, s, false)

/-- A `tee` lane sends the word that it holds. -/
def sendTee (s : State) (t k p : Nat) (w : StreamWord) : State :=
  (putOut s t p w).onProg t .X fun pr => { pr with tees := tErase pr.tees k }

/-- `tee` lanes send in order, up to the first whose port is full: the word goes no further down the row (R210). The flag
says that every one has sent. -/
def sendTees (s : State) (t : Nat) : List (Nat × Nat × StreamWord) → State × Bool
  | [] => (s, true)
  | (k, p, w) :: rest => if outRoom s t p then sendTees (sendTee s t k p w) t rest else (s, false)

/-- The input word of a burst and its two side words, and the state after they are taken; one that waits at a `tee` lane has
them already (R199, R201, R210). -/
def erowInput (s : State) (t : Nat) (pa pb : SidePort) (rc : RowRecords) (w : Nat) : Res (Line × Line × Line × State) := do
  let pr := s.progOf t .X
  match pr.pinned with
  | some (up, sa, sb) => .ok (up, sa, sb, s)
  | none => do
    let up ← liftStop (windowWord s t .X rc.gin w)
    let (sa, s1, ea) ← sideWord s t pa rc.sa pr.endA w
    let (sb, s2, eb) ← sideWord s1 t pb rc.sb pr.endB w
    .ok (up, sa, sb, s2.onProg t .X fun p => { p with endA := ea, endB := eb })

/-- One input word of a burst (R199): its side words, the lanes, the words that `tee` lanes send. A word that waits at a lane
keeps its side words (R210). -/
def erowWord (s : State) (t : Nat) (pa pb : SidePort) (rc : RowRecords) (w : Nat) : Res State := do
  let (up, sa, sb, s2) ← erowInput s t pa pb rc w
  let r := rowWalk (s2.tile t) (s.progOf t .X).tees up sa sb
  check (!r.bad) .MEMERR
  let (s3, sent) := sendTees s2 t r.sends
  if !sent then .error (.wait (s3.onProg t .X fun p => { p with pinned := some (up, sa, sb) })) else
  let s4 := s3.onTile t fun tl => r.wrote.foldl (fun tl o => tl.clearBad o 64) { tl with lanes := r.lanes }
  .ok (s4.onProg t .X fun p =>
    { p with count := w + 1, pinned := none, tees := r.tees, flags := p.flags ||| r.flags,
             words := p.words ++ (r.out.toList.map fun o => { data := o, kind := 0 }) })

/-- Writes the output elements of a burst to its window (R199). -/
def erowOutput (s : State) (t : Nat) (gout : Option Tlr) : Res State :=
  match gout with
  | none => .ok s
  | some r =>
    let ws := (s.progOf t .X).words
    liftStop (writeElems s t .X r 0 0 (ws.flatMap fun w => wordElems (Tlr.fmt r) w.data))

/-- Flags are ORed into `FFLAGS` (R53, R54). -/
def addFlags (s : State) (t : Nat) (fl : FpFlags) : State := s.onTile t fun tl => { tl with fflags := tl.fflags ||| fl }

/-- At the end of a burst each `tee` lane sends the word that it holds, with kind 1, once its own port has room (R210). -/
def lastTees (s : State) (t : Nat) : State :=
  (s.progOf t .X).tees.foldl (fun s (k, w) =>
    let p := (laneOp (s.tile t) k).mod_ % 4
    if outRoom s t p then sendTee s t k p { data := w, kind := 1 } else s) s

/-- The input words of a burst from word `w` on, then its end. Earlier words stay performed at an error (R200). DESIGN CHOICE
(log 17): a word that a `tee` lane holds when the burst ends by MEMERR is never sent; R210 speaks of the burst's last word alone. -/
def erowWords (s : State) (t : Nat) (pa pb : SidePort) (rc : RowRecords) (w : Nat) : Nat → Res State
  | 0 => do
    let s1 := lastTees s t
    if !(s1.progOf t .X).tees.isEmpty then .error (.wait s1)
    else do
      let s2 ← erowOutput s1 t rc.gout
      .ok (addFlags s2 t (s.progOf t .X).flags)
  | n + 1 =>
    match erowWord s t pa pb rc w with
    | .ok s1 => erowWords s1 t pa pb rc (w + 1) n
    | .error (.trap c i) =>
      match erowOutput s t rc.gout with
      | .ok s1 => .error (.trapIn (addFlags s1 t (s.progOf t .X).flags) c i)
      | .error _ => .error (.trapIn s c i)
    | .error (.wait s1) => .error (.wait s1)
    | .error _ => .error (.wait s)

/-- `erow`: the checks once, then the words that can be had (R199-R201). DESIGN CHOICE (log 17): R126 does not say whether an
`erow` names the port that a `tee` lane of its configuration sends to; the ports it names here are its side ports. -/
def erowBody (gin gout gsa gsb : BitVec 4) (sam sbm : BitVec 2) (nout : BitVec 1) (t : Nat) (s : State) : Res State := do
  let pa : SidePort := { mode := sam.toNat, field := gsa }
  let pb : SidePort := { mode := sbm.toNat, field := gsb }
  let pr := s.progOf t .X
  let (rc, spans) ← erowPlan s t gin gout pa pb (nout == 1)
  let s1 ← if pr.begun then .ok s else do
    let s1 ← if sam == 2 then checkPort s t (gsa.toNat % 4) else .ok s
    let s2 ← if sbm == 2 then checkPort s1 t (gsb.toNat % 4) else .ok s1
    let s3 ← guards s2 t spans
    .ok (s3.onProg t .X fun p => { p with begun := true })
  erowWords s1 t pa pb rc pr.count (Tlr.words rc.gin - pr.count)

/-- `erow` (R199). -/
def execErow (_wl _ws _gl _gs : BitVec 1) (gin gout gsa gsb : BitVec 4) (sam sbm : BitVec 2) (nout : BitVec 1)
    (s : State) : Out := runCmd .X s (erowBody gin gout gsa gsb sam sbm nout)

/-! ### `ecfg` and `emode` (R202-R204) -/

/-- `ecfg`: the 160 bytes are loaded unchecked (R202). -/
def ecfgBody (off : BitVec 15) (t : Nat) (s : State) : Res State := do
  checkArea off 160
  let v ← readArea s t (areaOf off) 160
  let s1 ← guards s t [ownSpan s t (areaOf off) 160 true false]
  .ok (s1.onTile t fun tl => (tl.loadRowConfig v).clearBad 0x220000 0xA0)

/-- `ecfg` (R202). -/
def execEcfg (_wl _ws _gl _gs : BitVec 1) (off : BitVec 15) (s : State) : Out := runCmd .X s (ecfgBody off)

/-- `ecfg.st` (R202). -/
def ecfgStBody (off : BitVec 15) (t : Nat) (s : State) : Res State := do
  checkArea off 160
  check (!(s.tile t).badAt 0x220000 0xA0) .MEMERR
  let s1 ← guards s t [ownSpan s t (areaOf off) 160 false true]
  check (!(s.tile t).pubsBad) .MEMERR
  .ok (scratchWrite s1 t (areaOf off) (natBytes 160 (rowConfigNat (s.tile t))) 0 true true)

/-- `ecfg.st` (R202). -/
def execEcfgSt (_wl _ws _gl _gs : BitVec 1) (off : BitVec 15) (s : State) : Out := runCmd .X s (ecfgStBody off)

/-- Lane `k`'s entry of a mode token (R204). -/
def tokenEntry (v k : Nat) : Nat := v / 2 ^ (32 * k) % 2 ^ 32

/-- An entry that a mode token may hold (R204). -/
def tokenEntryOk (e : Nat) : Bool :=
  e < 2 ^ 31 || (e % 2 ^ 31 / 64 = 0 && e / 8 % 2 = 0 && roundingMode (e % 8) && satRule (e / 16 % 4))

/-- The check of a mode token (R204). -/
def checkToken (v : Nat) : Res Unit := check ((List.range 16).all fun k => tokenEntryOk (tokenEntry v k)) .ILLOP

/-- Applies a mode token (R204). -/
def applyToken (v : Nat) (t : Nat) (s : State) : State :=
  s.onTile t fun tl =>
    { tl with rowCfg := (List.range 16).foldl (fun m k =>
        let e := tokenEntry v k
        if 2 ^ 31 ≤ e then tSet 0 m k (BitVec.ofNat 32 (e % 2 ^ 31)) else m) tl.rowCfg }

/-- `emode` from scratchpad (R203). -/
def emodeBody (off : BitVec 15) (t : Nat) (s : State) : Res State := do
  checkArea off 64
  let v ← readArea s t (areaOf off) 64
  checkToken v
  let s1 ← guards s t [ownSpan s t (areaOf off) 64 true false]
  .ok (applyToken v t s1)

/-- `emode` (R203). -/
def execEmode (_wl _ws _gl _gs : BitVec 1) (off : BitVec 15) (s : State) : Out := runCmd .X s (emodeBody off)

/-- `emode` from a stream port: a word that fails the check stays at the head (R203, R204). -/
def emodePortBody (port : BitVec 2) (t : Nat) (s : State) : Res State := do
  let s1 ← checkPort s t port.toNat
  match (s.tile t).inFifo port.toNat with
  | [] => .error .stall
  | h :: _ =>
    if h.isData then do
      checkToken h.data.toNat
      .ok (applyToken h.data.toNat t (takeIn s1 t port.toNat))
    else .ok s1

/-- `emode` with SRC 1 (R203). -/
def execEmodePort (_wl _ws _gl _gs : BitVec 1) (port : BitVec 2) (s : State) : Out := runCmd .X s (emodePortBody port)

end Sys2Proof.Machine
end

