-- ==== Sys2Proof/Machine/LsEngine.lean ====
section
/-! DEFINITION. The commands of L and S: copies, host buffers, stream ports, routed gather and scatter, prefetch (11
R262-R281). -/

namespace Sys2Proof.Machine

open Sys2Proof

/-! ### Stops of a command that has begun (R268, R270) -/

/-- Why an element cannot be performed: a stop of memory at a generic address, or a host page. -/
inductive XStop where
  | mem (m : MStop) (addr : Word)
  | hostPage (space iova : Nat) (epid : BitVec 16)
  | hostLost (iova : Nat) (epid : BitVec 16)
  | hostBusy
  deriving DecidableEq, Repr

/-- Sets HFAIL of an engine's status register (R281). -/
def setHfail (s : State) (t : Nat) (e : Engine) : State :=
  s.onTile t fun tl => match e with
    | .S => { tl with sstat := { tl.sstat with hfail := true } }
    | _ => { tl with lstat := { tl.lstat with hfail := true } }

/-- A command on a host buffer is abandoned, and its run fails (R270). -/
def abandonHost (s : State) (t : Nat) (e : Engine) (entry : Nat) (status iova : Nat) (epid : BitVec 16) : State :=
  let s1 := setHfail (setFpage s t e iova) t e
  let s2 := s1.onTile t fun tl => tl.setQueue e ((tl.queue e).filter fun q => q.id ≠ entry)
  match (s.tile t).owner with
  | none => s2
  | some n => failRun s2 n { status := status, epid := epid, addr := BitVec.ofNat 64 iova, result := 0 }

/-- A command stops on a page of a host buffer while the host is asked for it (R270). -/
def hostStop (s : State) (t : Nat) (e : Engine) (space iova : Nat) (epid : BitVec 16) : State :=
  let s1 := setFpage (s.onProg t e fun p => { p with page := some (iova, none) }) t e iova
  askHost s1 ((s.tile t).owner.getD 0) (((s.ctxOf t).map (·.gen)).getD 0) space iova epid (.command t e s.focus.entry)

/-- How a command ends its step at an element that stopped; earlier elements stay performed (R268). -/
def stopCommand {α : Type} (s : State) (t : Nat) (e : Engine) (x : XStop) : Res α :=
  match x with
  | .mem (.refuse c) a =>
    .error (.trapIn (if c = .MEMERR then s else setFpage s t e a.toNat) c 0)
  | .mem (.page va) _ => .error (.wait (pageStop s t e va))
  | .mem .busy _ => .error (.wait s)
  | .hostPage sp io ep => .error (.wait (hostStop s t e sp io ep))
  | .hostLost io ep => .error (.wait (abandonHost s t e s.focus.entry 2 io ep))
  | .hostBusy => .error (.wait s)

/-- A command that has been stopped on a page goes on once it is serviced; no backing is a refusal with RANGE (R268,
R371). -/
def resumePage (s : State) (t : Nat) (e : Engine) : Res State :=
  match (s.progOf t e).page with
  | none => .ok s
  | some (_, none) => .error .stall
  | some (_, some true) => .ok (s.onProg t e fun p => { p with page := none })
  | some (va, some false) =>
    .error (.trapIn (setFpage (s.onProg t e fun p => { p with page := none }) t e va) .RANGE 0)

/-! ### Sides (R264, R270) -/

/-- A side of a command: a record, or a record that is a host handle for a bound buffer: its host space, the IOVA of its
byte 0, and its endpoint. -/
structure Side where
  r : Tlr
  host : Option (Nat × Nat × BitVec 16)
  deriving DecidableEq, Repr

/-- The endpoint index of a host handle (R270). -/
def handleIndex (r : Tlr) : Nat := (Tlr.base r).toNat / 2 ^ 54 % 64

/-- Order 5 of R77 as R270 replaces it: the endpoint's kind, an active run, and the buffer's length. -/
def hostSide (s : State) (t : Nat) (r : Tlr) (kind : EpKind) (read : Bool) : Except Cause Side :=
  match s.ctxOf t with
  | none => .error .PERM
  | some c => match s.endpoint c (handleIndex r) with
    | none => .error .PERM
    | some ep =>
      if ep.kind ≠ kind then .error .PERM
      else match c.run with
        | none => .error .RANGE
        | some _ => match c.operand (handleIndex r) with
          | .host sp iova lines =>
            let ok := match Tlr.windowBox r read with
              | none => true
              | some b =>
                let (lo, hi) := Tlr.span r b
                let o : Int := (handleIndex r * 2 ^ 54 : Nat)
                o ≤ lo && hi - o < (64 * lines : Nat)
            if ok then .ok { r := r, host := some (sp, iova, ep.epid) } else .error .RANGE
          | _ => .error .RANGE

/-- The checks of R77 for a side (R265, order 2). -/
def checkSide (s : State) (t : Nat) (e : Engine) (r : Tlr) (remote : Bool) (host : Option EpKind) (read : Bool) :
    Except Cause Side :=
  match host with
  | some k =>
    if spaceOf (Tlr.base r) = 0 then do
      checkBase s t e r false
      hostSide s t r k read
    else do
      checkRecord s t e r remote false read
      .ok { r := r, host := none }
  | none => do
    checkRecord s t e r remote false read
    .ok { r := r, host := none }

/-- The tile's own scratchpad: space 0x8, whose owner has been checked, or 0xA (R264). -/
def isOwn (r : Tlr) : Bool := spaceOf (Tlr.base r) = 8 || spaceOf (Tlr.base r) = 10

/-- The generic address of a place of a record. -/
def elemAddr (r : Tlr) (el : Elem) : Word :=
  match el with
  | .place off _ => Tlr.base r + BitVec.ofInt 64 ((off : Int) - (spaceOffset (Tlr.base r) : Int))
  | _ => Tlr.base r

/-- The IOVA of an element of a host buffer, if its page can be used now (R270). -/
def hostPlace (s : State) (sd : Side) (sp iova : Nat) (epid : BitVec 16) (off : Nat) : Except XStop Nat :=
  let a := iova + (off - handleIndex sd.r * 2 ^ 54)
  if !s.linkUp then .error (.hostLost a epid)
  else if !s.hostReady (sp / 2 ^ 20) then .error .hostBusy
  else if tGet false s.atsCache (atsKey sp a) then .ok a
  else .error (.hostPage sp a epid)

/-- Reads element `k` of a side. -/
def readSide (s : State) (t : Nat) (e : Engine) (sd : Side) (k : Nat) : Except XStop Nat :=
  let bits := elemBits (Tlr.fmt sd.r)
  let el := Tlr.elem sd.r k false
  match sd.host, el with
  | some (sp, iova, epid), .place off nib => do
    let a ← hostPlace s sd sp iova epid off
    let v := (s.host sp).readNat a ((bits + 7) / 8)
    .ok (if bits = 4 then v / (if nib = 1 then 16 else 1) % 16 else v)
  | _, _ => match readElem s t e sd.r bits el with
    | .ok v => .ok v
    | .error m => .error (.mem m (elemAddr sd.r el))

/-- Writes element `k` of a side. -/
def writeSide (s : State) (t : Nat) (e : Engine) (sd : Side) (k v : Nat) (cls : BitVec 4) : Except XStop State :=
  let fmt := Tlr.fmt sd.r
  let bits := elemBits fmt
  let el := Tlr.elem sd.r k true
  match sd.host, el with
  | some (sp, iova, epid), .place off nib => do
    let a ← hostPlace s sd sp iova epid off
    let old := (s.host sp).readNat a 1
    let n := nibbleBits fmt v
    .ok (s.hostWrite sp a (if bits = 4 then
        natBytes 1 (if nib = 1 then old % 16 + 16 * n else old / 16 * 16 + n)
      else natBytes (bits / 8) v))
  | _, _ => match writeElem s t e sd.r bits fmt el v cls with
    | .ok s1 => .ok s1
    | .error m => .error (.mem m (elemAddr sd.r el))

/-- The endpoint, and the IOVA it has come to, of a command in flight on a host buffer (R270). -/
def hostWork (s : State) (t : Nat) (e : Engine) (q : QEntry) : Option (BitVec 16 × Nat) :=
  let s0 := { s with focus := { tile := t, entry := q.id } }
  let place (g : BitVec 4) (kind : EpKind) (read : Bool) : Option (BitVec 16 × Nat) :=
    match cmdDesc s0 t e g with
    | .error _ => none
    | .ok r =>
      if spaceOf (Tlr.base r) ≠ 0 then none
      else match hostSide s0 t r kind read with
        | .error _ => none
        | .ok sd => sd.host.map fun (_, iova, epid) => (epid, match q.prog.page, Tlr.elem r q.prog.count read with
            | some (a, _), _ => a
            | none, .place off _ => iova + (off - handleIndex r * 2 ^ 54)
            | none, _ => iova)
  if q.phase ≠ .running then none
  else match decode q.active with
    | .ok (.ldh _ _ _ gs _ _ _ _ _ _) => place gs .hostIn true
    | .ok (.sth _ _ gd _ _ _ _ _ _ _) => place gd .hostOut false
    | _ => none

/-! ### Earlier accesses (R300, R306) -/

/-- The ordering class of the accesses of a command of L or S. -/
def accessClass (w : IWord) : Option (BitVec 4) :=
  match decode w with
  | .ok (.ldn _ _ _ _ oc _ _ _ _ _) => some oc
  | .ok (.ldr _ _ _ _ oc _ _ _ _ _) => some oc
  | .ok (.ldh _ _ _ _ oc _ _ _ _ _) => some oc
  | .ok (.stn _ _ _ _ oc _ _ _ _ _) => some oc
  | .ok (.strm _ _ _ _ oc _ _ _ _ _) => some oc
  | .ok (.sth _ _ _ _ oc _ _ _ _ _) => some oc
  | .ok (.rcv _ _ _ _ _ oc _ _ _ _ _) => some oc
  | .ok (.snd _ _ _ _ _ oc _ _ _ _ _) => some oc
  | .ok (.gath _ _ _ _ _ _ oc _ _) => some oc
  | .ok (.scat _ _ _ _ _ oc _) => some oc
  | _ => none

/-- The words of an entry: its own, and the body of a nest. -/
def QEntry.words (q : QEntry) : List IWord := q.word :: q.body

/-- The entry has an `rcv` on a HOST-TOKEN port: each word that it takes is an acquire (R272, R304). -/
def tokenRcv (s : State) (t : Nat) (q : QEntry) : Bool :=
  q.words.any fun w => match decode w with
    | .ok (.rcv _ _ _ port _ _ _ _ _ _ _) => s.tokenPort t port.toNat
    | _ => false

/-- An entry holds back later accesses of its engine in a class: it has accesses of that class still to make, a stopped one
among them (R268, R300, R301), or an acquire (R306, R313). -/
def QEntry.holds (s : State) (t : Nat) (cls : BitVec 4) (q : QEntry) : Bool :=
  q.toDo && ((q.words.any fun w => accessClass w = some cls) || tokenRcv s t q)

/-- A note of that class is still to be written by a command before an entry (R267, R300). -/
def Tile.noteOwed (tl : Tile) (e : Engine) (entry : Nat) (cls : BitVec 4) : Bool :=
  e = .S && tl.notes.any fun n => n.entry < entry && n.cls = cls

/-- Earlier commands of the engine hold back the accesses of a class. -/
def State.classHeld (s : State) (t : Nat) (e : Engine) (cls : BitVec 4) : Bool :=
  (s.earlier t e).any (·.holds s t cls) || (s.tile t).noteOwed e s.focus.entry cls

/-- All that an entry has still to do of its class is to write: its reads are done (R268, R300). -/
def QEntry.onlyWrites (q : QEntry) : Bool := q.nest.isNone && !isNest q.word && q.prog.readsDone

/-- Earlier commands hold back the reads of a class: a read does not wait for a stopped write (R268, R300). -/
def State.readHeld (s : State) (t : Nat) (e : Engine) (cls : BitVec 4) : Bool :=
  (s.earlier t e).any fun q => q.holds s t cls && !q.onlyWrites

/-! ### Notes (R267) -/

/-- The checks of R77 orders 1-4 and 6 on a note record, whose window is the one element at BASE (R265, order 3). -/
def checkNote (s : State) (t : Nat) (e : Engine) (r : Tlr) : Except Cause Unit := do
  checkBase s t e r false
  checkPlace s t r false ((spaceOffset (Tlr.base r) + elemBytes (Tlr.fmt r) : Nat) - 1)

/-- The spans of a note. -/
def noteSpan (s : State) (t : Nat) (e : Engine) (r : Tlr) : List Span :=
  let o := spaceOffset (Tlr.base r)
  let n := elemBytes (Tlr.fmt r)
  [{ addr := Tlr.base r, n := n, rd := false, wr := true,
     own := match homeOfOffset s t e (Tlr.base r) o with
       | .scratch u off => if u = t then [(off, off + n)] else []
       | _ => [] }]

/-- Writes a note: FILL under the fill rule, plus a number of words (R267). DESIGN CHOICE (log 12): through a record with
BIM not 0 too, the note lies at BASE itself, the place R267 names, and not where R75 would swizzle BASE's offset to. -/
def writeNote (s : State) (t : Nat) (e : Engine) (r : Tlr) (words : Nat) (cls : BitVec 4) : Except MStop State :=
  let fmt := Tlr.fmt r
  writeElem s t e r (elemBits fmt) fmt (.place (spaceOffset (Tlr.base r)) 0)
    ((fillBits fmt (Tlr.fill r) + words) % 2 ^ elemBits fmt) cls

/-- No update of a write that tile `u` performed before a stamp is unsettled (R358). -/
def settledBefore (s : State) (u stamp : Nat) : Bool :=
  (s.flits.all fun f => f.pubTile ≠ u || stamp ≤ f.flit.stamp) &&
    (s.tile u).batches.all fun (_, b) => b.all fun f => stamp ≤ f.stamp

/-- What a command of R263 and R271 does after its elements. -/
structure Tail where
  rel : Bool
  scope : Nat
  note : Option Tlr
  cls : BitVec 4
  /-- Adds the number of words taken to the note (`rcv`). -/
  count : Bool
  deriving DecidableEq, Repr

/-- A posted store of the command is not acknowledged yet. -/
def State.ownPosted (s : State) (t : Nat) (e : Engine) : Bool :=
  s.posted.any fun p => p.author = .engine t e s.focus.entry

/-- The payload writes of the command in focus are performed at their scope, which for a write to a peer is Y (R267, R315):
`far` is the other tile that it has written to, `stamp` bounds its updates. -/
def State.payloadDone (s : State) (t : Nat) (e : Engine) (far : Option Nat) (stamp : Nat) : Bool :=
  (match far with
   | none => true
   | some u => settledBefore s u stamp) && !s.ownPosted t e

/-- The end of a command: its release, then its note once its payload writes are performed (R267). The note of an S command may
follow its completion: one that has to wait is owed. -/
def finishCommand (s : State) (t : Nat) (e : Engine) (tail : Tail) (far : Option Nat) : Res State := do
  let pr := s.progOf t e
  let s0 := if pr.done then s else
    (s.onProg t e fun p => { p with done := true, stamp := s.stamp }).onTile t fun tl =>
      if e = .S then { tl with sStamp := s.stamp } else tl
  let s1 ← if tail.rel then releaseCmd s0 t e tail.scope else .ok s0
  match tail.note with
  | none => .ok s1
  | some r =>
    let stamp := (s1.progOf t e).stamp
    let held := s1.classHeld t e tail.cls
    if !held && s1.payloadDone t e far stamp then
      liftStop (writeNote s1 t e r (if tail.count then (s1.progOf t e).taken else 0) tail.cls)
    else if e = .S then
      .ok (s1.onTile t fun tl => { tl with notes := tl.notes ++
        [{ entry := s.focus.entry, index := s1.indexOf t e, record := r, cls := tail.cls, far := far, stamp := stamp }] })
    else if held then heldStop s1 t e
    else .error (.wait s1)

/-- A note that a completed S command owes is written, once its payload writes are performed and no earlier access of its class
is still to come; a refusal is a trap at the command's word, which has left its queue (R267, R268, log 12). -/
def oweNote (s : State) (t : Nat) (n : PendingNote) : State :=
  let s0 := s.focused t n.entry
  let held := ((s.tile t).qS.any fun q => q.id < n.entry && q.holds s t n.cls) || (s.tile t).noteOwed .S n.entry n.cls
  if held || !s0.payloadDone t .S n.far n.stamp then s
  else
    let s1 := s0.onTile t fun tl => { tl with notes := tl.notes.erase n }
    match writeNote s1 t .S n.record 0 n.cls with
    | .ok s2 => s2.onTile t fun tl => { tl with sStamp := s2.stamp }
    | .error (.refuse c) => deliverTrap s1 t .S c 0 n.index (some n.entry)
    | .error _ => s

/-! ### Copies (R263-R268) -/

/-- What tells the six copies apart (R262, R264). -/
structure CopyKind where
  eng : Engine
  /-- The far side may be another tile's scratchpad (`ldr`, `strm`), or is a host handle (`ldh`, `sth`). -/
  remote : Bool
  host : Option EpKind
  deriving DecidableEq, Repr

/-- The spaces of the far side (R264). -/
def CopyKind.farOk (k : CopyKind) (sd : Side) : Bool :=
  let sp := spaceOf (Tlr.base sd.r)
  if k.host.isSome then sd.host.isSome
  else if k.remote then sp = 8
  else sp = 0 || sp = 8 || sp = 9 || sp = 10 || sp = 11

/-- The context has no memory-port tile (R286). -/
def State.noPorts (s : State) (t : Nat) : Bool := ((s.ctxOf t).map fun c => decide (c.memPorts = 0)).getD true

/-- A side in space 0x0 that is no host handle. -/
def Side.global (sd : Side) : Bool := sd.host.isNone && spaceOf (Tlr.base sd.r) = 0

/-- The checks on a note record at start, with its span (R265, orders 3 and 4). -/
def planNote (s : State) (t : Nat) (e : Engine) (nt : BitVec 1) (gn : BitVec 4) : Res (Option Tlr × List Span) := do
  if nt = 1 then do
    let r ← cmdDesc s t e gn
    liftCause (checkNote s t e r)
    .ok (some r, noteSpan s t e r)
  else .ok (none, [])

/-- A note's BASE lies in an allowed space (R265, order 4). -/
def noteSpaceOk (n : Option Tlr) : Bool :=
  match n with
  | none => true
  | some r => spaceOf (Tlr.base r) = 8 || spaceOf (Tlr.base r) = 9

/-- The span of a side: none for a host handle, which no watch compares. -/
def sideSpan (s : State) (t : Nat) (e : Engine) (sd : Side) (rd wr : Bool) : List Span :=
  if sd.host.isSome then [] else recSpan s t e sd.r (Tlr.windowBox sd.r rd) rd wr

/-- The checks of a copy at start, in order, its sides, its note and its spans (R265). -/
def copyPlan (s : State) (t : Nat) (k : CopyKind) (gd gs : BitVec 4) (nt : BitVec 1) (gn : BitVec 4) :
    Res (Side × Side × Option Tlr × List Span) := do
  let load := k.eng = .L
  let rd ← cmdDesc s t k.eng gd
  let d ← liftCause (checkSide s t k.eng rd (!load && k.remote) (if load then none else k.host) false)
  let rs ← cmdDesc s t k.eng gs
  let sr ← liftCause (checkSide s t k.eng rs (load && k.remote) (if load then k.host else none) true)
  let (n, ns) ← planNote s t k.eng nt gn
  let (own, far) := if load then (d, sr) else (sr, d)
  check (isOwn own.r && k.farOk far && noteSpaceOk n) .ASPACE
  check (elemBits (Tlr.fmt rd) = elemBits (Tlr.fmt rs)) .RANGE
  check (!((d.global || sr.global) && s.noPorts t)) .RANGE
  .ok (d, sr, n, sideSpan s t k.eng d false true ++ sideSpan s t k.eng sr true false ++ ns)

/-- What the read of element `k` of a side does at its memory port. -/
def viaSide (s : State) (t : Nat) (e : Engine) (sd : Side) (cls : BitVec 4) (k : Nat) : State :=
  match sd.host, Tlr.elem sd.r k false with
  | none, .place off _ => s.viaPort t (homeOfOffset s t e (Tlr.base sd.r) off) ((elemBits (Tlr.fmt sd.r) + 7) / 8) false cls
  | _, _ => s

/-- Element `k` of a copy: bit for bit (R266). One that has been read ahead is not read again (R268). -/
def copyElem (s : State) (t : Nat) (e : Engine) (d sr : Side) (cls : BitVec 4) (k : Nat) : Except XStop State :=
  match (s.progOf t e).ahead with
  | v :: vs => do
    let s1 ← writeSide s t e d k v cls
    .ok (s1.onProg t e fun p => { p with ahead := vs })
  | [] => do
    let v ← readSide s t e sr k
    writeSide (viaSide s t e sr cls k) t e d k v cls

/-- The elements from `k` on, up to the first that cannot be read. -/
def readRun (s : State) (t : Nat) (e : Engine) (sr : Side) (k : Nat) : Nat → List Nat
  | 0 => []
  | n + 1 => match readSide s t e sr k with
    | .ok v => v :: readRun s t e sr (k + 1) n
    | .error _ => []

/-- A stop of S at the write of element `k`, with `n` elements left, holds back no read (R268, R300): the elements that can be
read are read, as a read may be performed before a write that stands before it (log 7). -/
def readAhead (s : State) (t : Nat) (e : Engine) (sr : Side) (k n : Nat) : State :=
  let old := (s.progOf t e).ahead
  let vs := old ++ readRun s t e sr (k + old.length) (n - old.length)
  s.onProg t e fun p => { p with ahead := vs, readsDone := vs.length = n }

/-- Elements `k` onwards, up to the first that stops: the state, the elements done and the stop. -/
def copyFrom (s : State) (t : Nat) (e : Engine) (d sr : Side) (cls : BitVec 4) (k : Nat) :
    Nat → State × Nat × Option XStop
  | 0 => (s, k, none)
  | n + 1 => match copyElem s t e d sr cls k with
    | .ok s1 => copyFrom s1 t e d sr cls (k + 1) n
    | .error x => (s, k, some x)

/-- The tile whose scratchpad a side lies in, if it is not the command's own. -/
def farTile (s : State) (t : Nat) (e : Engine) (sd : Side) : Option Nat :=
  if sd.host.isSome then none
  else match homeOfOffset s t e (Tlr.base sd.r) (spaceOffset (Tlr.base sd.r)) with
    | .scratch u _ => if u = t then none else some u
    | _ => none

/-- A COPY: the checks once, the acquire, the elements, then the end (R265-R268). -/
def copyBody (k : CopyKind) (gd gs oc : BitVec 4) (acq rel : BitVec 1) (scope : BitVec 3) (nt : BitVec 1) (gn : BitVec 4)
    (t : Nat) (s : State) : Res State := do
  let e := k.eng
  let pr := s.progOf t e
  let s0 ← resumePage s t e
  let (d, sr, n, spans) ← copyPlan s0 t k gd gs nt gn
  let s1 ← if pr.begun then .ok s0 else do
    let s1 ← guards s0 t spans
    .ok ((if acq = 1 then acquire s1 t else s1).onProg t e fun p => { p with begun := true })
  let total := min (Tlr.count sr.r) (Tlr.count d.r)
  if pr.count < total && s1.classHeld t e oc then heldStop s1 t e else
  let (s2, m, x) := copyFrom s1 t e d sr oc pr.count (total - pr.count)
  let s3 := s2.onProg t e fun p => { p with count := m }
  match x with
  | some x => stopCommand (if e = .S then readAhead s3 t e sr m (total - m) else s3) t e x
  | none =>
    finishCommand s3 t e { rel := rel = 1, scope := scope.toNat, note := n, cls := oc, count := false }
      (if e = .S then farTile s3 t e d else none)

/-- `ldn` (R262). -/
def ldnKind : CopyKind := { eng := .L, remote := false, host := none }
/-- `ldr` (R262). -/
def ldrKind : CopyKind := { eng := .L, remote := true, host := none }
/-- `ldh` (R262, R270). -/
def ldhKind : CopyKind := { eng := .L, remote := false, host := some .hostIn }
/-- `stn` (R262). -/
def stnKind : CopyKind := { eng := .S, remote := false, host := none }
/-- `strm` (R262). -/
def strmKind : CopyKind := { eng := .S, remote := true, host := none }
/-- `sth` (R262, R270). -/
def sthKind : CopyKind := { eng := .S, remote := false, host := some .hostOut }

/-- `ldn` (R266). -/
def execLdn (_w _gv : BitVec 1) (gd gs oc : BitVec 4) (acq rel : BitVec 1) (scope : BitVec 3) (nt : BitVec 1)
    (gn : BitVec 4) (s : State) : Out := runCmd .L s (copyBody ldnKind gd gs oc acq rel scope nt gn)

/-- `ldr` (R266). -/
def execLdr (_w _gv : BitVec 1) (gd gs oc : BitVec 4) (acq rel : BitVec 1) (scope : BitVec 3) (nt : BitVec 1)
    (gn : BitVec 4) (s : State) : Out := runCmd .L s (copyBody ldrKind gd gs oc acq rel scope nt gn)

/-- `ldh` (R270). -/
def execLdh (_w _gv : BitVec 1) (gd gs oc : BitVec 4) (acq rel : BitVec 1) (scope : BitVec 3) (nt : BitVec 1)
    (gn : BitVec 4) (s : State) : Out := runCmd .L s (copyBody ldhKind gd gs oc acq rel scope nt gn)

/-- `stn` (R266). -/
def execStn (_w _gv : BitVec 1) (gd gs oc : BitVec 4) (acq rel : BitVec 1) (scope : BitVec 3) (nt : BitVec 1)
    (gn : BitVec 4) (s : State) : Out := runCmd .S s (copyBody stnKind gd gs oc acq rel scope nt gn)

/-- `strm` (R266). -/
def execStrm (_w _gv : BitVec 1) (gd gs oc : BitVec 4) (acq rel : BitVec 1) (scope : BitVec 3) (nt : BitVec 1)
    (gn : BitVec 4) (s : State) : Out := runCmd .S s (copyBody strmKind gd gs oc acq rel scope nt gn)

/-- `sth` (R270). -/
def execSth (_w _gv : BitVec 1) (gd gs oc : BitVec 4) (acq rel : BitVec 1) (scope : BitVec 3) (nt : BitVec 1)
    (gn : BitVec 4) (s : State) : Out := runCmd .S s (copyBody sthKind gd gs oc acq rel scope nt gn)

/-! ### Stream ports (R271-R274) -/

/-- The checks of `rcv` and `snd` at start: the record, the note, the spaces (R265, R271). -/
def portPlan (s : State) (t : Nat) (e : Engine) (g : BitVec 4) (read : Bool) (nt : BitVec 1) (gn : BitVec 4) :
    Res (Tlr × Option Tlr × List Span) := do
  let r ← cmdDesc s t e g
  liftCause (checkRecord s t e r false false read)
  let (n, ns) ← planNote s t e nt gn
  check (isOwn r && noteSpaceOk n) .ASPACE
  .ok (r, n, recSpan s t e r (Tlr.windowBox r read) read (!read) ++ ns)

/-- The start of `rcv`, `snd` and `eos`: a configuration error owed by the port, then the guards and the acquire. -/
def beginPort (s : State) (t : Nat) (e : Engine) (port : Nat) (acq : Bool) (spans : List Span) : Res State := do
  if (s.progOf t e).begun then .ok s
  else
    let s1 ← checkPort s t port
    let s2 ← guards s1 t spans
    .ok ((if acq then acquire s2 t else s2).onProg t e fun p => { p with begun := true })

/-- How a loop over stream words ends. -/
inductive PortEnd where
  | more | done | marker
  deriving DecidableEq, Repr

/-- The loop of `rcv` (R272): words are taken while the window has room and the FIFO has words; `fuel` bounds it by the
words that stand in the FIFO. -/
def rcvLoop (s : State) (t : Nat) (r : Tlr) (port : Nat) (eFlag : Bool) (cls : BitVec 4) :
    Nat → Except MStop (State × PortEnd)
  | 0 => .ok (s, if Tlr.count r ≤ (s.progOf t .L).count then .done else .more)
  | fuel + 1 =>
    let k := (s.progOf t .L).count
    if Tlr.count r ≤ k then .ok (s, .done)
    else match (s.tile t).inFifo port with
      | [] => .ok (s, .more)
      | h :: _ =>
        if h.isEos then
          let s1 := s.onTile t fun tl => { tl with lstat := { tl.lstat with eos := tl.lstat.eos ||| (1#4 <<< port) } }
          .ok (if eFlag then meetSinks (takeIn s1 t port) t port else s1, .done)
        else if h.isMarker then .ok (s, .marker)
        else do
          let s1 := if s.tokenPort t port then acquire s t else s
          let s2 ← writeElems (takeIn s1 t port) t .L r cls k (wordElems (Tlr.fmt r) h.data)
          let s3 := s2.onProg t .L fun p =>
            { p with count := k + perWord (Tlr.fmt r), taken := p.taken + 1, words := p.words ++ [h] }
          if h.kind = 1 then .ok (s3, .done) else rcvLoop s3 t r port eFlag cls fuel

/-- An `rcv` that meets a lull marker before its window is full goes back to its queue as unstarted, and the words it
took stand before the marker again (R372). As a replay of a nest it leaves the nest where it stands, to run again from that
replay's first element. -/
def returnRcv (s : State) (t port : Nat) : State :=
  let ws := (s.progOf t .L).words
  (s.onTile t fun tl => { tl with inPorts := tSet [] tl.inPorts port (ws ++ tl.inFifo port) }).onEntry t .L fun q =>
    { q with phase := .queued, prog := .start }

/-- `rcv` (R272). -/
def rcvBody (gd : BitVec 4) (port : BitVec 2) (eFlag : BitVec 1) (oc : BitVec 4) (acq rel : BitVec 1) (scope : BitVec 3)
    (nt : BitVec 1) (gn : BitVec 4) (t : Nat) (s : State) : Res State := do
  let (r, n, spans) ← portPlan s t .L gd false nt gn
  let s1 ← beginPort s t .L port.toNat (acq = 1) spans
  let tail : Tail := { rel := rel = 1, scope := scope.toNat, note := n, cls := oc, count := true }
  if (s1.progOf t .L).done then finishCommand s1 t .L tail none
  else if s1.classHeld t .L oc then heldStop s1 t .L
  else
    let (s2, how) ← liftStop (rcvLoop s1 t r port.toNat (eFlag = 1) oc (((s1.tile t).inFifo port.toNat).length + 1))
    match how with
    | .more => .error (.wait s2)
    | .done => finishCommand s2 t .L tail none
    | .marker => .error (.wait s2)

/-- An `rcv` waits before its window is full, with a marker at the head of its port. -/
def rcvReturns (s : State) (t port : Nat) : Bool :=
  match s.entryOf t .L with
  | none => false
  | some q => q.phase == .running && q.prog.begun && !q.prog.done &&
      (match (s.tile t).inFifo port with
       | h :: _ => h.isMarker
       | [] => false)

/-- `rcv` (R272, R372). -/
def execRcv (_w _gv : BitVec 1) (gd : BitVec 4) (port : BitVec 2) (e : BitVec 1) (oc : BitVec 4) (acq rel : BitVec 1)
    (scope : BitVec 3) (nt : BitVec 1) (gn : BitVec 4) (s : State) : Out :=
  match runCmd .L s (rcvBody gd port e oc acq rel scope nt gn) with
  | .next s1 => .next (if rcvReturns s1 s.here port.toNat then returnRcv s1 s.here port.toNat else s1)
  | o => o

/-- The words of a `snd`: their number, and word `i` with its kind (R273). -/
def sndWord (s : State) (t : Nat) (r : Tlr) (eFlag : Bool) (i : Nat) : Except MStop StreamWord := do
  let d ← windowWord s t .S r i
  .ok { data := d, kind := if eFlag && i + 1 = Tlr.words r then 1 else 0 }

/-- Sends words from word `i` while the FIFO has room; the last flag says that all are sent. -/
def sndLoop (s : State) (t : Nat) (r : Tlr) (port : Nat) (eFlag : Bool) (i : Nat) : Nat → Except MStop (State × Bool)
  | 0 => .ok (s, true)
  | n + 1 =>
    if outRoom s t port then do
      let w ← sndWord s t r eFlag i
      sndLoop ((putOut s t port w).onProg t .S fun p => { p with count := i + 1 }) t r port eFlag (i + 1) n
    else .ok (s, false)

/-- `snd` (R273). -/
def sndBody (gs : BitVec 4) (port : BitVec 2) (eFlag : BitVec 1) (oc : BitVec 4) (acq rel : BitVec 1) (scope : BitVec 3)
    (nt : BitVec 1) (gn : BitVec 4) (t : Nat) (s : State) : Res State := do
  let (r, n, spans) ← portPlan s t .S gs true nt gn
  let s1 ← beginPort s t .S port.toNat (acq = 1) spans
  let tail : Tail := { rel := rel = 1, scope := scope.toNat, note := n, cls := oc, count := false }
  let i := (s1.progOf t .S).count
  if i < Tlr.words r && s1.readHeld t .S oc then heldStop s1 t .S else
  match sndLoop s1 t r port.toNat (eFlag = 1) i (Tlr.words r - i) with
  | .error m => stopCommand s1 t .S (.mem m (Tlr.base r))
  | .ok (s2, false) => .error (.wait s2)
  | .ok (s2, true) => finishCommand s2 t .S tail none

/-- `snd` (R273). -/
def execSnd (_w _gv : BitVec 1) (gs : BitVec 4) (port : BitVec 2) (e : BitVec 1) (oc : BitVec 4) (acq rel : BitVec 1)
    (scope : BitVec 3) (nt : BitVec 1) (gn : BitVec 4) (s : State) : Out :=
  runCmd .S s (sndBody gs port e oc acq rel scope nt gn)

/-- `eos`: one word of kind 2 (R274). -/
def eosBody (port : BitVec 2) (t : Nat) (s : State) : Res State := do
  let s1 ← beginPort s t .S port.toNat false []
  if outRoom s1 t port.toNat then
    .ok ((putOut s1 t port.toNat eosWord).onTile t fun tl =>
      { tl with sstat := { tl.sstat with eos := tl.sstat.eos ||| (1#4 <<< port.toNat) } })
  else .error (.wait s1)

/-- `eos` (R274). -/
def execEos (_w _gv : BitVec 1) (port : BitVec 2) (s : State) : Out := runCmd .S s (eosBody port)

/-! ### Routed gather and scatter (R275-R278) -/

/-- The scope of an SC code of `gath` and `scat`: none, G, K or D (R275). -/
def rmwScope (sc : BitVec 2) : Nat := sc.toNat

/-- A format that a GV or GR record may have: elements of 1, 2, 4 or 8 bytes (R275). -/
def wholeBytes (r : Tlr) : Bool := !isNibble (Tlr.fmt r)

/-- One record of `gath` or `scat`: R77 and an own space. -/
def rmwRecord (s : State) (t : Nat) (e : Engine) (g : BitVec 4) (read : Bool) : Res Tlr := do
  let r ← cmdDesc s t e g
  liftCause (checkRecord s t e r false false read)
  .ok r

/-- The checks at start of `gath` and `scat` (R265 orders 1, 2 and 4, then R275): the operand, index and result records
and the spans. -/
def rmwPlan (s : State) (t : Nat) (e : Engine) (gv : Option (BitVec 4)) (gi : BitVec 4) (gr : Option (BitVec 4)) :
    Res (Option Tlr × Tlr × Option Tlr × List Span) := do
  let v ← match gv with
    | none => .ok none
    | some g => do .ok (some (← rmwRecord s t e g true))
  let i ← rmwRecord s t e gi true
  let r ← match gr with
    | none => .ok none
    | some g => do .ok (some (← rmwRecord s t e g false))
  check ((v.toList ++ [i] ++ r.toList).all isOwn) .ASPACE
  check (Tlr.fmt i = 14) .RANGE
  check (match v, r with
    | some v, some r => elemBits (Tlr.fmt v) = elemBits (Tlr.fmt r)
    | _, _ => true) .RANGE
  check ((v.toList ++ r.toList).all wholeBytes) .RANGE
  let rd (x : Tlr) : List Span := recSpan s t e x (Tlr.windowBox x true) true false
  let wr (x : Tlr) : List Span := recSpan s t e x (Tlr.windowBox x false) false true
  .ok (v, i, r, v.toList.flatMap rd ++ rd i ++ r.toList.flatMap wr)

/-- The home of an index element, with the checks made as its token is sent (R276). -/
def tokenHome (s : State) (t : Nat) (a : Word) (n : Nat) : Except Cause (Nat × Nat) :=
  if spaceOf a ≠ 8 || !canonical a then .error .ASPACE
  else match s.tileOfRel t (ownerOf a) with
    | none => .error .PERM
    | some u =>
      if a.toNat % n ≠ 0 then .error .ALIGN
      else if touchesBand (offsetOf a) n then .error .PERM
      else .ok (u, offsetOf a)

/-- What the tokens of a command share. -/
structure RmwCmd where
  eng : Engine
  value : Option Tlr
  index : Tlr
  size : Nat
  slot : Nat
  cls : BitVec 4
  gather : Bool
  deriving DecidableEq, Repr

/-- Sends the token of element `k` (R276); one for a byte of the tile's own lapsed region is refused with LAPSED (R363). -/
def sendToken (s : State) (t : Nat) (c : RmwCmd) (k : Nat) : Except XStop State := do
  let a ← readSide s t c.eng { r := c.index, host := none } k
  let v ← match c.value with
    | none => .ok 0
    | some r => readSide s t c.eng { r := r, host := none } k
  match tokenHome s t (BitVec.ofNat 64 a) c.size with
  | .error cause => .error (.mem (.refuse cause) (BitVec.ofNat 64 a))
  | .ok (u, off) =>
    if u = t && (s.tile t).subsBad then .error (.mem (.refuse .MEMERR) (BitVec.ofNat 64 a))
    else match (if u = t then lapsedAt (s.tile t) off c.size else none) with
    | some k => .ok (s.onProg t c.eng fun p => { p with tokErr := some (.LAPSED, BitVec.ofNat 14 k) })
    | none =>
    let tok : RmwToken :=
      { src := t, eng := c.eng, entry := s.focus.entry, home := u, offset := off, slot := c.slot, cls := c.cls,
        size := c.size, operand := v, gather := c.gather, elem := k }
    .ok ({ s with tokens := s.tokens ++ [tok] }.onProg t c.eng fun p => { p with tokens := p.tokens + 1 })

/-- Sends the tokens from element `k` on; a refusal ends the sending and is remembered (R268, R276). -/
def sendTokens (s : State) (t : Nat) (c : RmwCmd) (k : Nat) : Nat → State
  | 0 => s
  | n + 1 => match sendToken s t c k with
    | .ok s1 => if (s1.progOf t c.eng).tokErr.isSome then s1 else sendTokens s1 t c (k + 1) n
    | .error (.mem (.refuse cause) a) =>
      (if cause = .MEMERR then s else setFpage s t c.eng a.toNat).onProg t c.eng fun p =>
        { p with tokErr := some (cause, 0) }
    | .error _ => s

/-- Tokens of the command that have not been applied. -/
def tokensOut (s : State) (t : Nat) (e : Engine) : Bool :=
  s.tokens.any fun k => k.src = t && k.eng = e && k.entry = s.focus.entry

/-- What remains once the tokens are sent: all applied, the refusal raised, or the release (R268, R278). -/
def tokensEnd (s : State) (t : Nat) (e : Engine) (rel : Bool) (scope : Nat) : Res State :=
  if tokensOut s t e then .error (.wait s)
  else match (s.progOf t e).tokErr with
    | some (c, info) => .error (.trapIn s c info)
    | none => finishCommand s t e { rel := rel, scope := scope, note := none, cls := 0, count := false } none

/-- Sends the tokens that have still to be sent, once no earlier command holds their class back; then what remains (R276,
R300). -/
def tokensGo (s : State) (t : Nat) (c : RmwCmd) (n : Nat) (rel : Bool) (scope : Nat) : Res State :=
  let pr := s.progOf t c.eng
  if pr.tokErr.isSome || n ≤ pr.tokens then tokensEnd s t c.eng rel scope
  else if s.classHeld t c.eng c.cls then heldStop s t c.eng
  else
    let s1 := sendTokens s t c pr.tokens (n - pr.tokens)
    let p1 := s1.progOf t c.eng
    if p1.tokErr.isSome || n ≤ p1.tokens then tokensEnd s1 t c.eng rel scope else .error (.wait s1)

/-- `gath` (R276, R278). -/
def gathBody (gval gi gr : BitVec 4) (slot : BitVec 2) (oc : BitVec 4) (sc : BitVec 2) (nov : BitVec 1) (t : Nat)
    (s : State) : Res State := do
  let (v, i, r, spans) ← rmwPlan s t .L (if nov = 1 then none else some gval) gi (some gr)
  let n := match v with
    | none => Tlr.count i
    | some v => min (Tlr.count i) (Tlr.count v)
  let s2 ← if (s.progOf t .L).begun then .ok s else do
    let s1 ← guards s t spans
    .ok ((if sc = 0 then s1 else acquire s1 t).onProg t .L fun p => { p with begun := true })
  tokensGo s2 t { eng := .L, value := v, index := i, size := elemBytes (Tlr.fmt (r.getD i)), slot := slot.toNat, cls := oc,
                  gather := true } n false 0

/-- `gath` (R276). -/
def execGath (_w _gv : BitVec 1) (gval gi gr : BitVec 4) (slot : BitVec 2) (oc : BitVec 4) (sc : BitVec 2) (nov : BitVec 1)
    (s : State) : Out := runCmd .L s (gathBody gval gi gr slot oc sc nov)

/-- `scat` (R276, R278). -/
def scatBody (gval gi : BitVec 4) (slot : BitVec 2) (oc : BitVec 4) (sc : BitVec 2) (t : Nat) (s : State) :
    Res State := do
  let (v, i, _, spans) ← rmwPlan s t .S (some gval) gi none
  let w := v.getD i
  let s2 ← if (s.progOf t .S).begun then .ok s else do
    let s1 ← guards s t spans
    .ok (s1.onProg t .S fun p => { p with begun := true })
  tokensGo s2 t { eng := .S, value := v, index := i, size := elemBytes (Tlr.fmt w), slot := slot.toNat, cls := oc,
                  gather := false } (min (Tlr.count i) (Tlr.count w)) (sc ≠ 0) (rmwScope sc)

/-- `scat` (R276). -/
def execScat (_w _gv : BitVec 1) (gval gi : BitVec 4) (slot : BitVec 2) (oc : BitVec 4) (sc : BitVec 2) (s : State) : Out :=
  runCmd .S s (scatBody gval gi slot oc sc)

/-! ### RMW nodes (R277, R278) -/

/-- The RMW node in a slot of a tile's router. -/
def Tile.rmwNode (tl : Tile) (slot : Nat) : Option RouteNode :=
  match tFind tl.routes slot with
  | some n => if n.kind = 1 then some n else none
  | none => none

/-- An f32 sum, rounded once (R277). -/
def rmwAddF (old v : Nat) : Nat := (roundVal 0 0 0 (sumVals [decodeSigned 0 old, decodeSigned 0 v]).1).1

/-- How a node computes in a format: RNE, no clamping (R277). -/
def nodeFmt (fmt : Nat) : LaneFmt := { fmt := fmt, rm := 0, sat := 0 }

/-- The new element under an OP and FMT (R277). -/
def rmwOp (op fmt : Nat) (gather : Bool) (old v : Nat) : Nat :=
  let w := elemBits fmt
  match op with
  | 1 => if fmt = 0 then rmwAddF old v else (old + v) % 2 ^ w
  | 2 => pick (nodeFmt fmt) false old v
  | 3 => pick (nodeFmt fmt) true old v
  | 4 => Nat.land old v
  | 5 => Nat.lor old v
  | 6 => Nat.xor old v
  | 7 => v
  | 8 => Nat.lor old (2 ^ (v % w))
  | _ => if gather then old else v

/-- The operation that a token meets: the node's, or OP 0 at the token's size (R277). -/
def tokenOp (tl : Tile) (k : RmwToken) : Nat × Nat :=
  match tl.rmwNode k.slot with
  | none => (0, 15)
  | some n => if elemBytes (n.bits 40 4) = k.size then (n.bits 32 4, n.bits 40 4) else (0, 15)

/-- No earlier token of the same tile, home and class is unapplied (R278). -/
def tokenFirst (ts : List RmwToken) (i : Nat) : Bool :=
  match ts[i]? with
  | none => false
  | some k => (ts.take i).all fun j => !(j.src = k.src && j.home = k.home && j.cls = k.cls)

/-- A result returns to its `gath`: element `elem` of GR, if its window has it (R276). -/
def gathResult (s : State) (k : RmwToken) (old : Nat) : State :=
  let s0 := s.focused k.src k.entry
  match s0.entryOf k.src k.eng with
  | none => s
  | some q =>
    let w := match q.nest with
      | none => q.word
      | some n => (q.body[n.body]?).getD q.word
    match cmdDesc s0 k.src k.eng (w.extractLsb' 10 4) with
    | .error _ => s
    | .ok r =>
      if Tlr.count r ≤ k.elem then s
      else match writeElem s0 k.src k.eng r (elemBits (Tlr.fmt r)) (Tlr.fmt r) (Tlr.elem r k.elem true) old k.cls with
        | .ok s1 => { s1 with focus := s.focus }
        | .error _ => s

/-- A token that its home refuses: MEMERR on poison, or on an error in the publisher table that its write reads; the command
raises it (R278, R311, R380). -/
def refuseToken (s : State) (k : RmwToken) : State :=
  let s0 := s.focused k.src k.entry
  let s1 := s0.onProg k.src k.eng fun p => { p with tokErr := some (p.tokErr.getD (.MEMERR, 0)) }
  { s1 with focus := s.focus }

/-- APPLYING A TOKEN at its home, indivisibly (R277, R278): a write that clears the zero flag and is forwarded. -/
def applyRmw (s : State) (k : RmwToken) : State :=
  if poisoned (s.tile k.home).poison k.offset k.size 64 || (s.tile k.home).pubsBad then refuseToken s k
  else
    let old := bytesNat ((s.tile k.home).scratch.readBytes k.offset k.size)
    let (op, fmt) := tokenOp (s.tile k.home) k
    let new := rmwOp op fmt k.gather old k.operand
    let s1 := scratchWrite s k.home k.offset (natBytes k.size new) k.cls true false
    if k.gather then gathResult s1 k old else s1

/-- `RMW_TOKEN_APPLY` (R277): the token at place `k` of those under way, if it may go before the others. -/
def execRmwTokenApply (k : Nat) (s : State) : Out :=
  match s.tokens[k]? with
  | none => .next s
  | some tok =>
    if tokenFirst s.tokens k then .next (applyRmw { s with tokens := s.tokens.eraseIdx k } tok) else .next s

/-! ### Prefetch (R279) -/

/-- The addresses of the lines that an interval meets, its ends included; none lies below address 0. -/
def linesOf (lo hi : Int) : List Nat :=
  if hi < 0 then []
  else (List.range (hi.toNat / 128 + 1 - lo.toNat / 128)).map fun i => 128 * (lo.toNat / 128 + i)

/-- Asks the home slice for a line, through the context's port, unless its access would be refused or would fault (R279,
R286). -/
def prefetchLine (s : State) (t va : Nat) : State :=
  match (s.tile t).owner, s.ctxOf t with
  | some n, some c => match c.portOf va with
    | some port => prefetchAt s port n c va
    | none => s
  | _, _ => s

/-- `pfx` (R279): orders 1 and 2 of R77, then ASPACE. -/
def pfxBody (gs : BitVec 4) (t : Nat) (s : State) : Res State := do
  let r ← cmdDesc s t .L gs
  check (Tlr.legal r) .RSVD
  check (canonical (Tlr.base r) && spaceOf (Tlr.base r) = 0) .ASPACE
  match Tlr.windowBox r true with
  | none => .ok s
  | some b =>
    let (lo, hi) := Tlr.span r b
    .ok ((linesOf lo hi).foldl (fun s a => prefetchLine s t a) s)

/-- `pfx` (R279). -/
def execPfx (_w _gv : BitVec 1) (gs : BitVec 4) (s : State) : Out := runCmd .L s (pfxBody gs)

end Sys2Proof.Machine
end

