-- ==== Sys2Proof/Machine/Matrix.lean ====
section
/-! DEFINITION. The matrix pipe: `mma`, `wld`, `wswap`, `scacc`, `accclr`, `accst`, `accld` (09 R216-R232), and the rows of
products that the sparse commands share (10 R256, R260). -/

namespace Sys2Proof.Machine

open Sys2Proof

/-! ### Banks and halves -/

/-- Key of element (i, j) of a bank in the accumulator table; bank 4 is `ap` (R69). -/
def accKey (bank i j : Nat) : Nat := bank * 4096 + i * 64 + j

/-- Element (i, j) of a bank. -/
def accAt (tl : Tile) (bank i j : Nat) : Nat := (tGet 0 tl.acc (accKey bank i j)).toNat

/-- A bank with every element +0. -/
def clearBank (acc : Table (BitVec 32)) (bank : Nat) : Table (BitVec 32) := acc.filter fun (k, _) => k / 4096 ≠ bank

/-- The OPM offset of row `i` of a bank (R69). -/
def opmAcc (bank i : Nat) : Nat := 0x200000 + bank * 16384 + 256 * i

/-- A row of a bank set to 64 values. -/
def setRow (acc : Table (BitVec 32)) (bank i : Nat) (vs : List Nat) : Table (BitVec 32) :=
  (vs.zipIdx).foldl (fun m (v, j) => tSet 0 m (accKey bank i j) (BitVec.ofNat 32 v)) acc

/-- A row of a bank. -/
def rowOfBank (acc : Table (BitVec 32)) (bank i : Nat) : List Nat :=
  (List.range 64).map fun j => (tGet 0 acc (accKey bank i j)).toNat

/-- The line count of the active half, and where the half starts in the latch (R222). -/
def activeLw (tl : Tile) : Nat := if tl.actW then tl.lw1 else tl.lw0
def activeBase (tl : Tile) : Nat := if tl.actW then 16384 else 0

/-! ### Formats and pairings (R218, R219) -/

/-- The A format of AF; none for the reserved code. -/
def aFormat (af : BitVec 2) : Option Nat :=
  match af.toNat with
  | 0 => some 3
  | 1 => some 4
  | 2 => some 1
  | _ => none

/-- The format the latch bytes are read as; WF 3 holds 4-bit weights expanded to e4m3. -/
def wFormat (wf : BitVec 2) : Nat :=
  match wf.toNat with
  | 0 => 3
  | 1 => 4
  | 2 => 1
  | _ => 3

/-- The group size and the K limit of a pairing; none for a reserved one (R219). -/
def pairing (af wf : BitVec 2) : Option (Nat × Nat) :=
  if af.toNat < 2 && wf.toNat < 2 then some (4, 256)
  else if af.toNat < 2 && wf = 3 then some (8, 256)
  else if af = 2 && wf = 2 then some (2, 128)
  else none

/-- Latch lines that a weight row takes. -/
def linesPerRow (wf : BitVec 2) : Nat := if wf = 2 then 2 else 1

/-- Weight (row, j) of the active half (R220, R256). -/
def weightAt (tl : Tile) (wf : BitVec 2) (row j : Nat) : Nat :=
  let b := activeBase tl
  if wf = 2 then (tGet 0 tl.latch (b + 128 * row + 2 * j)).toNat + 256 * (tGet 0 tl.latch (b + 128 * row + 2 * j + 1)).toNat
  else (tGet 0 tl.latch (b + 64 * row + j)).toNat

/-! ### Rows of products (R49, R220, R256, R260) -/

/-- One product of a row: the window index of its A element, and its weight row. -/
structure Product where
  w0 : Int
  w1 : Int
  row : Nat
  deriving DecidableEq, Repr

/-- The coordinates of a window index whose entries may be negative. -/
def Tlr.coordsAt (r : Tlr) (w0 w1 : Int) : List Int :=
  (List.range (Tlr.dims r)).map fun d => Tlr.org r d + (if d = 0 then w0 else if d = 1 then w1 else 0)

/-- How a product command reads its operands. -/
structure ProdCfg where
  af : Nat
  wf : BitVec 2
  group : Nat
  zs : Bool
  deriving DecidableEq, Repr

/-- A list cut into groups of `n`; the last may be short. -/
def chunks {α : Type} (n : Nat) (xs : List α) : List (List α) :=
  (List.range ((xs.length + n - 1) / n)).map fun g => (xs.drop (g * n)).take n

/-- The A element lies inside the tensor and its block's zero flag is set (R260). -/
def zeroFlagged (s : State) (t : Nat) (ga : Tlr) (p : Product) : Bool :=
  let c := Tlr.coordsAt ga p.w0 p.w1
  Tlr.inside ga c && match Tlr.resolveAt ga c false with
    | .place off _ => tGet false (s.tile t).zflags (off / 512)
    | _ => false

/-- A group holds a weight that is an infinity or a NaN under WF; WF 3 holds none (R260). -/
def weightsSpecial (tl : Tile) (c : ProdCfg) (g : List Product) : Bool :=
  c.wf ≠ 3 && g.any fun p => (List.range 64).any fun j =>
    let v := decodeVal (wFormat c.wf) (weightAt tl c.wf p.row j)
    v.isNan || v.isInf

/-- The latch lines of a group hold an uncorrectable error (R380). -/
def weightsBad (tl : Tile) (c : ProdCfg) (g : List Product) : Bool :=
  g.any fun p =>
    let n := 64 * linesPerRow c.wf
    tl.badAt (0x214000 + activeBase tl + n * p.row) n

/-- One group of products is added to a row (R49, R50), or skipped (R260): its weights are then looked at for ZNF, under a WF
that has infinities or NaNs, and are read all the same (R380). -/
def groupRow (s : State) (t : Nat) (ga : Tlr) (c : ProdCfg) (row : List Nat × FpFlags) (g : List Product) :
    Except MStop (List Nat × FpFlags) :=
  let tl := s.tile t
  if c.zs && g.all (zeroFlagged s t ga) then
    if c.wf ≠ 3 && weightsBad tl c g then .error (.refuse .MEMERR)
    else .ok (row.1, row.2 ||| flagIf (weightsSpecial tl c g) flagZNF)
  else do
    let avs ← g.mapM fun p =>
      readElem s t .X ga (elemBits c.af) (Tlr.resolveAt ga (Tlr.coordsAt ga p.w0 p.w1) false)
    if weightsBad tl c g then .error (.refuse .MEMERR)
    else
      let out := row.1.zipIdx.map fun (acc, j) =>
        addGroup acc ((avs.zip g).map fun ((a, p) : Nat × Product) =>
          (decodeVal c.af a, decodeVal (wFormat c.wf) (weightAt tl c.wf p.row j)))
      .ok (out.map (·.1), (out.map (·.2)).foldl (· ||| ·) row.2)

/-- All groups of a row, in order. -/
def groupRows (s : State) (t : Nat) (ga : Tlr) (c : ProdCfg) (row : List Nat × FpFlags) :
    List (List Product) → Except MStop (List Nat × FpFlags)
  | [] => .ok row
  | g :: gs => do
    let r ← groupRow s t ga c row g
    groupRows s t ga c r gs

/-- The working copy of a bank while a product runs. -/
structure Working where
  acc : Table (BitVec 32)
  flags : FpFlags
  deriving DecidableEq, Repr

/-- One output row: its products are added in groups to the working copy (R216). -/
def productRow (s : State) (t bank : Nat) (ga : Tlr) (c : ProdCfg) (fresh : Bool) (w : Working) (i : Nat)
    (ps : List Product) : Except MStop Working :=
  if ps.isEmpty then .ok w
  else if !fresh && (s.tile t).badAt (opmAcc bank i) 256 then .error (.refuse .MEMERR)
  else do
    let (vs, fl) ← groupRows s t ga c (rowOfBank w.acc bank i, w.flags) (chunks c.group ps)
    .ok { acc := setRow w.acc bank i vs, flags := fl }

/-- The rows of a product, in order. -/
def productRows (s : State) (t bank : Nat) (ga : Tlr) (c : ProdCfg) (fresh : Bool) (w : Working) :
    List (Nat × List Product) → Except MStop Working
  | [] => .ok w
  | (i, ps) :: rest => do
    let w1 ← productRow s t bank ga c fresh w i ps
    productRows s t bank ga c fresh w1 rest

/-- RUNNING A PRODUCT: CLR, the rows into a working copy, its commit, the flags (R216, R220, R256). -/
def runProduct (s : State) (t bank : Nat) (ga : Tlr) (c : ProdCfg) (clr : Bool) (rows : List (Nat × List Product)) :
    Res State := do
  let acc0 := (s.tile t).acc
  let w ← liftStop (productRows s t bank ga c clr { acc := if clr then clearBank acc0 bank else acc0, flags := 0 } rows)
  let s1 := s.onTile t fun tl => let tl1 := if clr then tl.clearBad (opmAcc bank 0) 16384 else tl
                                 { tl1 with acc := w.acc }
  .ok (addFlags s1 t w.flags)

/-! ### `mma` (R218-R221) -/

/-- The box of `ga` with an index vector: the window in dimension 0, the whole extent in dimension 1 (R221). -/
def indexedBox (r : Tlr) : Option Box := Tlr.boxOf r true 1 2

/-- The checks of `mma` up to its LW check, its records and spans (R221). -/
def mmaPlan (s : State) (t : Nat) (ga gi : BitVec 4) (acc : BitVec 3) (af wf : BitVec 2) (ix : BitVec 1) :
    Res (Tlr × Option Tlr × List Span) := do
  check (acc.toNat ≤ 4 && (pairing af wf).isSome) .ILLOP
  let a ← cmdDesc s t .X ga
  let box := if ix = 1 then indexedBox a else Tlr.windowBox a true
  liftCause (checkRecordBox s t .X a false false box)
  let sa := recSpan s t .X a box true false
  if ix = 1 then do
    let i ← cmdDesc s t .X gi
    let si ← useRecord s t .X i true
    .ok (a, some i, sa ++ si)
  else .ok (a, none, sa)

/-- Index element `i` (R220). -/
def indexElem (s : State) (t : Nat) (gi : Tlr) (iw : BitVec 1) (i : Nat) : Except MStop Int := do
  let w := if iw = 1 then 32 else 16
  let v ← readElem s t .X gi w (Tlr.elem gi i false)
  .ok (signedOf w (v % 2 ^ w))

/-- The rows of `mma`: the products of row `i` (R220). -/
def mmaRows (s : State) (t : Nat) (k : Nat) (gi : Option Tlr) (iw : BitVec 1) (m : Nat) :
    Except MStop (List (Nat × List Product)) :=
  (List.range m).mapM fun (i : Nat) => do
    let r ← match gi with
      | none => .ok (i : Int)
      | some g => indexElem s t g iw i
    let absent := gi.isSome && r = -1
    .ok (i, if absent then [] else (List.range k).map fun (kk : Nat) => { w0 := kk, w1 := r, row := kk })

/-- `mma` (R220). -/
def mmaBody (ga gi : BitVec 4) (acc : BitVec 3) (af wf : BitVec 2) (ix iw zs clr : BitVec 1) (t : Nat) (s : State) :
    Res State := do
  let (a, i, spans) ← mmaPlan s t ga gi acc af wf ix
  let (g, limit) := (pairing af wf).getD (4, 256)
  let k := Tlr.win a 0
  check (k ≤ limit && k * linesPerRow wf ≤ activeLw (s.tile t)) .RANGE
  let s1 ← guards s t spans
  let m := match i with
    | some r => min 64 (Tlr.count r)
    | none => if 1 ≤ Tlr.rank a then min 64 (Tlr.win a 1) else 1
  let rows ← liftStop (mmaRows s1 t k i iw m)
  runProduct s1 t acc.toNat a { af := (aFormat af).getD 3, wf := wf, group := g, zs := zs == 1 } (clr == 1) rows

/-- `mma` (R220). -/
def execMma (_wl _ws _gl _gs : BitVec 1) (ga gi : BitVec 4) (acc : BitVec 3) (af wf : BitVec 2) (ix iw zs clr : BitVec 1)
    (s : State) : Out := runCmd .X s (mmaBody ga gi acc af wf ix iw zs clr)

/-! ### The weight latch (R222-R227) -/

/-- The format of SF; none for a reserved code (R223). -/
def sFormat (sf : BitVec 3) : Option Nat :=
  match sf.toNat with
  | 0 => some 3
  | 1 => some 4
  | 2 => some 1
  | 3 => some 9
  | 4 => some 10
  | 5 => some 5
  | _ => none

/-- The byte or two that a weight of a source format takes in the latch (R224). -/
def latchBytes (sf v : Nat) : List Byte :=
  if sf = 1 then natBytes 2 v else if isNibble sf then natBytes 1 (expandWeight sf v) else natBytes 1 v

/-- The 64-byte lines of a weight row: one line, or two for bf16 (R224). -/
def rowBytes (sf : Nat) (vs : List Nat) : List Byte :=
  let b := vs.flatMap (latchBytes sf)
  b ++ List.replicate ((if sf = 1 then 128 else 64) - b.length) 0

/-- The inactive half of the latch. -/
def inactiveBase (tl : Tile) : Nat := if tl.actW then 0 else 16384

/-- Starts the write phase: the bytes of the inactive half, and its new LW (R226). -/
def startWrite (s : State) (t sf kw : Nat) (rows : List (List Nat)) : State :=
  let bytes := rows.flatMap (rowBytes sf)
  s.onTile t fun tl =>
    let b := inactiveBase tl
    { tl with wpend := some ((bytes.zipIdx).foldl (fun m (v, i) => tSet 0 m (b + i) v) [], if sf = 1 then 2 * kw else kw) }

/-- The checks of `wld` from a descriptor, its record and span (R224). -/
def wldPlan (s : State) (t : Nat) (gw : BitVec 4) (sf : BitVec 3) : Res (Tlr × List Span) := do
  check (sFormat sf).isSome .ILLOP
  let r ← cmdDesc s t .X gw
  let sp ← useRecord s t .X r true
  let kw := if 1 ≤ Tlr.rank r then Tlr.win r 1 else 1
  check (kw ≤ if sf = 2 then 128 else 256) .RANGE
  .ok (r, sp)

/-- `wld` from a descriptor: its read phase (R224, R226). -/
def wldBody (gw : BitVec 4) (sf : BitVec 3) (t : Nat) (s : State) : Res State := do
  if (s.tile t).wpend.isSome then .error .stall
  else
    let (r, sp) ← wldPlan s t gw sf
    let s1 ← guards s t sp
    let f := (sFormat sf).getD 3
    let kw := if 1 ≤ Tlr.rank r then Tlr.win r 1 else 1
    let rows ← liftStop ((List.range kw).mapM fun (k : Nat) =>
      (List.range (min (Tlr.win r 0) 64)).mapM fun (j : Nat) =>
        readElem s1 t .X r (elemBits f) (Tlr.resolveAt r (Tlr.coordsAt r j k) false))
    .ok (startWrite s1 t f kw rows)

/-- `wld` (R224). -/
def execWld (_wl _ws _gl _gs : BitVec 1) (gw : BitVec 4) (sf : BitVec 3) (s : State) : Out := runCmd .X s (wldBody gw sf)

/-- The words that `wld` takes from a port for its rows (R225). -/
def portWords (sf : Nat) (rows : Nat) : Nat :=
  if sf = 1 then 2 * rows else if isNibble sf then (rows + 1) / 2 else rows

/-- The elements of row `k` among the words that have come; missing words are zero (R225). -/
def portRow (sf : Nat) (ws : List Line) (k : Nat) : List Nat :=
  let word (i : Nat) : Line := (ws[i]?).getD 0
  if sf = 1 then (List.range 32).map (wordElem 1 (word (2 * k))) ++ (List.range 32).map (wordElem 1 (word (2 * k + 1)))
  else if isNibble sf then (List.range 64).map fun j => wordElem sf (word (k / 2)) (k % 2 * 64 + j)
  else (List.range 64).map (wordElem sf (word k))

/-- Takes words from a port until `n` have come; `false` if the port has no more for now. -/
def takeWords (s : State) (t p : Nat) : Nat → State × Bool
  | 0 => (s, true)
  | n + 1 =>
    match (s.tile t).inFifo p with
    | [] => (s, false)
    | h :: _ =>
      if h.isData then
        takeWords ((takeIn s t p).onProg t .X fun pr => { pr with words := pr.words ++ [h] }) t p n
      else (s, true)

/-- `wld` from a port: words are taken until its rows have come, or an EOS or a marker stands at the head (R225). -/
def wldPortBody (port : BitVec 2) (sf : BitVec 3) (km1 : BitVec 8) (t : Nat) (s : State) : Res State := do
  if (s.tile t).wpend.isSome then .error .stall
  else
    check (sFormat sf).isSome .ILLOP
    let f := (sFormat sf).getD 3
    let rows := km1.toNat + 1
    check (rows ≤ if sf = 2 then 128 else 256) .RANGE
    let pr := s.progOf t .X
    let s0 ← if pr.begun then .ok s else checkPort s t port.toNat
    let s1 := s0.onProg t .X fun p => { p with begun := true }
    let (s2, done) := takeWords s1 t port.toNat (portWords f rows - pr.words.length)
    if !done then .error (.wait s2)
    else
      let ws := (s2.progOf t .X).words.map (·.data)
      .ok (startWrite s2 t f rows ((List.range rows).map (portRow f ws)))

/-- `wld` with SRC 1 (R225). -/
def execWldPort (_wl _ws _gl _gs : BitVec 1) (port : BitVec 2) (sf : BitVec 3) (km1 : BitVec 8) (s : State) : Out :=
  runCmd .X s (wldPortBody port sf km1)

/-- `wswap` (R227). -/
def wswapBody (t : Nat) (s : State) : Res State :=
  if (s.tile t).wpend.isSome then .error .stall else .ok (s.onTile t fun tl => { tl with actW := !tl.actW })

/-- `wswap` (R227). -/
def execWswap (_wl _ws _gl _gs : BitVec 1) (s : State) : Out := runCmd .X s wswapBody

/-! ### Scaling and accumulator moves (R228-R232) -/

/-- The checks of `scacc`, its records and spans (R216, R228). -/
def scaccPlan (s : State) (t : Nat) (gsa gsb : BitVec 4) (acc : BitVec 3) : Res (Tlr × Tlr × List Span) := do
  check (acc.toNat ≤ 3) .ILLOP
  let a ← cmdDesc s t .X gsa
  let sa ← useRecord s t .X a true
  let b ← cmdDesc s t .X gsb
  let sb ← useRecord s t .X b true
  .ok (a, b, sa ++ sb)

/-- The 64 scales of a vector; 1.0 where the window has no element (R229). -/
def scales (s : State) (t : Nat) (r : Tlr) (sfmt : BitVec 1) : Except MStop (List FVal) :=
  let f := if sfmt = 1 then 0 else 6
  (List.range 64).mapM fun i =>
    if i < Tlr.count r then do
      let v ← readElem s t .X r (elemBits f) (Tlr.elem r i false)
      .ok (decodeVal f v)
    else .ok (.num false 1 0)

/-- One element of `scacc` (R51). DESIGN CHOICE (log 8): where ap, sa and sb hold a zero, an infinity and a NaN, R51 does
not say whether 0 × Inf is met and counts as invalid; the product is taken as (ap × sa) × sb, so that NV is raised only when
the zero and the infinity are ap and sa. -/
def scaccElem (a p : Nat) (sa sb : FVal) : Flagged :=
  let av := decodeSigned 0 a
  let pv := decodeSigned 0 p
  let (x, bad1) := mulVal pv sa
  let (y, bad2) := mulVal x sb
  let (sum, both) := sumVals [av, y]
  let (b, fl) := roundVal 0 0 0 sum
  (b, fl ||| nvOf (bad1 || bad2 || both) [av, pv, sa, sb])

/-- `scacc` (R229). -/
def scaccBody (gsa gsb : BitVec 4) (acc : BitVec 3) (sfmt clrp : BitVec 1) (t : Nat) (s : State) : Res State := do
  let (ra, rb, sp) ← scaccPlan s t gsa gsb acc
  let bank := acc.toNat
  check (!(s.tile t).badAt (opmAcc bank 0) 16384 && !(s.tile t).badAt (opmAcc 4 0) 16384) .MEMERR
  let s1 ← guards s t sp
  let sa ← liftStop (scales s1 t ra sfmt)
  let sb ← liftStop (scales s1 t rb sfmt)
  let tl := s1.tile t
  let rows := sa.zipIdx.map fun (x, i) => (i, sb.zipIdx.map fun (y, j) => scaccElem (accAt tl bank i j) (accAt tl 4 i j) x y)
  let acc1 := rows.foldl (fun m (i, r) => setRow m bank i (r.map (·.1))) tl.acc
  let fl := rows.foldl (fun f (_, r) => (r.map (·.2)).foldl (· ||| ·) f) 0
  .ok (addFlags (s1.onTile t fun tl => { tl with acc := if clrp = 1 then clearBank acc1 4 else acc1 }) t fl)

/-- `scacc` (R229). -/
def execScacc (_wl _ws _gl _gs : BitVec 1) (gsa gsb : BitVec 4) (acc : BitVec 3) (sfmt clrp : BitVec 1) (s : State) : Out :=
  runCmd .X s (scaccBody gsa gsb acc sfmt clrp)

/-- The banks that MASK selects (R230). -/
def maskBanks (mask : BitVec 5) : List Nat := (List.range 5).filter fun b => mask.getLsbD b

/-- `accclr` (R230). -/
def accclrBody (mask : BitVec 5) (t : Nat) (s : State) : Res State := do
  check (mask ≠ 0) .ILLOP
  .ok (s.onTile t fun tl =>
    let tl1 := (maskBanks mask).foldl (fun tl b => tl.clearBad (opmAcc b 0) 16384) tl
    { tl1 with acc := (maskBanks mask).foldl clearBank tl1.acc })

/-- `accclr` (R230). -/
def execAccclr (_wl _ws _gl _gs : BitVec 1) (mask : BitVec 5) (s : State) : Out := runCmd .X s (accclrBody mask)

/-- The scope of an SC code of `accst` and `accld`: none, K, D or Y (R231). -/
def scScope (sc : BitVec 2) : Nat := if sc = 0 then 0 else sc.toNat + 1

/-- The window places of an accumulator move, in walk order: row and column, below 64 (R217, R232). -/
def movePlaces (r : Tlr) : List (Nat × Nat) :=
  (List.range (min 64 (if 1 ≤ Tlr.rank r then Tlr.win r 1 else 1))).flatMap fun i =>
    (List.range (min 64 (Tlr.win r 0))).map fun j => (i, j)

/-- The checks of `accst` and `accld`, the record and span (R216, R231). -/
def accPlan (s : State) (t : Nat) (gd : BitVec 4) (acc : BitVec 3) (rm : BitVec 3) (sat : BitVec 2) (codes rd : Bool) :
    Res (Tlr × List Span) := do
  check (acc.toNat ≤ 4 && codes && roundingMode rm.toNat && satRule sat.toNat) .ILLOP
  let r ← cmdDesc s t .X gd
  let sp ← useRecord s t .X r rd
  .ok (r, sp)

/-- An f32 accumulator element converted to EFMT; f32 is copied bit for bit (R232). -/
def storeValue (efmt rm sat v : Nat) : Flagged := if efmt = 0 then (v, 0) else convert 0 efmt rm sat v

/-- The elements of `accst` written in walk order, and their flags. -/
def accstElems (s : State) (t : Nat) (r : Tlr) (bank efmt rm sat : Nat) (oc : BitVec 4) (fl : FpFlags) :
    List (Nat × Nat) → Except MStop (State × FpFlags)
  | [] => .ok (s, fl)
  | (i, j) :: rest => do
    let (v, f) := storeValue efmt rm sat (accAt (s.tile t) bank i j)
    let s1 ← writeElem s t .X r (elemBits efmt) efmt (Tlr.resolveAt r (Tlr.coordsAt r j i) true) v oc
    accstElems s1 t r bank efmt rm sat oc (fl ||| f) rest

/-- A bank element that the command stores holds an uncorrectable error (R232, R380). -/
def accstBad (tl : Tile) (r : Tlr) (bank : Nat) (ps : List (Nat × Nat)) : Bool :=
  !tl.badRegs.isEmpty && ps.any fun (i, j) =>
    Tlr.inside r (Tlr.coordsAt r j i) && tl.badAt (opmAcc bank i + 4 * j) 4

/-- The end of `accst`: its release, which at D or Y shows X's writes on every die (R232, R305, R312). -/
def accstEnd (sc : BitVec 2) (t : Nat) (s : State) : Res State :=
  if sc = 0 then .ok s
  else do
    let s1 ← releaseCmd s t .X (scScope sc)
    .ok (showX s1 t (scScope sc))

/-- `accst`: the elements, then the release (R232); the lapsed regions are checked last (R363), and its flags are added as it
completes (R216). -/
def accstBody (gd : BitVec 4) (acc : BitVec 3) (efmt : BitVec 4) (rm : BitVec 3) (sat sc : BitVec 2) (oc : BitVec 4)
    (t : Nat) (s : State) : Res State := do
  let (r, sp) ← accPlan s t gd acc rm sat (efmt ≠ 6 && efmt ≠ 15) false
  let pr := s.progOf t .X
  if pr.done then do
    .ok (addFlags (← accstEnd sc t s) t pr.flags)
  else
    check (!accstBad (s.tile t) r acc.toNat (movePlaces r)) .MEMERR
    let s1 ← guards s t sp
    let (s2, fl) ← liftStop (accstElems s1 t r acc.toNat efmt.toNat rm.toNat sat.toNat oc 0 (movePlaces r))
    .ok (addFlags (← accstEnd sc t (s2.onProg t .X fun p => { p with begun := true, done := true, flags := fl })) t fl)

/-- `accst` (R232). -/
def execAccst (_wl _ws _gl _gs : BitVec 1) (gd : BitVec 4) (acc : BitVec 3) (efmt : BitVec 4) (rm : BitVec 3)
    (sat sc : BitVec 2) (oc : BitVec 4) (s : State) : Out := runCmd .X s (accstBody gd acc efmt rm sat sc oc)

/-- The elements of `accld` read in walk order into the working copy, with their flags. -/
def accldElems (s : State) (t : Nat) (r : Tlr) (bank efmt rm sat : Nat) (w : Working) :
    List (Nat × Nat) → Except MStop Working
  | [] => .ok w
  | (i, j) :: rest => do
    let v ← readElem s t .X r (elemBits efmt) (Tlr.resolveAt r (Tlr.coordsAt r j i) false)
    let (b, f) := convert efmt 0 rm sat v
    accldElems s t r bank efmt rm sat
      { acc := tSet 0 w.acc (accKey bank i j) (BitVec.ofNat 32 b), flags := w.flags ||| f } rest

/-- `accld`: the acquire, then the elements (R232). -/
def accldBody (gd : BitVec 4) (acc : BitVec 3) (efmt : BitVec 4) (rm : BitVec 3) (sat sc : BitVec 2) (_oc : BitVec 4)
    (t : Nat) (s : State) : Res State := do
  let (r, sp) ← accPlan s t gd acc rm sat (efmt ≠ 15) true
  let s1 ← guards s t sp
  let s2 := if sc = 0 then s1 else acquire s1 t
  let w ← liftStop (accldElems s2 t r acc.toNat efmt.toNat rm.toNat sat.toNat { acc := (s2.tile t).acc, flags := 0 }
    (movePlaces r))
  let rows := min 64 (if 1 ≤ Tlr.rank r then Tlr.win r 1 else 1)
  let clear (tl : Tile) : Tile :=
    (List.range rows).foldl (fun tl i => tl.clearBad (opmAcc acc.toNat i) (4 * min 64 (Tlr.win r 0))) tl
  .ok (addFlags (s2.onTile t fun tl => { clear tl with acc := w.acc }) t w.flags)

/-- `accld` (R232). -/
def execAccld (_wl _ws _gl _gs : BitVec 1) (gd : BitVec 4) (acc : BitVec 3) (efmt : BitVec 4) (rm : BitVec 3)
    (sat sc : BitVec 2) (oc : BitVec 4) (s : State) : Out := runCmd .X s (accldBody gd acc efmt rm sat sc oc)

end Sys2Proof.Machine
end

