-- ==== Sys2Proof/Machine/Alu.lean ====
section
/-! DEFINITION. The register-register, address-arithmetic and immediate instructions of C (07 R165-R167). -/

namespace Sys2Proof.Machine

open Sys2Proof

/-- Bits [127:64] of an exact product (R165). -/
def mulHigh (a b : Int) : Word := BitVec.ofInt 64 (a * b / 2 ^ 64)

/-- The signed quotient, truncated; a division by zero gives every bit set, and no trap (R55). -/
def divSigned (a b : Word) : Word := if b = 0 then BitVec.allOnes 64 else a.sdiv b

/-- The unsigned quotient (R55). -/
def divUnsigned (a b : Word) : Word := if b = 0 then BitVec.allOnes 64 else a / b

/-- The signed remainder, with the sign of the dividend; by zero it is the dividend (R55, R165). -/
def remSigned (a b : Word) : Word := if b = 0 then a else a.srem b

/-- The unsigned remainder (R55, R165). -/
def remUnsigned (a b : Word) : Word := if b = 0 then a else a % b

/-- 1 or 0. -/
def flag (b : Bool) : Word := if b then 1 else 0

/-- Leading zero bits; 64 for zero (R165). -/
def leadingZeros (a : Word) : Nat := if a = 0 then 64 else 63 - Nat.log2 a.toNat

/-- Trailing zero bits of a number among its low bits. -/
def trailingFrom : Nat → Nat → Nat
  | 0, _ => 0
  | n + 1, v => if v % 2 = 1 then 0 else 1 + trailingFrom n (v / 2)

/-- Trailing zero bits; 64 for zero (R165). -/
def trailingZeros (a : Word) : Nat := trailingFrom 64 a.toNat

/-- Set bits among the low bits of a number. -/
def popFrom : Nat → Nat → Nat
  | 0, _ => 0
  | n + 1, v => v % 2 + popFrom n (v / 2)

/-- Number of set bits (R165). -/
def popCount (a : Word) : Nat := popFrom 64 a.toNat

/-- The result of `add` (R165). -/
def addBody (d a b : BitVec 5) (t : Nat) (s : State) : Res State :=
  rr d a b (fun va vb => va + vb) t s

/-- `add` (R165). -/
def execAdd (d a b : BitVec 5) (s : State) : Out := runC s (addBody d a b)

/-- The result of `sub` (R165). -/
def subBody (d a b : BitVec 5) (t : Nat) (s : State) : Res State :=
  rr d a b (fun va vb => va - vb) t s

/-- `sub` (R165). -/
def execSub (d a b : BitVec 5) (s : State) : Out := runC s (subBody d a b)

/-- The result of `mul` (R165). -/
def mulBody (d a b : BitVec 5) (t : Nat) (s : State) : Res State :=
  rr d a b (fun va vb => va * vb) t s

/-- `mul` (R165). -/
def execMul (d a b : BitVec 5) (s : State) : Out := runC s (mulBody d a b)

/-- The result of `mulh` (R165). -/
def mulhBody (d a b : BitVec 5) (t : Nat) (s : State) : Res State :=
  rr d a b (fun va vb => mulHigh va.toInt vb.toInt) t s

/-- `mulh` (R165). -/
def execMulh (d a b : BitVec 5) (s : State) : Out := runC s (mulhBody d a b)

/-- The result of `mulhsu` (R165). -/
def mulhsuBody (d a b : BitVec 5) (t : Nat) (s : State) : Res State :=
  rr d a b (fun va vb => mulHigh va.toInt vb.toNat) t s

/-- `mulhsu` (R165). -/
def execMulhsu (d a b : BitVec 5) (s : State) : Out := runC s (mulhsuBody d a b)

/-- The result of `mulhx` (R165). -/
def mulhxBody (d a b : BitVec 5) (t : Nat) (s : State) : Res State :=
  rr d a b (fun va vb => mulHigh va.toNat vb.toNat) t s

/-- `mulhx` (R165). -/
def execMulhx (d a b : BitVec 5) (s : State) : Out := runC s (mulhxBody d a b)

/-- The result of `div` (R165, R55). -/
def divBody (d a b : BitVec 5) (t : Nat) (s : State) : Res State :=
  rr d a b (fun va vb => divSigned va vb) t s

/-- `div` (R165, R55). -/
def execDiv (d a b : BitVec 5) (s : State) : Out := runC s (divBody d a b)

/-- The result of `divx` (R165, R55). -/
def divxBody (d a b : BitVec 5) (t : Nat) (s : State) : Res State :=
  rr d a b (fun va vb => divUnsigned va vb) t s

/-- `divx` (R165, R55). -/
def execDivx (d a b : BitVec 5) (s : State) : Out := runC s (divxBody d a b)

/-- The result of `rem` (R165, R55). -/
def remBody (d a b : BitVec 5) (t : Nat) (s : State) : Res State :=
  rr d a b (fun va vb => remSigned va vb) t s

/-- `rem` (R165, R55). -/
def execRem (d a b : BitVec 5) (s : State) : Out := runC s (remBody d a b)

/-- The result of `remx` (R165, R55). -/
def remxBody (d a b : BitVec 5) (t : Nat) (s : State) : Res State :=
  rr d a b (fun va vb => remUnsigned va vb) t s

/-- `remx` (R165, R55). -/
def execRemx (d a b : BitVec 5) (s : State) : Out := runC s (remxBody d a b)

/-- The result of `and` (R165). -/
def andBody (d a b : BitVec 5) (t : Nat) (s : State) : Res State :=
  rr d a b (fun va vb => va &&& vb) t s

/-- `and` (R165). -/
def execAnd (d a b : BitVec 5) (s : State) : Out := runC s (andBody d a b)

/-- The result of `or` (R165). -/
def orBody (d a b : BitVec 5) (t : Nat) (s : State) : Res State :=
  rr d a b (fun va vb => va ||| vb) t s

/-- `or` (R165). -/
def execOr (d a b : BitVec 5) (s : State) : Out := runC s (orBody d a b)

/-- The result of `xor` (R165). -/
def xorBody (d a b : BitVec 5) (t : Nat) (s : State) : Res State :=
  rr d a b (fun va vb => va ^^^ vb) t s

/-- `xor` (R165). -/
def execXor (d a b : BitVec 5) (s : State) : Out := runC s (xorBody d a b)

/-- The result of `andn` (R165). -/
def andnBody (d a b : BitVec 5) (t : Nat) (s : State) : Res State :=
  rr d a b (fun va vb => va &&& ~~~vb) t s

/-- `andn` (R165). -/
def execAndn (d a b : BitVec 5) (s : State) : Out := runC s (andnBody d a b)

/-- The result of `orn` (R165). -/
def ornBody (d a b : BitVec 5) (t : Nat) (s : State) : Res State :=
  rr d a b (fun va vb => va ||| ~~~vb) t s

/-- `orn` (R165). -/
def execOrn (d a b : BitVec 5) (s : State) : Out := runC s (ornBody d a b)

/-- The result of `sll` (R165). -/
def sllBody (d a b : BitVec 5) (t : Nat) (s : State) : Res State :=
  rr d a b (fun va vb => va <<< (vb.toNat % 64)) t s

/-- `sll` (R165). -/
def execSll (d a b : BitVec 5) (s : State) : Out := runC s (sllBody d a b)

/-- The result of `srl` (R165). -/
def srlBody (d a b : BitVec 5) (t : Nat) (s : State) : Res State :=
  rr d a b (fun va vb => va >>> (vb.toNat % 64)) t s

/-- `srl` (R165). -/
def execSrl (d a b : BitVec 5) (s : State) : Out := runC s (srlBody d a b)

/-- The result of `sra` (R165). -/
def sraBody (d a b : BitVec 5) (t : Nat) (s : State) : Res State :=
  rr d a b (fun va vb => va.sshiftRight (vb.toNat % 64)) t s

/-- `sra` (R165). -/
def execSra (d a b : BitVec 5) (s : State) : Out := runC s (sraBody d a b)

/-- The result of `rol` (R165). -/
def rolBody (d a b : BitVec 5) (t : Nat) (s : State) : Res State :=
  rr d a b (fun va vb => va.rotateLeft (vb.toNat % 64)) t s

/-- `rol` (R165). -/
def execRol (d a b : BitVec 5) (s : State) : Out := runC s (rolBody d a b)

/-- The result of `ror` (R165). -/
def rorBody (d a b : BitVec 5) (t : Nat) (s : State) : Res State :=
  rr d a b (fun va vb => va.rotateRight (vb.toNat % 64)) t s

/-- `ror` (R165). -/
def execRor (d a b : BitVec 5) (s : State) : Out := runC s (rorBody d a b)

/-- The result of `min` (R165). -/
def minBody (d a b : BitVec 5) (t : Nat) (s : State) : Res State :=
  rr d a b (fun va vb => if va.slt vb then va else vb) t s

/-- `min` (R165). -/
def execMin (d a b : BitVec 5) (s : State) : Out := runC s (minBody d a b)

/-- The result of `max` (R165). -/
def maxBody (d a b : BitVec 5) (t : Nat) (s : State) : Res State :=
  rr d a b (fun va vb => if va.slt vb then vb else va) t s

/-- `max` (R165). -/
def execMax (d a b : BitVec 5) (s : State) : Out := runC s (maxBody d a b)

/-- The result of `minx` (R165). -/
def minxBody (d a b : BitVec 5) (t : Nat) (s : State) : Res State :=
  rr d a b (fun va vb => if va < vb then va else vb) t s

/-- `minx` (R165). -/
def execMinx (d a b : BitVec 5) (s : State) : Out := runC s (minxBody d a b)

/-- The result of `maxx` (R165). -/
def maxxBody (d a b : BitVec 5) (t : Nat) (s : State) : Res State :=
  rr d a b (fun va vb => if va < vb then vb else va) t s

/-- `maxx` (R165). -/
def execMaxx (d a b : BitVec 5) (s : State) : Out := runC s (maxxBody d a b)

/-- The result of `slt` (R165). -/
def sltBody (d a b : BitVec 5) (t : Nat) (s : State) : Res State :=
  rr d a b (fun va vb => flag (va.slt vb)) t s

/-- `slt` (R165). -/
def execSlt (d a b : BitVec 5) (s : State) : Out := runC s (sltBody d a b)

/-- The result of `sltx` (R165). -/
def sltxBody (d a b : BitVec 5) (t : Nat) (s : State) : Res State :=
  rr d a b (fun va vb => flag (decide (va < vb))) t s

/-- `sltx` (R165). -/
def execSltx (d a b : BitVec 5) (s : State) : Out := runC s (sltxBody d a b)

/-- The result of `seq` (R165). -/
def seqBody (d a b : BitVec 5) (t : Nat) (s : State) : Res State :=
  rr d a b (fun va vb => flag (va == vb)) t s

/-- `seq` (R165). -/
def execSeq (d a b : BitVec 5) (s : State) : Out := runC s (seqBody d a b)

/-- The result of `sne` (R165). -/
def sneBody (d a b : BitVec 5) (t : Nat) (s : State) : Res State :=
  rr d a b (fun va vb => flag (va != vb)) t s

/-- `sne` (R165). -/
def execSne (d a b : BitVec 5) (s : State) : Out := runC s (sneBody d a b)

/-- The result of `clz` (R165). -/
def clzBody (d a : BitVec 5) (t : Nat) (s : State) : Res State :=
  r1 d a (fun va => BitVec.ofNat 64 (leadingZeros va)) t s

/-- `clz` (R165). -/
def execClz (d a : BitVec 5) (s : State) : Out := runC s (clzBody d a)

/-- The result of `ctz` (R165). -/
def ctzBody (d a : BitVec 5) (t : Nat) (s : State) : Res State :=
  r1 d a (fun va => BitVec.ofNat 64 (trailingZeros va)) t s

/-- `ctz` (R165). -/
def execCtz (d a : BitVec 5) (s : State) : Out := runC s (ctzBody d a)

/-- The result of `popc` (R165). -/
def popcBody (d a : BitVec 5) (t : Nat) (s : State) : Res State :=
  r1 d a (fun va => BitVec.ofNat 64 (popCount va)) t s

/-- `popc` (R165). -/
def execPopc (d a : BitVec 5) (s : State) : Out := runC s (popcBody d a)

/-- The result of `sextB` (R165). -/
def sextBBody (d a : BitVec 5) (t : Nat) (s : State) : Res State :=
  r1 d a (fun va => (va.setWidth 8).signExtend 64) t s

/-- `sextB` (R165). -/
def execSextB (d a : BitVec 5) (s : State) : Out := runC s (sextBBody d a)

/-- The result of `sextH` (R165). -/
def sextHBody (d a : BitVec 5) (t : Nat) (s : State) : Res State :=
  r1 d a (fun va => (va.setWidth 16).signExtend 64) t s

/-- `sextH` (R165). -/
def execSextH (d a : BitVec 5) (s : State) : Out := runC s (sextHBody d a)

/-- The result of `sextW` (R165). -/
def sextWBody (d a : BitVec 5) (t : Nat) (s : State) : Res State :=
  r1 d a (fun va => (va.setWidth 32).signExtend 64) t s

/-- `sextW` (R165). -/
def execSextW (d a : BitVec 5) (s : State) : Out := runC s (sextWBody d a)

/-- The result of `zextB` (R165). -/
def zextBBody (d a : BitVec 5) (t : Nat) (s : State) : Res State :=
  r1 d a (fun va => (va.setWidth 8).setWidth 64) t s

/-- `zextB` (R165). -/
def execZextB (d a : BitVec 5) (s : State) : Out := runC s (zextBBody d a)

/-- The result of `zextH` (R165). -/
def zextHBody (d a : BitVec 5) (t : Nat) (s : State) : Res State :=
  r1 d a (fun va => (va.setWidth 16).setWidth 64) t s

/-- `zextH` (R165). -/
def execZextH (d a : BitVec 5) (s : State) : Out := runC s (zextHBody d a)

/-- The result of `zextW` (R165). -/
def zextWBody (d a : BitVec 5) (t : Nat) (s : State) : Res State :=
  r1 d a (fun va => (va.setWidth 32).setWidth 64) t s

/-- `zextW` (R165). -/
def execZextW (d a : BitVec 5) (s : State) : Out := runC s (zextWBody d a)

/-- The result of `addi` (R167). -/
def addiBody (d a : BitVec 5) (imm : BitVec 14) (t : Nat) (s : State) : Res State :=
  r1 d a (fun va => va + imm.signExtend 64) t s

/-- `addi` (R167). -/
def execAddi (d a : BitVec 5) (imm : BitVec 14) (s : State) : Out := runC s (addiBody d a imm)

/-- The result of `andi` (R167). -/
def andiBody (d a : BitVec 5) (imm : BitVec 14) (t : Nat) (s : State) : Res State :=
  r1 d a (fun va => va &&& imm.signExtend 64) t s

/-- `andi` (R167). -/
def execAndi (d a : BitVec 5) (imm : BitVec 14) (s : State) : Out := runC s (andiBody d a imm)

/-- The result of `ori` (R167). -/
def oriBody (d a : BitVec 5) (imm : BitVec 14) (t : Nat) (s : State) : Res State :=
  r1 d a (fun va => va ||| imm.signExtend 64) t s

/-- `ori` (R167). -/
def execOri (d a : BitVec 5) (imm : BitVec 14) (s : State) : Out := runC s (oriBody d a imm)

/-- The result of `xori` (R167). -/
def xoriBody (d a : BitVec 5) (imm : BitVec 14) (t : Nat) (s : State) : Res State :=
  r1 d a (fun va => va ^^^ imm.signExtend 64) t s

/-- `xori` (R167). -/
def execXori (d a : BitVec 5) (imm : BitVec 14) (s : State) : Out := runC s (xoriBody d a imm)

/-- The result of `slti` (R167). -/
def sltiBody (d a : BitVec 5) (imm : BitVec 14) (t : Nat) (s : State) : Res State :=
  r1 d a (fun va => flag (va.slt (imm.signExtend 64))) t s

/-- `slti` (R167). -/
def execSlti (d a : BitVec 5) (imm : BitVec 14) (s : State) : Out := runC s (sltiBody d a imm)

/-- The result of `sltxi` (R167). -/
def sltxiBody (d a : BitVec 5) (imm : BitVec 14) (t : Nat) (s : State) : Res State :=
  r1 d a (fun va => flag (decide (va < imm.signExtend 64))) t s

/-- `sltxi` (R167). -/
def execSltxi (d a : BitVec 5) (imm : BitVec 14) (s : State) : Out := runC s (sltxiBody d a imm)

/-- The result of `slli` (R167). -/
def slliBody (d a : BitVec 5) (sh : BitVec 6) (t : Nat) (s : State) : Res State :=
  r1 d a (fun va => va <<< sh.toNat) t s

/-- `slli` (R167). -/
def execSlli (d a : BitVec 5) (sh : BitVec 6) (s : State) : Out := runC s (slliBody d a sh)

/-- The result of `srli` (R167). -/
def srliBody (d a : BitVec 5) (sh : BitVec 6) (t : Nat) (s : State) : Res State :=
  r1 d a (fun va => va >>> sh.toNat) t s

/-- `srli` (R167). -/
def execSrli (d a : BitVec 5) (sh : BitVec 6) (s : State) : Out := runC s (srliBody d a sh)

/-- The result of `srai` (R167). -/
def sraiBody (d a : BitVec 5) (sh : BitVec 6) (t : Nat) (s : State) : Res State :=
  r1 d a (fun va => va.sshiftRight sh.toNat) t s

/-- `srai` (R167). -/
def execSrai (d a : BitVec 5) (sh : BitVec 6) (s : State) : Out := runC s (sraiBody d a sh)

/-- The result of `sel`: the old rd is read as the third source (R165). -/
def selBody (d a b : BitVec 5) (t : Nat) (s : State) : Res State :=
  rrd d a b (fun va vb vd => if vd = 0 then vb else va) t s

/-- `sel` (R165). -/
def execSel (d a b : BitVec 5) (s : State) : Out := runC s (selBody d a b)

/-- The result of `lea`: a plain shifted add (R166). -/
def leaBody (d a b : BitVec 5) (sh : BitVec 3) (t : Nat) (s : State) : Res State :=
  rr d a b (fun va vb => va + vb <<< sh.toNat) t s

/-- `lea` (R166). -/
def execLea (d a b : BitVec 5) (sh : BitVec 3) (s : State) : Out := runC s (leaBody d a b sh)

/-- The result of `madd` (R166). -/
def maddBody (d a b : BitVec 5) (t : Nat) (s : State) : Res State :=
  rrd d a b (fun va vb vd => vd + va * vb) t s

/-- `madd` (R166). -/
def execMadd (d a b : BitVec 5) (s : State) : Out := runC s (maddBody d a b)

/-- The position of the field that a register describes: bits [5:0] (R166). -/
def fieldPos (v : Word) : Nat := v.toNat % 64

/-- The width of that field: bits [11:6] plus one, cut at bit 63 (R166). -/
def fieldWidth (v : Word) : Nat :=
  let w := v.toNat / 64 % 64 + 1
  if fieldPos v + w > 64 then 64 - fieldPos v else w

/-- The field of `va` that `vb` describes, at bit 0 (R166). -/
def extractField (va vb : Word) : Word := BitVec.ofNat 64 (va.toNat / 2 ^ fieldPos vb % 2 ^ fieldWidth vb)

/-- `vd` with the field that `vb` describes replaced by the low bits of `va` (R166). -/
def insertField (va vb vd : Word) : Word :=
  let m := BitVec.ofNat 64 ((2 ^ fieldWidth vb - 1) * 2 ^ fieldPos vb)
  (vd &&& ~~~m) ||| ((va <<< fieldPos vb) &&& m)

/-- The result of `bfe` (R166). -/
def bfeBody (d a b : BitVec 5) (t : Nat) (s : State) : Res State := rr d a b extractField t s

/-- `bfe` (R166). -/
def execBfe (d a b : BitVec 5) (s : State) : Out := runC s (bfeBody d a b)

/-- The result of `bfi` (R166). -/
def bfiBody (d a b : BitVec 5) (t : Nat) (s : State) : Res State := rrd d a b insertField t s

/-- `bfi` (R166). -/
def execBfi (d a b : BitVec 5) (s : State) : Out := runC s (bfiBody d a b)

/-- The result of `lui` (R167). -/
def luiBody (d : BitVec 5) (imm : BitVec 19) (t : Nat) (s : State) : Res State :=
  r0 d (fun _ => (imm.signExtend 64) <<< 14) t s

/-- `lui` (R167). -/
def execLui (d : BitVec 5) (imm : BitVec 19) (s : State) : Out := runC s (luiBody d imm)

/-- The result of `auipc`: the word index of this instruction plus the immediate (R167). `k` is what a `rep` adds:
the prefixed word stands one after the prefix. -/
def auipcBody (k : Nat) (d : BitVec 5) (imm : BitVec 19) (t : Nat) (s : State) : Res State :=
  r0 d (fun tl => BitVec.ofNat 64 (tl.cntC.pc + k) + imm.signExtend 64) t s

/-- `auipc` (R167). -/
def execAuipc (d : BitVec 5) (imm : BitVec 19) (s : State) : Out := runC s (auipcBody 0 d imm)

end Sys2Proof.Machine
end

