-- ==== Sys2Proof/Machine/Rep.lean ====
section
/-! DEFINITION. Breakpoints (15 R375, R377), and the repeat prefix (07 R183-R185), which executes the word after it. -/

namespace Sys2Proof.Machine

open Sys2Proof

/-! ### Breakpoints (R375) -/

/-- The breakpoint register that hits a word, if one does. -/
def breakpointOf (tl : Tile) (e : Engine) (index : Nat) : Option Nat :=
  if tl.inHandler then none
  else (List.range 4).find? fun k =>
    let b := tGet 0 tl.bkpt k
    b.getLsbD 63 && (b.extractLsb' 14 2).toNat = engCode e && (b.extractLsb' 0 14).toNat = index

/-- SKIP lets one hit pass (R377). -/
def Tile.clearSkip (tl : Tile) : Tile := { tl with dbgCtl := tl.dbgCtl &&& 5#3 }

/-! ### The repeat prefix -/

/-- The body of an instruction that a `rep` may prefix: OP6 0x00-0x27 and 0x3C (R183). `k` is what SA steps the
effective address by, in access sizes. -/
def repBodyOf (k : Nat) : Instr → Option (Nat → State → Res State)
  | .add d a b => some (addBody d a b)
  | .sub d a b => some (subBody d a b)
  | .mul d a b => some (mulBody d a b)
  | .mulh d a b => some (mulhBody d a b)
  | .mulhsu d a b => some (mulhsuBody d a b)
  | .mulhx d a b => some (mulhxBody d a b)
  | .div d a b => some (divBody d a b)
  | .divx d a b => some (divxBody d a b)
  | .rem d a b => some (remBody d a b)
  | .remx d a b => some (remxBody d a b)
  | .and d a b => some (andBody d a b)
  | .or d a b => some (orBody d a b)
  | .xor d a b => some (xorBody d a b)
  | .andn d a b => some (andnBody d a b)
  | .orn d a b => some (ornBody d a b)
  | .sll d a b => some (sllBody d a b)
  | .srl d a b => some (srlBody d a b)
  | .sra d a b => some (sraBody d a b)
  | .rol d a b => some (rolBody d a b)
  | .ror d a b => some (rorBody d a b)
  | .min d a b => some (minBody d a b)
  | .max d a b => some (maxBody d a b)
  | .minx d a b => some (minxBody d a b)
  | .maxx d a b => some (maxxBody d a b)
  | .slt d a b => some (sltBody d a b)
  | .sltx d a b => some (sltxBody d a b)
  | .seq d a b => some (seqBody d a b)
  | .sne d a b => some (sneBody d a b)
  | .clz d a => some (clzBody d a)
  | .ctz d a => some (ctzBody d a)
  | .popc d a => some (popcBody d a)
  | .sextB d a => some (sextBBody d a)
  | .sextH d a => some (sextHBody d a)
  | .sextW d a => some (sextWBody d a)
  | .zextB d a => some (zextBBody d a)
  | .zextH d a => some (zextHBody d a)
  | .zextW d a => some (zextWBody d a)
  | .addi d a imm => some (addiBody d a imm)
  | .andi d a imm => some (andiBody d a imm)
  | .ori d a imm => some (oriBody d a imm)
  | .xori d a imm => some (xoriBody d a imm)
  | .slti d a imm => some (sltiBody d a imm)
  | .sltxi d a imm => some (sltxiBody d a imm)
  | .slli d a sh => some (slliBody d a sh)
  | .srli d a sh => some (srliBody d a sh)
  | .srai d a sh => some (sraiBody d a sh)
  | .sel d a b => some (selBody d a b)
  | .lea d a b sh => some (leaBody d a b sh)
  | .madd d a b => some (maddBody d a b)
  | .bfe d a b => some (bfeBody d a b)
  | .bfi d a b => some (bfiBody d a b)
  | .lui d imm => some (luiBody d imm)
  | .auipc d imm => some (auipcBody 1 d imm)
  | .ld d a oc ar scope size disp => some (ldBody d a oc ar scope size disp k)
  | .ldz d a oc ar scope size disp => some (ldzBody d a oc ar scope size disp k)
  | .st d a oc ar scope size disp => some (stBody d a oc ar scope size disp k)
  | .spt d a => some (sptBody d a)
  | .spc d a sp => some (spcBody d a sp)
  | .mkpLocal d a b => some (mkpLocalBody d a b)
  | .mkpShared d a b => some (mkpSharedBody d a b)
  | .mkpOpm d a b => some (mkpOpmBody d a b)
  | _ => none

/-- The instruction has an rs2 register field (format RR). -/
def hasRs2 : Instr → Bool
  | .add _ _ _ | .sub _ _ _ | .mul _ _ _ | .mulh _ _ _ | .mulhsu _ _ _ | .mulhx _ _ _ | .div _ _ _ | .divx _ _ _
  | .rem _ _ _ | .remx _ _ _ | .and _ _ _ | .or _ _ _ | .xor _ _ _ | .andn _ _ _ | .orn _ _ _ | .sll _ _ _
  | .srl _ _ _ | .sra _ _ _ | .rol _ _ _ | .ror _ _ _ | .min _ _ _ | .max _ _ _ | .minx _ _ _ | .maxx _ _ _
  | .slt _ _ _ | .sltx _ _ _ | .seq _ _ _ | .sne _ _ _ | .sel _ _ _ | .lea _ _ _ _ | .madd _ _ _ | .bfe _ _ _
  | .bfi _ _ _ | .mkpLocal _ _ _ | .mkpShared _ _ _ | .mkpOpm _ _ _ => true
  | _ => false

/-- The instruction has an rs1 field: every format but U. -/
def hasRs1 : Instr → Bool
  | .lui _ _ | .auipc _ _ => false
  | _ => true

/-- The instruction is of format M. -/
def hasEa : Instr → Bool
  | .ld _ _ _ _ _ _ _ | .ldz _ _ _ _ _ _ _ | .st _ _ _ _ _ _ _ => true
  | _ => false

/-- A 5-bit register field of a word. -/
def regField (w : IWord) (lo : Nat) : Nat := w.toNat / 2 ^ lo % 32

/-- A stepped field holds no link operand, and no repetition steps it past `x27` (R183). -/
def stepOk (step : BitVec 1) (w : IWord) (lo cnt : Nat) : Bool :=
  step = 0 || (regField w lo < 28 && regField w lo + cnt ≤ 27)

/-- The ILLOP checks of R183 on the prefixed word, but for its decoding. -/
def repOk (i : Instr) (w : IWord) (sa s2 s1 sd : BitVec 1) (cnt : Nat) : Bool :=
  (s2 = 0 || hasRs2 i) && (s1 = 0 || hasRs1 i) && (sa = 0 || hasEa i)
    && stepOk sd w 19 cnt && stepOk s1 w 14 cnt && stepOk s2 w 9 cnt

/-- The prefixed word as repetition `k` runs it. -/
def stepWord (w : IWord) (s2 s1 sd : BitVec 1) (k : Nat) : IWord :=
  w + BitVec.ofNat 32 ((if sd = 1 then k * 2 ^ 19 else 0) + (if s1 = 1 then k * 2 ^ 14 else 0)
    + (if s2 = 1 then k * 2 ^ 9 else 0))

/-- The word after the prefix; none at the end of the text. -/
def prefixedWord (tl : Tile) : Option IWord :=
  if tl.cntC.pc + 1 < tl.nwords then some (tGet 0 tl.istore (tl.cntC.pc + 1)) else none

/-- The body of repetition `k`, or ILLOP (R183). -/
def repetition (tl : Tile) (sa s2 s1 sd : BitVec 1) (cnt k : Nat) : Option (Nat → State → Res State) :=
  match prefixedWord tl with
  | none => none
  | some w => match decode w with
    | .error _ => none
    | .ok i =>
      if (repBodyOf 0 i).isNone || !repOk i w sa s2 s1 sd cnt then none
      else match decode (stepWord w s2 s1 sd k) with
        | .error _ => none
        | .ok j => repBodyOf (if sa = 1 then k else 0) j

/-- After repetition `k`: the next one, or the word after the prefixed one (R184). -/
def afterRepetition (s : State) (t pc cnt k : Nat) : State :=
  if k < cnt then
    deliverPending (s.onTile t fun tl =>
      { tl with repIdx := BitVec.ofNat 6 (k + 1), cwait := none, relSince := none, repOn := true, cntC := { tl.cntC with st := .running } }) t
  else retireTo (s.onTile t fun tl => { tl with repIdx := 0 }) t (pc + 2)

/-- One repetition of the prefixed word (R184). -/
def runRepetition (body : Nat → State → Res State) (pc cnt k t : Nat) (s : State) : Out :=
  match body t s with
  | .ok s' => .next (afterRepetition s' t pc cnt k)
  | .error (.trap c info) => .next (deliverTrap s t .C c info pc)
  | .error (.trapIn s' c info) => .next (deliverTrap s' t .C c info pc)
  | .error .stall => .next (waitC s t)
  | .error (.page va) => .next (pageWait s t va)
  | .error (.wait s') | .error (.back s') => .next (waitC s' t)

/-- `rep` (R183, R184): one repetition, with its number in `REPIDX`. C would execute the prefixed word once the checks of R183
and the RANGE check have passed: a breakpoint on it hits there, at a repetition that C has not begun, and is a trap in that
repetition, so that TRAPPC is the index of the `rep` (R184, R375, log 13). -/
def execRep (sa s2 s1 sd : BitVec 1) (cnt : BitVec 6) (s : State) : Out :=
  let t := s.here
  let tl := s.tile t
  let pc := tl.cntC.pc
  let k := tl.repIdx.toNat
  match repetition tl sa s2 s1 sd cnt.toNat (min k cnt.toNat) with
  | none => .next (deliverTrap s t .C .ILLOP 0 pc)
  | some body =>
    if tl.badAt (opmCsr 0x00B) 8 then .next (deliverTrap s t .C .MEMERR 0 pc)
    else if cnt.toNat < k then .next (deliverTrap s t .C .RANGE 0 pc)
    else match (if tl.cntC.st = .waiting then none else breakpointOf tl .C (pc + 1)), tl.dbgCtl.getLsbD 1 with
      | some b, false => .next (deliverTrap s t .C .BRKPT (BitVec.ofNat 14 b) pc)
      | h, _ => runRepetition body pc cnt.toNat k t (if h.isSome then s.onTile t (·.clearSkip) else s)

end Sys2Proof.Machine
end

