-- ==== Sys2Proof/Machine/Sparsity.lean ====
section
/-! DEFINITION. Computed sparsity: pattern programs, the index generator, the sparse products, and the zero flags
(10 R240-R261). -/

namespace Sys2Proof.Machine

open Sys2Proof

/-! ### Pattern words (R159, R242, R244) -/

/-- The fields of a pattern word. -/
structure PatWord where
  op : Nat
  a : Nat
  b : Nat
  imm : Nat
  deriving DecidableEq, Repr

/-- Splits a pattern word. -/
def patWord (w : BitVec 32) : PatWord :=
  { op := w.toNat / 2 ^ 24, a := w.toNat / 2 ^ 20 % 16, b := w.toNat / 2 ^ 16 % 16, imm := w.toNat % 2 ^ 16 }

/-- Register codes: counters 0-7, offsets 8-11 (R242). -/
def isCounterCode (c : Nat) : Bool := c < 8
def isOffsetCode (c : Nat) : Bool := 8 ≤ c && c < 12

/-- A word that `gld` and `grest` accept (R242). -/
def patWordOk (w : BitVec 32) : Bool :=
  let p := patWord w
  match p.op with
  | 0x01 => isCounterCode p.a && p.b = 0
  | 0x02 => isOffsetCode p.a && p.b = 0
  | 0x03 => p.a ≤ 2 && p.b = 0
  | 0x10 => isOffsetCode p.a && isOffsetCode p.b && p.imm = 0
  | 0x11 => isOffsetCode p.a && isCounterCode p.b && p.imm ≠ 0
  | 0x12 | 0x18 | 0x20 => isCounterCode p.a && isCounterCode p.b && p.imm = 0
  | 0x13 | 0x19 | 0x22 => isCounterCode p.a && p.b = 0
  | 0x1A | 0x21 | 0x2A => p.a = 0 && p.b = 0 && p.imm = 0
  | 0x28 => isOffsetCode p.a && isCounterCode p.b && p.imm = 0
  | 0x29 => p.a = 0 && p.b = 0
  | _ => false

/-! ### Terms (R245-R247) -/

/-- The hash function of a term (R246). -/
def hashH (seed salt r t : Nat) : Nat :=
  let x0 := Nat.xor (Nat.xor seed (r * 2 ^ 40 % 2 ^ 64)) (Nat.xor (t * 2 ^ 24 % 2 ^ 64) salt)
  let x1 := Nat.xor x0 (x0 / 2 ^ 31)
  let x2 := x1 * 0xA5B35F2DC41E8E27 % 2 ^ 64
  let x3 := Nat.xor x2 (x2 / 2 ^ 29)
  let x4 := x3 * 0x7C3D91B54A2FE6D1 % 2 ^ 64
  let x5 := Nat.xor x4 (x4 / 2 ^ 32)
  x5 / 2 ^ 32 % 2 ^ 16

/-- The integers from `lo` to `hi` that lie in [0, n), ascending. -/
def clipRange (lo hi : Int) (n : Nat) : List Nat :=
  let a := (max lo 0).toNat
  let b := min hi ((n : Int) - 1)
  if (a : Int) ≤ b then (List.range (b.toNat + 1 - a)).map fun i => a + i else []

/-- The values of an arithmetic progression `first + s × t`, `t < count`, that lie in [0, n), ascending. -/
def clipSteps (first : Int) (s count n : Nat) : List Nat :=
  let t0 := if first < 0 then ((-first + (s : Int) - 1) / s).toNat else 0
  let t1 := if first < n then min count ((((n : Int) - 1 - first) / s).toNat + 1) else 0
  (List.range (t1 - t0)).map fun i => (first + (s : Int) * ((t0 + i : Nat) : Int)).toNat

/-- `ceil (a / b)`. -/
def ceilDiv (a b : Nat) : Nat := if b = 0 then 0 else (a + b - 1) / b

/-- The forward entries of row `r` of a term over a domain of `R` rows by `C` columns (R245). -/
def forwardEntries : Term → Nat → Nat → Nat → List Nat
  | .band lo hi, _, C, r => clipRange (r + lo) (r + hi) C
  | .dil base n s, _, C, r => clipSteps (r + base) s n C
  | .bdiag h w, _, C, r =>
    if h = 0 || w = 0 then [] else let b := r / h; clipRange (b * w : Nat) ((b * w + w : Nat) - 1) C
  | .hash n salt seed _, _, C, r => if C = 0 then [] else (List.range n).map fun t => hashH seed salt r t % C
  | .kron h2 w2 p1 p2, R, C, r =>
    if h2 = 0 || w2 = 0 then []
    else ((forwardEntries p1 (ceilDiv R h2) (ceilDiv C w2) (r / h2)).flatMap fun ch =>
      (forwardEntries p2 h2 w2 (r % h2)).map fun cl => ch * w2 + cl).filter (· < C)
  | .perm m v t, R, C, r =>
    ((forwardEntries t R C r).map fun c => if c < m then v * c % m else c).filter (· < C)

/-- The transposed entries of column `c` of a term; `inverse` is the table of the verified hash term (R245). -/
def transposedEntries (inverse : Table Nat) : Term → Nat → Nat → Nat → List Nat
  | .band lo hi, R, _, c => clipRange (c - hi) (c - lo) R
  | .dil base n s, R, _, c =>
    clipSteps ((c : Int) - base - (s : Int) * ((n : Int) - 1)) s n R
  | .bdiag h w, R, _, c =>
    if h = 0 || w = 0 then [] else let b := c / w; clipRange (b * h : Nat) ((b * h + h : Nat) - 1) R
  | .hash _ _ _ _, R, _, c => match tFind inverse c with
    | some r => if r < R then [r] else []
    | none => []
  | .kron h2 w2 p1 p2, R, C, c =>
    if h2 = 0 || w2 = 0 then []
    else ((transposedEntries inverse p1 (ceilDiv R h2) (ceilDiv C w2) (c / w2)).flatMap fun rh =>
      (transposedEntries inverse p2 h2 w2 (c % w2)).map fun rl => rh * h2 + rl).filter (· < R)
  | .perm m v t, R, C, c =>
    if c < m then match (List.range (min m C)).find? fun c' => v * c' % m = c with
      | some c' => transposedEntries inverse t R C c'
      | none => []
    else transposedEntries inverse t R C c

/-- A term is invertible; `hv` says that the declared hash term is verified (R245). -/
def Term.invertible (hv : Bool) : Term → Bool
  | .band _ _ | .dil _ _ _ | .bdiag _ _ => true
  | .hash _ _ _ declared => declared && hv
  | .kron _ _ p1 p2 => Term.invertible hv p1 && Term.invertible hv p2
  | .perm m v t => Term.invertible hv t && (m ≤ 1 || Nat.gcd v m = 1)

/-- The declared hash term of a term with its domain: count, salt, seed, rows, columns (R245, R247). -/
def declaredHash : Term → Nat → Nat → Option (Nat × Nat × Nat × Nat × Nat)
  | .hash n salt seed true, R, C => some (n, salt, seed, R, C)
  | .hash _ _ _ false, _, _ => none
  | .band _ _, _, _ => none
  | .dil _ _ _, _, _ => none
  | .bdiag _ _, _, _ => none
  | .kron h2 w2 p1 p2, R, C => match declaredHash p1 (ceilDiv R h2) (ceilDiv C w2) with
    | some d => some d
    | none => declaredHash p2 h2 w2
  | .perm _ _ t, R, C => declaredHash t R C

/-- The inverse table of a hash term: none if two of its values are equal (R247). -/
def invertHash (n salt seed R C : Nat) : Option (Table Nat) :=
  if C < R * n then none
  else (List.range (R * n)).foldl (fun m i => m.bind fun m =>
    let c := hashH seed salt (i / n) (i % n) % C
    if (tFind m c).isSome then none else some (tInsert m c (i / n))) (some [])

/-! ### Builds (R243, R244) -/

/-- A loop that a build has open: its offset register, the passes left, the word after the `loop`. -/
structure PatLoop where
  reg : Nat
  left : Nat
  start : Nat
  deriving DecidableEq, Repr

/-- A build under way; the registers are copies (R243). -/
structure BuildRun where
  c : Table (BitVec 32)
  o : Table (BitVec 32)
  seed : Nat
  pc : Nat
  nr : Nat
  nc : Nat
  stack : List Term
  terms : List (Term × Nat × Nat)
  loops : List PatLoop
  nodes : Nat
  steps : Nat
  declared : Bool
  deriving DecidableEq, Repr

/-- A counter and an offset of the copy. -/
def BuildRun.ctr (b : BuildRun) (r : Nat) : Nat := (tGet 0 b.c r).toNat
def BuildRun.ofs (b : BuildRun) (r : Nat) : Int := (tGet 0 b.o (r - 8)).toInt

/-- Pushes a new term node: PATLIM on a full stack, or beyond 16 nodes. -/
def BuildRun.push (b : BuildRun) (t : Term) : Option BuildRun :=
  if b.stack.length < 4 && b.nodes < 16 then some { b with stack := t :: b.stack, nodes := b.nodes + 1, pc := b.pc + 1 }
  else none

/-- The words from `pc` to the matching `next` of a loop that runs zero times: their number (R243). -/
def skipLoop (g : GenState) : Nat → Nat → Nat → Option Nat
  | 0, _, _ => none
  | fuel + 1, pc, depth =>
    if g.nw.toNat ≤ pc then none
    else match (patWord (tGet 0 g.store pc)).op with
      | 0x28 => (skipLoop g fuel (pc + 1) (depth + 1)).map (· + 1)
      | 0x29 => if depth = 0 then some 1 else (skipLoop g fuel (pc + 1) (depth - 1)).map (· + 1)
      | _ => (skipLoop g fuel (pc + 1) depth).map (· + 1)

/-- A word of a build, `end` apart; none is PATLIM (R243, R244). -/
def buildWord (g : GenState) (b : BuildRun) (p : PatWord) : Option BuildRun :=
  let next := { b with pc := b.pc + 1 }
  match p.op with
  | 0x01 => some { next with c := tSet 0 b.c p.a (BitVec.ofNat 32 p.imm) }
  | 0x02 => some { next with o := tSet 0 b.o (p.a - 8) ((BitVec.ofNat 16 p.imm).signExtend 32) }
  | 0x03 => some { next with seed := b.seed - b.seed / 2 ^ (16 * p.a) % 2 ^ 16 * 2 ^ (16 * p.a) + p.imm * 2 ^ (16 * p.a) }
  | 0x10 => b.push (.band (b.ofs p.a) (b.ofs p.b))
  | 0x11 => b.push (.dil (b.ofs p.a) (b.ctr p.b) p.imm)
  | 0x12 => b.push (.bdiag (b.ctr p.a) (b.ctr p.b))
  | 0x13 => if b.ctr p.a ≤ 256 then b.push (.hash (b.ctr p.a) p.imm b.seed false) else none
  | 0x18 => match b.stack with
    | p2 :: p1 :: rest => ({ b with stack := rest } : BuildRun).push (.kron (b.ctr p.a) (b.ctr p.b) p1 p2)
    | _ => none
  | 0x19 => match b.stack with
    | t :: rest => ({ b with stack := rest } : BuildRun).push (.perm (b.ctr p.a) p.imm t)
    | _ => none
  | 0x1A => match b.stack, b.declared with
    | t :: rest, false =>
      let t1 := match t with
        | .hash n s d _ => .hash n s d true
        | _ => t
      some { next with stack := t1 :: rest, declared := true }
    | _, _ => none
  | 0x20 =>
    let r := b.ctr p.a
    let c := b.ctr p.b
    if 1 ≤ r && r ≤ 256 && 1 ≤ c && c ≤ 256 then some { next with nr := r, nc := c } else none
  | 0x21 => match b.stack with
    | t :: rest => if b.terms.length < 8 then some { next with stack := rest, terms := b.terms ++ [(t, b.nr, b.nc)] } else none
    | _ => none
  | 0x22 => if b.ctr p.a ≤ p.imm then some next else none
  | 0x28 =>
    if b.ctr p.b = 0 then
      (skipLoop g 32 (b.pc + 1) 0).map fun n => { b with pc := b.pc + 1 + n, steps := b.steps + n }
    else if b.loops.length < 2 then
      some { next with loops := { reg := p.a - 8, left := b.ctr p.b, start := b.pc + 1 } :: b.loops }
    else none
  | 0x29 => match b.loops with
    | l :: rest =>
      let o := tSet 0 b.o l.reg (tGet 0 b.o l.reg + (BitVec.ofNat 16 p.imm).signExtend 32)
      if 1 < l.left then some { b with o := o, pc := l.start, loops := { l with left := l.left - 1 } :: rest }
      else some { next with o := o, loops := rest }
    | _ => none
  | _ => none

/-- Runs a build to its `end`: at most 1,024 steps, all of them below NW (R243). -/
def buildSteps (g : GenState) : Nat → BuildRun → Option BuildRun
  | 0, _ => none
  | fuel + 1, b =>
    if g.nw.toNat ≤ b.pc || 1024 ≤ b.steps then none
    else
      let p := patWord (tGet 0 g.store b.pc)
      let b1 := { b with steps := b.steps + 1 }
      if p.op = 0x2A then some b1
      else match buildWord g b1 p with
        | none => none
        | some b2 => if 1024 < b2.steps then none else buildSteps g fuel b2

/-- The words of a store that are loaded pass R242. -/
def storeOk (g : GenState) : Bool := (List.range g.nw.toNat).all fun k => patWordOk (tGet 0 g.store k)

/-- A BUILD (R243, R247, R250): RSVD, ILLOP or PATLIM, or the state with the term list and STATUS. The registers keep
their values. -/
def build (g : GenState) : Except Cause GenState :=
  if 32 < g.nw.toNat || 32 ≤ g.pc.toNat then .error .RSVD
  else if !storeOk g then .error .ILLOP
  else match buildSteps g 1025
      { c := g.c, o := g.o, seed := g.seed.toNat, pc := g.pc.toNat, nr := 64, nc := 256, stack := [], terms := [],
        loops := [], nodes := 0, steps := 0, declared := false } with
    | none => .error .PATLIM
    | some b =>
      let inv := (b.terms.findSome? fun (t, r, c) => declaredHash t r c).bind fun (n, salt, seed, r, c) =>
        invertHash n salt seed r c
      let hv := inv.isSome
      .ok { g with
        built := some { terms := b.terms, nr := b.nr, nc := b.nc, inverse := inv.getD [] }
        steps := BitVec.ofNat 11 b.steps, nterm := BitVec.ofNat 4 b.terms.length, hv := hv, decl := b.declared
        inv := b.terms.all fun (t, _, _) => t.invertible hv
        dirty := false, isBuilt := true }

/-- The forward entries of a row of the pattern (R241, R245). -/
def Build.forward (b : Build) (r : Nat) : List Nat :=
  b.terms.flatMap fun (t, nr, nc) => if r < nr then (forwardEntries t nr nc r).filter (· < b.nc) else []

/-- The transposed entries of a column of the pattern (R241, R245). -/
def Build.transposed (b : Build) (c : Nat) : List Nat :=
  b.terms.flatMap fun (t, nr, nc) => if c < nc then (transposedEntries b.inverse t nr nc c).filter (· < b.nr) else []

/-! ### The generator's instructions (R251, R252) -/

/-- Sets the generator. -/
def setGen (s : State) (t : Nat) (g : GenState) : State := s.onTile t fun tl => { tl with gen := g }

/-- The generator's window holds an error (R380). -/
def checkGen (s : State) (t : Nat) : Res Unit := check (!(s.tile t).badAt 0x220100 0x100) .MEMERR

/-- `gld` (R252). It reads `c`, `o`, SEED, PC and NW, and writes STATUS and the store whole, so that an error in these last
ends with it (R380). -/
def gldBody (nwm1 : BitVec 5) (off : BitVec 15) (t : Nat) (s : State) : Res State := do
  let n := nwm1.toNat + 1
  checkArea off (4 * n)
  check (!(s.tile t).badAt 0x220100 56) .MEMERR
  let v ← readArea s t (areaOf off) (4 * n)
  let store := (List.range n).foldl (fun m k => tSet 0 m k (BitVec.ofNat 32 (v / 2 ^ (32 * k)))) []
  let g ← liftCause (build { (s.tile t).gen with store := store, nw := BitVec.ofNat 8 n, pc := 0 })
  let s1 ← guards s t [ownSpan s t (areaOf off) (4 * n) true false]
  .ok (setGen (s1.onTile t fun tl => (tl.clearBad 0x220138 8).clearBad 0x220180 128) t g)

/-- `gld` (R252). -/
def execGld (_wl _ws _gl _gs : BitVec 1) (nwm1 : BitVec 5) (off : BitVec 15) (s : State) : Out :=
  runCmd .X s (gldBody nwm1 off)

/-- The generator after `gset` (R252). -/
def gsetState (g : GenState) (sel imm : Nat) : GenState :=
  let g1 := { g with dirty := true }
  if sel < 8 then { g1 with c := tSet 0 g.c sel (BitVec.ofNat 32 imm) }
  else if sel < 12 then { g1 with o := tSet 0 g.o (sel - 8) ((BitVec.ofNat 16 imm).signExtend 32) }
  else if sel < 15 then
    let q := 16 * (sel - 12)
    { g1 with seed := BitVec.ofNat 48 (g.seed.toNat - g.seed.toNat / 2 ^ q % 2 ^ 16 * 2 ^ q + imm * 2 ^ q) }
  else { g1 with pc := BitVec.ofNat 8 imm }

/-- `gset` (R252). -/
def gsetBody (sel : BitVec 4) (imm : BitVec 16) (t : Nat) (s : State) : Res State := do
  check (sel ≠ 15 || imm.toNat < 32) .ILLOP
  .ok (setGen s t (gsetState (s.tile t).gen sel.toNat imm.toNat))

/-- `gset` (R252). -/
def execGset (_wl _ws _gl _gs : BitVec 1) (sel : BitVec 4) (imm : BitVec 16) (s : State) : Out :=
  runCmd .X s (gsetBody sel imm)

/-- `gsave` (R252). -/
def gsaveBody (off : BitVec 15) (t : Nat) (s : State) : Res State := do
  checkArea off 256
  checkGen s t
  let s1 ← guards s t [ownSpan s t (areaOf off) 256 false true]
  check (!(s.tile t).pubsBad) .MEMERR
  .ok (scratchWrite s1 t (areaOf off) (natBytes 256 (s.tile t).gen.image) 0 true true)

/-- `gsave` (R252). -/
def execGsave (_wl _ws _gl _gs : BitVec 1) (off : BitVec 15) (s : State) : Out := runCmd .X s (gsaveBody off)

/-- Loads a 256-byte image as `grest` and restore do: reserved fields, words, build (R252, R253). -/
def restoreGen (g : GenState) (v : Nat) : Except Cause GenState :=
  if v / 2 ^ 512 % 2 ^ 512 ≠ 0 || v / 2 ^ (448 + 20) % 2 ^ 44 ≠ 0 then .error .RSVD
  else build (g.load v)

/-- `grest` (R252). -/
def grestBody (off : BitVec 15) (t : Nat) (s : State) : Res State := do
  checkArea off 256
  let v ← readArea s t (areaOf off) 256
  let g ← liftCause (restoreGen (s.tile t).gen v)
  let s1 ← guards s t [ownSpan s t (areaOf off) 256 true false]
  .ok (setGen (s1.onTile t (·.clearBad 0x220100 0x100)) t g)

/-- `grest` (R252). -/
def execGrest (_wl _ws _gl _gs : BitVec 1) (off : BitVec 15) (s : State) : Out := runCmd .X s (grestBody off)

/-! ### Sparse products (R254-R256) -/

/-- The box of a sparse operand: the whole tensor in its first two dimensions (R255). -/
def tensorBox (r : Tlr) : Option Box := Tlr.boxOf r true 0 2

/-- The first two checks of R255, the record and its span. -/
def sparsePlan (s : State) (t : Nat) (ga : BitVec 4) (acc : BitVec 3) (af wf : BitVec 2) : Res (Tlr × List Span) := do
  check (acc.toNat ≤ 4 && (pairing af wf).isSome) .ILLOP
  let a ← cmdDesc s t .X ga
  liftCause (checkRecordBox s t .X a false false (tensorBox a))
  .ok (a, recSpan s t .X a (tensorBox a) true false)

/-- A build is due (R250). -/
def GenState.due (g : GenState) : Bool := g.dirty || !g.isBuilt || g.built.isNone

/-- The generator ready for a product: built now if a build is due (R250). STATUS is read, and for a build the copies of R243 and
the store words below NW; an error in one of these words is MEMERR (R380). -/
def readyGen (s : State) (t : Nat) : Res GenState := do
  let tl := s.tile t
  check (!tl.badAt 0x220138 8) .MEMERR
  if tl.gen.due then do
    check (!(tl.badAt 0x220100 56 || tl.badAt 0x220180 (4 * min 32 tl.gen.nw.toNat))) .MEMERR
    liftCause (build tl.gen)
  else .ok tl.gen

/-- A trap of the rest of a command leaves what it performed before, `s1`, performed. -/
def trapsIn {α : Type} (s1 : State) (r : Res α) : Res α :=
  match r with
  | .error (.trap c info) => .error (.trapIn s1 c info)
  | r => r

/-- A sparse product, forward or transposed (R255, R256). A build that succeeds stands, whatever the later checks
find (R250). -/
def sparseBody (transposed : Bool) (ga : BitVec 4) (acc : BitVec 3) (af wf : BitVec 2) (zs clr : BitVec 1)
    (rb : BitVec 2) (t : Nat) (s : State) : Res State := do
  let (a, spans) ← sparsePlan s t ga acc af wf
  let g ← readyGen s t
  trapsIn (setGen s t g) do
    check (!transposed || g.inv) .NONINV
    let b := g.built.getD { terms := [], nr := 0, nc := 0, inverse := [] }
    check ((if transposed then b.nr else b.nc) * linesPerRow wf ≤ activeLw (s.tile t)) .RANGE
    let s1 ← guards s t spans
    let (grp, _) := (pairing af wf).getD (4, 256)
    let rows := (List.range 64).map fun i =>
      let k := 64 * rb.toNat + i
      (i, if transposed then
            (if k < b.nc then (b.transposed k).map fun (r : Nat) => ({ w0 := k, w1 := r, row := r } : Product) else [])
          else if k < b.nr then (b.forward k).map fun (c : Nat) => ({ w0 := c, w1 := k, row := c } : Product) else [])
    runProduct (setGen s1 t g) t acc.toNat a { af := (aFormat af).getD 3, wf := wf, group := grp, zs := zs == 1 } (clr == 1) rows

/-- `mmas` (R256). -/
def execMmas (_wl _ws _gl _gs : BitVec 1) (ga : BitVec 4) (acc : BitVec 3) (af wf : BitVec 2) (zs clr : BitVec 1)
    (rb : BitVec 2) (s : State) : Out := runCmd .X s (sparseBody false ga acc af wf zs clr rb)

/-- `mmat` (R256). -/
def execMmat (_wl _ws _gl _gs : BitVec 1) (ga : BitVec 4) (acc : BitVec 3) (af wf : BitVec 2) (zs clr : BitVec 1)
    (rb : BitVec 2) (s : State) : Out := runCmd .X s (sparseBody true ga acc af wf zs clr rb)

/-! ### Zero flags (R258, R259) -/

/-- The checks of `zscan` and `zclr` (R259). -/
def checkBlocks (cntm1 : BitVec 6) (blk : BitVec 12) : Res Unit := do
  check (blk.toNat + cntm1.toNat < 4096) .RANGE
  check (blk.toNat + cntm1.toNat < 0xF80) .PERM

/-- Every value of a block is zero under ZF (R259). -/
def blockZero (zf : BitVec 3) (bs : List Byte) : Bool :=
  let v := bytesNat bs
  let all (w : Nat) (ok : Nat → Bool) : Bool := (List.range (4096 / w)).all fun i => ok (v / 2 ^ (w * i) % 2 ^ w)
  match zf.toNat with
  | 0 => bs.all (· == 0)
  | 1 => all 32 fun x => x = 0 || x = 0x80000000
  | 2 => all 16 fun x => x = 0 || x = 0x8000
  | 3 => all 8 fun x => x = 0 || x = 0x80
  | _ => all 4 fun x => x = 0 || x = 8

/-- `zscan` (R259). -/
def zscanBody (zf : BitVec 3) (cntm1 : BitVec 6) (blk : BitVec 12) (t : Nat) (s : State) : Res State := do
  check (zf.toNat ≤ 4) .ILLOP
  checkBlocks cntm1 blk
  let n := cntm1.toNat + 1
  check (!poisoned (s.tile t).poison (512 * blk.toNat) (512 * n) 64) .MEMERR
  let s1 ← guards s t [ownSpan s t (512 * blk.toNat) (512 * n) true false]
  .ok (s1.onTile t fun tl =>
    { tl with zflags := (List.range n).foldl (fun m i =>
        let k := blk.toNat + i
        tSet false m k (blockZero zf (tl.scratch.readBytes (512 * k) 512))) tl.zflags })

/-- `zscan` (R259). -/
def execZscan (_wl _ws _gl _gs : BitVec 1) (zf : BitVec 3) (cntm1 : BitVec 6) (blk : BitVec 12) (s : State) : Out :=
  runCmd .X s (zscanBody zf cntm1 blk)

/-- `zclr` (R259). -/
def zclrBody (cntm1 : BitVec 6) (blk : BitVec 12) (t : Nat) (s : State) : Res State := do
  checkBlocks cntm1 blk
  .ok (s.onTile t fun tl =>
    { tl with zflags := (List.range (cntm1.toNat + 1)).foldl (fun m i => tErase m (blk.toNat + i)) tl.zflags })

/-- `zclr` (R259). -/
def execZclr (_wl _ws _gl _gs : BitVec 1) (cntm1 : BitVec 6) (blk : BitVec 12) (s : State) : Out :=
  runCmd .X s (zclrBody cntm1 blk)

end Sys2Proof.Machine
end

