-- ==== Sys2Proof/Machine/Subs.lean ====
section
/-! DEFINITION. The subscription instructions (14 R344-R349). -/

namespace Sys2Proof.Machine

open Sys2Proof

/-- The lowest free index of a 32-entry table. -/
def lowestFree (used : Nat → Bool) : Option Nat := (List.range 32).find? fun k => !used k

/-- The operands of `sub` (R345). -/
structure SubArgs where
  pub : Nat
  poff : BitVec 21
  soff : BitVec 21
  lines : BitVec 13
  spillK : BitVec 16
  deriving DecidableEq, Repr

/-- The checks of `sub`, in order (R345). -/
def subChecks (s : State) (t : Nat) (p q : Word) : Res SubArgs := do
  let poff := p.extractLsb' 0 21
  let soff := q.extractLsb' 0 21
  let lines := q.extractLsb' 21 13
  check (spaceOf p = 8 && canonical p) .ASPACE
  check (q.extractLsb' 34 14 == 0 && lines ≠ 0 && lines.toNat ≤ 4096 && ownerOf p ≠ (s.tile t).tileId.toNat) .RANGE
  check (poff.toNat % 64 = 0 && soff.toNat % 64 = 0) .ALIGN
  check (poff.toNat + 64 * lines.toNat ≤ bandStart && soff.toNat + 64 * lines.toNat ≤ bandStart) .PERM
  match s.tileOfRel t (ownerOf p) with
  | none => trap .PERM
  | some u => .ok { pub := u, poff := poff, soff := soff, lines := lines, spillK := q.extractLsb' 48 16 }

/-- Installs both entries in one step at the publisher, LIVE (R345, R350, R351). -/
def installSub (s : State) (t : Nat) (a : SubArgs) (i e : Nat) : State :=
  let me := (s.tile t).tileId
  let them := (s.tile a.pub).tileId
  let p : PubEntry :=
    { valid := true, subTile := me, subIdx := BitVec.ofNat 5 i, lines := a.lines, poff := a.poff }
  let q : SubEntry :=
    { state := 1, pub := them, pubIdx := BitVec.ofNat 5 e, lines := a.lines, soff := a.soff, poff := a.poff,
      spillK := a.spillK, spillBase := if a.spillK = 0 then 0 else Config.spillBase s.tick, spillCnt := 0 }
  let s1 := s.onTile a.pub fun tl => { tl.clearBad (opmPub e) pubBytes with pubs := tSet .zero tl.pubs e p }
  s1.onTile t fun tl => { tl.clearBad (opmSub i) subBytes with subs := tSet .zero tl.subs i q }

/-- The units of spill ring that have been granted to a `sub` at which C still stands. -/
def Tile.spillGranted (tl : Tile) : Nat :=
  match tl.cwait with
  | some (.spill k (some true)) => k
  | _ => 0

/-- The spill capacity of a context, in units of 1,024 flits: that of its entries, and that of rings granted and not yet
installed (R345). -/
def State.spillUsed (s : State) (t : Nat) : Nat :=
  (s.tiles.map fun (_, tl) =>
    if tl.owner.isSome && tl.owner = (s.tile t).owner then
      (tl.subs.map fun (_, e) => e.spillK.toNat).foldl (· + ·) tl.spillGranted else 0).foldl (· + ·) 0

/-- `sub` (R345): a result of -1, -2 or -3 creates nothing. It reads both tables, so that a word with an uncorrectable error in
either raises MEMERR (R380). -/
def subscribeBody (d a b : BitVec 5) (t : Nat) (s : State) : Res State := do
  checkLinks t [a, b] [d] s
  let (p, s1) ← readReg t a s
  let (q, s2) ← readReg t b s1
  let g ← subChecks s t p q
  check (!(s.tile t).badAt (opmSub 0) (32 * subBytes) && !(s.tile g.pub).badAt (opmPub 0) (32 * pubBytes)) .MEMERR
  match lowestFree (fun k => (tGet SubEntry.zero (s.tile t).subs k).state ≠ 0),
        lowestFree (fun k => (tGet PubEntry.zero (s.tile g.pub).pubs k).valid) with
  | none, _ => writeReg t d (BitVec.allOnes 64) s2
  | some _, none => writeReg t d (BitVec.allOnes 64 - 1) s2
  | some i, some e =>
    if g.spillK = 0 then writeReg t d (BitVec.ofNat 64 i) (installSub s2 t g i e)
    else match (s.tile t).cwait with
      | some (.spill _ none) => .error .stall
      | some (.spill _ (some false)) => writeReg t d (BitVec.allOnes 64 - 2) s2
      | some (.spill _ (some true)) => writeReg t d (BitVec.ofNat 64 i) (installSub s2 t g i e)
      | _ => .error (.wait
          { s.onTile t (fun tl => { tl with cwait := some (.spill g.spillK.toNat none) }) with spillAsks := s.spillAsks ++ [t] })

/-- `sub` (R345). -/
def execSubSubscribe (d a b : BitVec 5) (s : State) : Out := runC s (subscribeBody d a b)

/-- The subscriber entry that an index names: RANGE at 32 or more, and for an entry that is not valid (R344); MEMERR for a
word of it with an uncorrectable error (R380). -/
def validSub (s : State) (t : Nat) (v : Word) : Res (Nat × SubEntry) := do
  check (v.toNat < 32) .RANGE
  check (!(s.tile t).badAt (opmSub v.toNat) subBytes) .MEMERR
  let e := tGet SubEntry.zero (s.tile t).subs v.toNat
  check (e.state ≠ 0) .RANGE
  .ok (v.toNat, e)

/-- An entry in a state, its spill ring empty. -/
def SubEntry.cleared (e : SubEntry) (st : BitVec 2) : SubEntry := { e with state := st, spillCnt := 0 }

/-- Discards every update of a subscription not yet applied: in its batch, in flight, or in its ring (R346, R348). -/
def discardUpdates (s : State) (t i : Nat) (e : SubEntry) : State :=
  let s1 := match s.tileOfRel t e.pub.toNat with
    | none => s
    | some u => s.onTile u fun tl => { tl with batches := tErase tl.batches e.pubIdx.toNat }
  let s2 := { s1 with flits := s1.flits.filter fun f => !(f.subTile = t && f.subIdx = i) }
  let s3 := { s2 with rings := s2.rings.filter fun r => !(some r.ctx = (s.tile t).owner &&
                                                          r.rel = (s.tile t).tileId.toNat && r.idx = i) }
  s3.onTile t fun tl => { tl with subs := tSet .zero tl.subs i (e.cleared e.state) }

/-- `unsub` (R346). -/
def unsubBody (a : BitVec 5) (t : Nat) (s : State) : Res State := do
  checkLinks t [a] [] s
  let (v, s1) ← readReg t a s
  let (i, e) ← validSub s t v
  let s2 := discardUpdates s1 t i e
  let s3 := match s.tileOfRel t e.pub.toNat with
    | none => s2
    | some u => s2.onTile u fun tl => { tl with pubs := tErase tl.pubs e.pubIdx.toNat }
  .ok (s3.onTile t fun tl => { tl with subs := tErase tl.subs i })

/-- `unsub` (R346). -/
def execUnsub (a : BitVec 5) (s : State) : Out := runC s (unsubBody a)

/-- An update that a publisher tile formed before a stamp is unsettled (R347, R359). -/
def unsettledBefore (s : State) (u stamp : Nat) : Bool := s.flits.any fun f => f.pubTile = u && f.flit.stamp < stamp

/-- `pflush` (R347): closes the batches, and completes once every earlier update is settled. It reads the publisher table
(R380). -/
def pflushBody (t : Nat) (s : State) : Res State :=
  match (s.tile t).cwait with
  | some (.flush n) => if unsettledBefore s t n then .error .stall else .ok s
  | _ =>
    if (s.tile t).badAt (opmPub 0) (32 * pubBytes) then trap .MEMERR
    else
      let s1 := closeBatches s t
      if unsettledBefore s1 t s1.stamp then
        .error (.wait (s1.onTile t fun tl => { tl with cwait := some (.flush s1.stamp) }))
      else .ok s1

/-- `pflush` (R347). -/
def execPflush (s : State) : Out := runC s pflushBody

/-- Copies one line of the publisher region, with its poison, as one write at the subscriber (R348). -/
def copyLine (s : State) (t u : Nat) (e : SubEntry) (k : Nat) : State :=
  let from_ := e.poff.toNat + 64 * k
  let to_ := e.soff.toNat + 64 * k
  let bad := poisoned (s.tile u).poison from_ 64 64
  let s1 := scratchWrite s t to_ ((s.tile u).scratch.readBytes from_ 64) 0 false false
  if bad then s1.onTile t fun tl => { tl with poison := tSet false tl.poison (to_ / 64) true } else s1

/-- The updates of one line of a subscription, in its batch and in flight, are discarded: those of writes performed
before the line is read (R348, R364). -/
def discardLine (s : State) (t u i : Nat) (e : SubEntry) (k : Nat) : State :=
  let s1 := s.onTile u fun tl =>
    { tl with batches := tSet [] tl.batches e.pubIdx.toNat ((tGet [] tl.batches e.pubIdx.toNat).filter (·.line ≠ k)) }
  { s1 with flits := s1.flits.filter fun f => !(f.subTile = t && f.subIdx = i && f.flit.line = k) }

/-- One line of a `resync`: read at the publisher, and written at the subscriber, in one step (R348). -/
def resyncLine (s : State) (t i : Nat) (e : SubEntry) (k : Nat) : State :=
  let s1 := match s.tileOfRel t e.pub.toNat with
    | none => s
    | some u => copyLine (discardLine s t u i e k) t u e k
  s1.onTile t fun tl => { tl with cwait := some (.resync i (k + 1)) }

/-- The end of a `resync`: the subscription is LIVE, and a link operand is taken (R163, R348). -/
def resyncEnd (a : BitVec 5) (t i : Nat) (s : State) : Res State := do
  let (_, s1) ← readReg t a s
  .ok (s1.onTile t fun tl => { tl with subs := tSet .zero tl.subs i ((tGet .zero tl.subs i).cleared 1) })

/-- `resync` (R348): the updates under way are discarded, the lines are copied one after another, and the subscription is
LIVE. Other agents act between the reads of two lines. -/
def resyncBody (a : BitVec 5) (t : Nat) (s : State) : Res State :=
  match (s.tile t).cwait with
  | some (.resync i k) =>
    let e := tGet SubEntry.zero (s.tile t).subs i
    if k < e.lines.toNat then .error (.wait (resyncLine s t i e k)) else resyncEnd a t i s
  | _ => do
    checkLinks t [a] [] s
    let (v, _) ← readReg t a s
    let (i, e) ← validSub s t v
    .error (.wait ((discardUpdates s t i e).onTile t fun tl => { tl with cwait := some (.resync i 0) }))

/-- `resync` (R348). -/
def execResync (a : BitVec 5) (s : State) : Out := runC s (resyncBody a)

/-- What `subq` writes (R349). -/
def subqValue (e : SubEntry) : Word :=
  if e.state = 0 then 0
  else BitVec.ofNat 64
    (e.soff.toNat * 2 ^ 32 + e.lines.toNat * 2 ^ 19 + e.pub.toNat * 2 ^ 8 + e.state.toNat)

/-- `subq`'s result (R349). -/
def subqBody (d a : BitVec 5) (t : Nat) (s : State) : Res State := do
  checkLinks t [a] [d] s
  let (v, s1) ← readReg t a s
  check (v.toNat < 32) .RANGE
  check (!(s.tile t).badAt (opmSub v.toNat) subBytes) .MEMERR
  writeReg t d (subqValue (tGet SubEntry.zero (s.tile t).subs v.toNat)) s1

/-- `subq` (R349). -/
def execSubq (d a : BitVec 5) (s : State) : Out := runC s (subqBody d a)

end Sys2Proof.Machine
end

