-- ==== Sys2Proof/Machine/System.lean ====
section
/-! DEFINITION. The system instructions of C (07 R186-R189). -/

namespace Sys2Proof.Machine

open Sys2Proof

/-- The checks that a CSR access makes before it reads a register, with what the CSR reads as (R148, R54). -/
def csrReady (s : State) (t : Nat) (n : Nat) (write : Bool) : Res Word := do
  match csrRead s t n with
  | none => trap .ILLOP
  | some v =>
    check (!(write && csrReadOnly n)) .ILLOP
    if csrStalls (s.tile t) n then .error .stall else .ok v

/-- A CSR whose word holds an uncorrectable error raises MEMERR when it is read (R380). -/
def csrSound (s : State) (t : Nat) (n : Nat) : Res Unit := check (!(s.tile t).badAt (opmCsr n) 8) .MEMERR

/-- `csrr`'s result (R186). -/
def csrrBody (d : BitVec 5) (csr : BitVec 11) (t : Nat) (s : State) : Res State := do
  let v ← csrReady s t csr.toNat false
  csrSound s t csr.toNat
  checkLinks t [] [d] s
  writeReg t d v s

/-- `csrr` (R186). -/
def execCsrr (d : BitVec 5) (csr : BitVec 11) (s : State) : Out := runC s (csrrBody d csr)

/-- A `csrw` of a value writes the word of a CSR whole, and reads none of it: but for a sticky bit that it leaves (R186),
and for a RES that it leaves (R366). -/
def csrwWhole (n : Nat) (v : Word) : Bool :=
  match n with
  | 0x009 => v.toNat / 2 ^ 10 % 4 ≠ 3
  | 0x019 => v &&& 0x3F#64 = 0
  | 0x01A | 0x01B => v &&& 0xFFFFFFFFFFFFFF18#64 = 0
  | 0x01C => v &&& 0xFFFF0003#64 = 0
  | _ => true

/-- A CSR write: the old value and the operand give the value written, the sticky bits kept, whether DISARM is written as 1,
and whether the word is written whole, which ends an error in it (R380). -/
def csrUpdate (a : BitVec 5) (csr : BitVec 11) (value keep : Word → Word → Word) (disarm whole : Word → Bool) (t : Nat)
    (s : State) : Res State := do
  let v ← csrReady s t csr.toNat true
  checkLinks t [a] [] s
  let (va, s1) ← readReg t a s
  if !whole va then csrSound s t csr.toNat
  match csrWrite s1 t csr.toNat (value v va) (keep v va) (disarm va) with
  | .ok s2 => .ok (if whole va then s2.onTile t (·.clearBad (opmCsr csr.toNat) 8) else s2)
  | .error c => trap c

/-- `csrw` (R186): a sticky bit written as 0 is cleared. -/
def execCsrw (a : BitVec 5) (csr : BitVec 11) (s : State) : Out :=
  runC s (csrUpdate a csr (fun _ x => x) (fun _ x => x) (fun x => x.getLsbD 2) (csrwWhole csr.toNat))

/-- `csrs` (R186): sticky bits are left unchanged. -/
def execCsrs (a : BitVec 5) (csr : BitVec 11) (s : State) : Out :=
  runC s (csrUpdate a csr (fun v x => v ||| x) (fun _ _ => BitVec.allOnes 64) (fun x => x.getLsbD 2) fun _ => false)

/-- `csrc` (R186): the sticky bits it names are cleared. -/
def execCsrc (a : BitVec 5) (csr : BitVec 11) (s : State) : Out :=
  runC s (csrUpdate a csr (fun v x => v &&& ~~~x) (fun _ x => ~~~x) (fun _ => false) fun _ => false)

/-- `eret` (R187, R369): ILLOP outside handler state; MEMERR if TRAPCAUSE or TRAPPC, which it reads, holds an uncorrectable
error (R380). -/
def execEret (s : State) : Out :=
  let t := s.here
  let tl := s.tile t
  if !tl.inHandler then .next (deliverTrap s t .C .ILLOP 0 tl.cntC.pc)
  else if tl.badAt (opmCsr 0x009) 16 then .next (deliverTrap s t .C .MEMERR 0 tl.cntC.pc)
  else .next (returnFromTrap s t)

/-- `brk` raises BRKPT at itself (R187). -/
def execBrk (s : State) : Out := runC s fun _ _ => trap .BRKPT

/-- The mask of link inputs that hold a word (R188). -/
def lpollMask (tl : Tile) : Word :=
  BitVec.ofNat 64 (((List.range 4).map fun d => if (tGet [] tl.linkIn d).isEmpty then 0 else 2 ^ d).foldl (· + ·) 0)

/-- `lpoll`'s result (R188). -/
def lpollBody (d : BitVec 5) (t : Nat) (s : State) : Res State := do
  check (s.tile t).phase.isSome .LINKPH
  checkLinks t [] [d] s
  writeReg t d (lpollMask (s.tile t)) s

/-- `lpoll` (R188). -/
def execLpoll (d : BitVec 5) (s : State) : Out := runC s (lpollBody d)

/-- `trap imm` raises SYSCALL with imm14 in INFO (R189). -/
def execTrap (imm : BitVec 14) (s : State) : Out := runC s fun _ _ => .error (.trap .SYSCALL imm)

end Sys2Proof.Machine
end

