-- ==== Sys2Proof/Machine/Run.lean ====
section
/-! DEFINITION. Running an instruction word, and what a command says of itself before it starts: whether it names a
descriptor (R74) and the runs it may touch (R142). -/

namespace Sys2Proof.Machine

open Sys2Proof

/-- The meaning of an instruction word that is not a `nest`: each arm is the word's own meaning. -/
def runWord : Instr → Option (State → Out)
  | .add d a b => some (execAdd d a b)
  | .sub d a b => some (execSub d a b)
  | .mul d a b => some (execMul d a b)
  | .mulh d a b => some (execMulh d a b)
  | .mulhsu d a b => some (execMulhsu d a b)
  | .mulhx d a b => some (execMulhx d a b)
  | .div d a b => some (execDiv d a b)
  | .divx d a b => some (execDivx d a b)
  | .rem d a b => some (execRem d a b)
  | .remx d a b => some (execRemx d a b)
  | .and d a b => some (execAnd d a b)
  | .or d a b => some (execOr d a b)
  | .xor d a b => some (execXor d a b)
  | .andn d a b => some (execAndn d a b)
  | .orn d a b => some (execOrn d a b)
  | .sll d a b => some (execSll d a b)
  | .srl d a b => some (execSrl d a b)
  | .sra d a b => some (execSra d a b)
  | .rol d a b => some (execRol d a b)
  | .ror d a b => some (execRor d a b)
  | .min d a b => some (execMin d a b)
  | .max d a b => some (execMax d a b)
  | .minx d a b => some (execMinx d a b)
  | .maxx d a b => some (execMaxx d a b)
  | .slt d a b => some (execSlt d a b)
  | .sltx d a b => some (execSltx d a b)
  | .seq d a b => some (execSeq d a b)
  | .sne d a b => some (execSne d a b)
  | .sel d a b => some (execSel d a b)
  | .clz d a => some (execClz d a)
  | .ctz d a => some (execCtz d a)
  | .popc d a => some (execPopc d a)
  | .sextB d a => some (execSextB d a)
  | .sextH d a => some (execSextH d a)
  | .sextW d a => some (execSextW d a)
  | .zextB d a => some (execZextB d a)
  | .zextH d a => some (execZextH d a)
  | .zextW d a => some (execZextW d a)
  | .lea d a b sh => some (execLea d a b sh)
  | .madd d a b => some (execMadd d a b)
  | .bfe d a b => some (execBfe d a b)
  | .bfi d a b => some (execBfi d a b)
  | .addi d a imm => some (execAddi d a imm)
  | .andi d a imm => some (execAndi d a imm)
  | .ori d a imm => some (execOri d a imm)
  | .xori d a imm => some (execXori d a imm)
  | .slli d a sh => some (execSlli d a sh)
  | .srli d a sh => some (execSrli d a sh)
  | .srai d a sh => some (execSrai d a sh)
  | .slti d a imm => some (execSlti d a imm)
  | .sltxi d a imm => some (execSltxi d a imm)
  | .lui d imm => some (execLui d imm)
  | .auipc d imm => some (execAuipc d imm)
  | .ld d a oc ar scope size disp => some (execLd d a oc ar scope size disp)
  | .ldz d a oc ar scope size disp => some (execLdz d a oc ar scope size disp)
  | .st d a oc ar scope size disp => some (execSt d a oc ar scope size disp)
  | .amoadd d a oc ar scope dbl => some (execAmoadd d a oc ar scope dbl)
  | .amomin d a oc ar scope dbl => some (execAmomin d a oc ar scope dbl)
  | .amomax d a oc ar scope dbl => some (execAmomax d a oc ar scope dbl)
  | .aminx d a oc ar scope dbl => some (execAminx d a oc ar scope dbl)
  | .amaxx d a oc ar scope dbl => some (execAmaxx d a oc ar scope dbl)
  | .amoand d a oc ar scope dbl => some (execAmoand d a oc ar scope dbl)
  | .amoor d a oc ar scope dbl => some (execAmoor d a oc ar scope dbl)
  | .amoxor d a oc ar scope dbl => some (execAmoxor d a oc ar scope dbl)
  | .amoswp d a oc ar scope dbl => some (execAmoswp d a oc ar scope dbl)
  | .amocas d a oc ar scope dbl => some (execAmocas d a oc ar scope dbl)
  | .amotas d a oc ar scope dbl => some (execAmotas d a oc ar scope dbl)
  | .fence scope mask => some (execFence scope mask)
  | .bar scope drain gsel => some (execBar scope drain gsel)
  | .bart scope gsel => some (execBart scope gsel)
  | .tx d a b sen ren diro diri => some (execTx d a b sen ren diro diri)
  | .mux west south east north => some (execMux west south east north)
  | .waitw d a oc ar scope dbl => some (execWaitw d a oc ar scope dbl)
  | .waitwArm d a dbl => some (execWaitwArm d a dbl)
  | .acqs d a b scope => some (execAcqs d a b scope)
  | .rels d a b scope => some (execRels d a b scope)
  | .renq a b scope eng => some (execRenq a b scope eng)
  | .subSubscribe d a b => some (execSubSubscribe d a b)
  | .unsub a => some (execUnsub a)
  | .pflush => some execPflush
  | .resync a => some (execResync a)
  | .subq d a => some (execSubq d a)
  | .b off => some (execB off)
  | .beq a b off => some (execBeq a b off)
  | .bne a b off => some (execBne a b off)
  | .blt a b off => some (execBlt a b off)
  | .bge a b off => some (execBge a b off)
  | .bltx a b off => some (execBltx a b off)
  | .bgex a b off => some (execBgex a b off)
  | .call r off => some (execCall r off)
  | .ret r => some (execRet r)
  | .loop r off => some (execLoop r off)
  | .halt => some execHalt
  | .tlset g a fld => some (execTlset g a fld)
  | .tlget d g fld => some (execTlget d g fld)
  | .tlclr g => some (execTlclr g)
  | .tlmov gd gs => some (execTlmov gd gs)
  | .tlchkL d g => some (execTlchkL d g)
  | .tlchkX d g => some (execTlchkX d g)
  | .tlchkS d g => some (execTlchkS d g)
  | .tlld g a oc ar scope => some (execTlld g a oc ar scope)
  | .tlst g a oc ar scope => some (execTlst g a oc ar scope)
  | .spt d a => some (execSpt d a)
  | .spc d a sp => some (execSpc d a sp)
  | .mkpLocal d a b => some (execMkpLocal d a b)
  | .mkpShared d a b => some (execMkpShared d a b)
  | .mkpOpm d a b => some (execMkpOpm d a b)
  | .csrr d csr => some (execCsrr d csr)
  | .csrw a csr => some (execCsrw a csr)
  | .csrs a csr => some (execCsrs a csr)
  | .csrc a csr => some (execCsrc a csr)
  | .eret => some execEret
  | .brk => some execBrk
  | .lpoll d => some (execLpoll d)
  | .rep sa s2 s1 sd cnt => some (execRep sa s2 s1 sd cnt)
  | .trap imm => some (execTrap imm)
  | .ldn w gv gd gs oc acq rel scope nt gn => some (execLdn w gv gd gs oc acq rel scope nt gn)
  | .ldr w gv gd gs oc acq rel scope nt gn => some (execLdr w gv gd gs oc acq rel scope nt gn)
  | .ldh w gv gd gs oc acq rel scope nt gn => some (execLdh w gv gd gs oc acq rel scope nt gn)
  | .rcv w gv gd port e oc acq rel scope nt gn => some (execRcv w gv gd port e oc acq rel scope nt gn)
  | .gath w gv gval gi gr slot oc sc nov => some (execGath w gv gval gi gr slot oc sc nov)
  | .pfx w gv gs => some (execPfx w gv gs)
  | .lNest _ _ _ _ => none
  | .stn w gv gd gs oc acq rel scope nt gn => some (execStn w gv gd gs oc acq rel scope nt gn)
  | .strm w gv gd gs oc acq rel scope nt gn => some (execStrm w gv gd gs oc acq rel scope nt gn)
  | .sth w gv gd gs oc acq rel scope nt gn => some (execSth w gv gd gs oc acq rel scope nt gn)
  | .snd w gv gs port e oc acq rel scope nt gn => some (execSnd w gv gs port e oc acq rel scope nt gn)
  | .scat w gv gval gi slot oc sc => some (execScat w gv gval gi slot oc sc)
  | .eos w gv port => some (execEos w gv port)
  | .sNest _ _ _ _ => none
  | .mma wl ws gl gs ga gi acc af wf ix iw zs clr => some (execMma wl ws gl gs ga gi acc af wf ix iw zs clr)
  | .mmas wl ws gl gs ga acc af wf zs clr rb => some (execMmas wl ws gl gs ga acc af wf zs clr rb)
  | .mmat wl ws gl gs ga acc af wf zs clr rb => some (execMmat wl ws gl gs ga acc af wf zs clr rb)
  | .wld wl ws gl gs gw sf => some (execWld wl ws gl gs gw sf)
  | .wldPort wl ws gl gs port sf km1 => some (execWldPort wl ws gl gs port sf km1)
  | .wswap wl ws gl gs => some (execWswap wl ws gl gs)
  | .scacc wl ws gl gs gsa gsb acc sfmt clrp => some (execScacc wl ws gl gs gsa gsb acc sfmt clrp)
  | .accclr wl ws gl gs mask => some (execAccclr wl ws gl gs mask)
  | .accst wl ws gl gs gd acc efmt rm sat sc oc => some (execAccst wl ws gl gs gd acc efmt rm sat sc oc)
  | .accld wl ws gl gs gd acc efmt rm sat sc oc => some (execAccld wl ws gl gs gd acc efmt rm sat sc oc)
  | .erow wl ws gl gs gin gout gsa gsb sam sbm nout => some (execErow wl ws gl gs gin gout gsa gsb sam sbm nout)
  | .ecfg wl ws gl gs off => some (execEcfg wl ws gl gs off)
  | .ecfgSt wl ws gl gs off => some (execEcfgSt wl ws gl gs off)
  | .emode wl ws gl gs off => some (execEmode wl ws gl gs off)
  | .emodePort wl ws gl gs port => some (execEmodePort wl ws gl gs port)
  | .gld wl ws gl gs nwm1 off => some (execGld wl ws gl gs nwm1 off)
  | .gset wl ws gl gs sel imm => some (execGset wl ws gl gs sel imm)
  | .gsave wl ws gl gs off => some (execGsave wl ws gl gs off)
  | .grest wl ws gl gs off => some (execGrest wl ws gl gs off)
  | .zscan wl ws gl gs zf cntm1 blk => some (execZscan wl ws gl gs zf cntm1 blk)
  | .zclr wl ws gl gs cntm1 blk => some (execZclr wl ws gl gs cntm1 blk)
  | .xNest _ _ _ _ _ _ => none
  | .wordIssue _ _ => none
  | .flowOutcomeTake _ _ => none
  | .commandStart _ _ => none
  | .commandComplete _ _ _ => none
  | .heldTokenPush _ _ _ => none
  | .wldWritePhaseEnd _ => none
  | .tileDrainEnd _ => none
  | .trapEscalation => none
  | .faultService => none
  | .hostPageResponse _ _ => none
  | .rmwTokenApply _ => none
  | .renqAccept _ _ => none
  | .barrierComplete _ _ => none
  | .phaseWordArrival _ _ => none
  | .waitwWake _ => none
  | .slotWaitServed _ _ => none
  | .batchWindowExpiry _ _ => none
  | .updateApply _ => none
  | .spillRingAllocation _ => none
  | .doorbellWrite _ _ _ _ => none
  | .packetFetch _ => none
  | .queueMap => none
  | .queueQuiesce => none
  | .nop _ _ => none
  | .bind _ _ => none
  | .token _ _ => none
  | .ctxcreate _ _ => none
  | .ctxdestroy _ _ => none
  | .qcreate _ _ => none
  | .qdestroy _ _ => none
  | .shareset _ _ => none
  | .allowset _ _ => none
  | .laneset _ _ => none
  | .launchLaneMessage _ _ _ => none
  | .bindingStart _ => none
  | .priorityAgeing _ => none
  | .runCompletion _ => none
  | .runFailure _ => none
  | .completionRecordWrite _ => none
  | .placement _ => none
  | .eviction _ => none
  | .lullMarkerArrival _ => none
  | .tileSeal _ => none
  | .contextSeal _ => none
  | .clearingToken _ => none
  | .clearingComplete _ => none
  | .stageSwap _ _ => none
  | .swapDrainEnd _ _ => none
  | .swapReloadEnd _ _ => none
  | .swaptimeout _ _ => none
  | .scrubPass _ => none
  | .configError _ _ => none
  | .configReloadDone _ _ => none
  | .regionPortWord _ _ _ => none
  | .inputGeneratorWord _ _ => none
  | .outputGeneratorWord _ _ => none
  | .queueEnqueue _ _ => none
  | .queueDequeue _ _ => none
  | .jetOutWord _ _ => none
  | .jetInWord _ => none
  | .cornerTurnWord _ _ => none
  | .arbiterBurst _ _ => none
  | .counterNodeWord _ _ => none
  | .mergeBurst _ _ => none
  | .sliceRequest _ _ _ => none
  | .sliceMissResponse _ => none
  | .accountingWindow _ => none
  | .postedStoreAck _ => none
  | .selfTest _ _ _ => none
  | .fatalError => none
  | .watchdogExpiry => none
  | .pcieLinkDown => none
  | .pcieLinkUp => none
  | .hotReset => none
  | .pfFlr => none
  | .vfFlr _ => none
  | .powerGood _ _ => none
  | .thermalThrottle => none
  | .thermalTrip => none
  | .powerCapWindow _ => none
  | .jetLinkUp _ _ => none
  | .tagRunClose _ => none
  | .tagFlitReceive _ _ _ => none
  | .replayRequest _ _ => none
  | .keyRotation _ => none
  | .spdmMeasurements _ _ _ => none
  | .firmwareOpmAccess _ _ _ => none
  | .bar4Access _ _ _ _ => none
  | .aqctl _ _ => none
  | .dbdrop _ _ => none
  | .evict _ _ => none
  | .pwrcap _ _ => none
  | .jpctl _ _ _ => none
  | .fnstat _ => none
  | .registerWrite _ _ _ => none
  | .memoryPortRequest _ _ _ _ _ _ => none
  | .ideEstablishment _ => none
  | .tdispLockInterface _ => none
  | .spdmGetCertificate _ => none
  | .dieTemperatureFall => none

/-- The descriptors that a word names (R74): a host or a note field, or an operand of the element row, only where the word uses
it. -/
def descsOf : Instr → List (BitVec 4)
  | .ldn _ _ gd gs _ _ _ _ nt gn | .ldr _ _ gd gs _ _ _ _ nt gn | .ldh _ _ gd gs _ _ _ _ nt gn
  | .stn _ _ gd gs _ _ _ _ nt gn | .strm _ _ gd gs _ _ _ _ nt gn | .sth _ _ gd gs _ _ _ _ nt gn =>
    [gd, gs] ++ (if nt = 1 then [gn] else [])
  | .rcv _ _ gd _ _ _ _ _ _ nt gn => gd :: if nt = 1 then [gn] else []
  | .snd _ _ gs _ _ _ _ _ _ nt gn => gs :: if nt = 1 then [gn] else []
  | .gath _ _ gval gi gr _ _ _ nov => (if nov = 1 then [] else [gval]) ++ [gi, gr]
  | .scat _ _ gval gi _ _ _ => [gval, gi]
  | .pfx _ _ gs => [gs]
  | .mma _ _ _ _ ga gi _ _ _ ix _ _ _ => ga :: if ix = 1 then [gi] else []
  | .mmas _ _ _ _ ga _ _ _ _ _ _ | .mmat _ _ _ _ ga _ _ _ _ _ _ => [ga]
  | .wld _ _ _ _ gw _ => [gw]
  | .scacc _ _ _ _ gsa gsb _ _ _ => [gsa, gsb]
  | .accst _ _ _ _ gd _ _ _ _ _ _ => [gd]
  | .accld _ _ _ _ gd _ _ _ _ _ _ => [gd]
  | .erow _ _ _ _ gin gout gsa gsb sam sbm nout => 
    gin :: (if sam.toNat = 1 then [gsa] else []) ++ (if sbm.toNat = 1 then [gsb] else []) ++ (if nout = 1 then [] else [gout])
  | _ => []

/-- The word names a descriptor (R74). -/
def namesDesc (i : Instr) : Bool := !(descsOf i).isEmpty

/-- The spans of a plan: a command whose checks fail touches nothing, and traps when it starts. -/
def planned {α : Type} (r : Res α) (f : α → List Span) : List Span :=
  match r with
  | .ok v => f v
  | .error _ => []

/-- What a command may read and write, as the range checker takes it (R142), for the entry in focus. -/
def wordSpans (t : Nat) (s : State) : Instr → List Span
  | .ldn _ _ gd gs _ _ _ _ nt gn => planned (copyPlan s t ldnKind gd gs nt gn) (·.2.2.2)
  | .ldr _ _ gd gs _ _ _ _ nt gn => planned (copyPlan s t ldrKind gd gs nt gn) (·.2.2.2)
  | .ldh _ _ gd gs _ _ _ _ nt gn => planned (copyPlan s t ldhKind gd gs nt gn) (·.2.2.2)
  | .stn _ _ gd gs _ _ _ _ nt gn => planned (copyPlan s t stnKind gd gs nt gn) (·.2.2.2)
  | .strm _ _ gd gs _ _ _ _ nt gn => planned (copyPlan s t strmKind gd gs nt gn) (·.2.2.2)
  | .sth _ _ gd gs _ _ _ _ nt gn => planned (copyPlan s t sthKind gd gs nt gn) (·.2.2.2)
  | .rcv _ _ gd _ _ _ _ _ _ nt gn => planned (portPlan s t .L gd false nt gn) (·.2.2)
  | .snd _ _ gs _ _ _ _ _ _ nt gn => planned (portPlan s t .S gs true nt gn) (·.2.2)
  | .gath _ _ gv gi gr _ _ _ nov =>
    planned (rmwPlan s t .L (if nov = 1 then none else some gv) gi (some gr)) (·.2.2.2)
  | .scat _ _ gv gi _ _ _ => planned (rmwPlan s t .S (some gv) gi none) (·.2.2.2)
  | .mma _ _ _ _ ga gi acc af wf ix _ _ _ => planned (mmaPlan s t ga gi acc af wf ix) (·.2.2)
  | .mmas _ _ _ _ ga acc af wf _ _ _ => planned (sparsePlan s t ga acc af wf) (·.2)
  | .mmat _ _ _ _ ga acc af wf _ _ _ => planned (sparsePlan s t ga acc af wf) (·.2)
  | .wld _ _ _ _ gw sf => planned (wldPlan s t gw sf) (·.2)
  | .scacc _ _ _ _ gsa gsb acc _ _ => planned (scaccPlan s t gsa gsb acc) (·.2.2)
  | .accst _ _ _ _ gd acc efmt rm sat _ _ => planned (accPlan s t gd acc rm sat (efmt ≠ 6 && efmt ≠ 15) false) (·.2)
  | .accld _ _ _ _ gd acc efmt rm sat _ _ => planned (accPlan s t gd acc rm sat (efmt ≠ 15) true) (·.2)
  | .erow _ _ _ _ gin gout gsa gsb sam sbm nout =>
    planned (erowPlan s t gin gout { mode := sam.toNat, field := gsa } { mode := sbm.toNat, field := gsb } (nout == 1))
      (·.2)
  | .ecfg _ _ _ _ off => [ownSpan s t (areaOf off) 160 true false]
  | .ecfgSt _ _ _ _ off => [ownSpan s t (areaOf off) 160 false true]
  | .emode _ _ _ _ off => [ownSpan s t (areaOf off) 64 true false]
  | .gld _ _ _ _ nwm1 off => [ownSpan s t (areaOf off) (4 * (nwm1.toNat + 1)) true false]
  | .gsave _ _ _ _ off => [ownSpan s t (areaOf off) 256 false true]
  | .grest _ _ _ _ off => [ownSpan s t (areaOf off) 256 true false]
  | .zscan _ _ _ _ _ cntm1 blk => [ownSpan s t (512 * blk.toNat) (512 * (cntm1.toNat + 1)) true false]
  | .lNest _ _ _ off => [ownSpan s t (areaOf off) 64 true false]
  | .xNest _ _ _ _ _ off => [ownSpan s t (areaOf off) 64 true false]
  | .sNest _ _ _ off => [ownSpan s t (areaOf off) 64 true false]
  | _ => []

end Sys2Proof.Machine
end

