-- ==== Sys2Proof/Machine/Queue.lean ====
section
/-! DEFINITION. Engine queues: token FIFOs, the conditions under which a command starts, and nests (06 R138-R144, 09
R233-R235, 11 R269, R274, R280). -/

namespace Sys2Proof.Machine

open Sys2Proof

/-! ### Tokens (R140, R141) -/

/-- Depth of a token FIFO. -/
def tokenDepth : Nat := 8

/-- Every FIFO that token bits wait on holds a token. -/
def Tile.waitsOk (tl : Tile) (e : Engine) (tok : BitVec 4) : Bool :=
  match e with
  | .C => true
  | .L => !tok.getLsbD 3 || 0 < tl.tokXL
  | .X => (!tok.getLsbD 3 || 0 < tl.tokLX) && (!tok.getLsbD 2 || 0 < tl.tokSX)
  | .S => !tok.getLsbD 3 || 0 < tl.tokXS

/-- Pops one token of each FIFO that token bits wait on. -/
def Tile.popWaits (tl : Tile) (e : Engine) (tok : BitVec 4) : Tile :=
  let one (k : Nat) : Nat := if tok.getLsbD k then 1 else 0
  match e with
  | .C => tl
  | .L => { tl with tokXL := tl.tokXL - one 3 }
  | .X => { tl with tokLX := tl.tokLX - one 3, tokSX := tl.tokSX - one 2 }
  | .S => { tl with tokXS := tl.tokXS - one 3 }

/-- Pushes the gives that have room: bit 1 is the first give of the engine, bit 0 the second. What stays owed is
returned. -/
def Tile.pushGives (tl : Tile) (e : Engine) (give : BitVec 2) : Tile × BitVec 2 :=
  let g1 := give.getLsbD 1
  let g0 := give.getLsbD 0
  match e with
  | .C => (tl, 0)
  | .L => if g1 && tl.tokLX < tokenDepth then ({ tl with tokLX := tl.tokLX + 1 }, 0) else (tl, give &&& 2)
  | .X =>
    let p1 := g1 && tl.tokXL < tokenDepth
    let p0 := g0 && tl.tokXS < tokenDepth
    ({ tl with tokXL := if p1 then tl.tokXL + 1 else tl.tokXL, tokXS := if p0 then tl.tokXS + 1 else tl.tokXS },
     (if p1 then 0 else give &&& 2) ||| (if p0 then 0 else give &&& 1))
  | .S => if g1 && tl.tokSX < tokenDepth then ({ tl with tokSX := tl.tokSX + 1 }, 0) else (tl, give &&& 2)

/-- The give bits of a word. -/
def giveBits (w : IWord) : BitVec 2 := w.extractLsb' 26 2

/-! ### Start conditions (R139, R142, R269, R274) -/

/-- The spans of a word for an entry. -/
def spansAs (s : State) (t : Nat) (q : QEntry) (w : IWord) : List Span :=
  match decode w with
  | .error _ => []
  | .ok i => wordSpans t (s.focused t q.id) i

/-- What an entry touches: its word, or its nest block and the replay it has reached. -/
def entrySpans (s : State) (t : Nat) (q : QEntry) : List Span :=
  spansAs s t q q.word ++ (if q.nest.isSome then spansAs s t q q.active else [])

/-- The range checker lets a word of an entry start (R142). -/
def rangeClear (s : State) (t : Nat) (e : Engine) (q : QEntry) (w : IWord) : Bool :=
  let a := spansAs s t q w
  (((s.tile t).ahead e q.id).filter QEntry.inFlight).all fun p => !spansConflict a (entrySpans s t p)

/-- The stream port of an `rcv`, `snd` or `eos` word. -/
def streamPort (e : Engine) (w : IWord) : Option Nat :=
  if (e = .L && classOf w = 3) || (e = .S && (classOf w = 3 || classOf w = 5)) then some (w.extractLsb' 16 2).toNat
  else none

/-- No command of the queue ahead is using the same port in the same direction (R269). -/
def portClear (tl : Tile) (e : Engine) (q : QEntry) (w : IWord) : Bool :=
  match streamPort e w with
  | none => true
  | some p => ((tl.ahead e q.id).filter QEntry.inFlight).all fun k => streamPort e k.active ≠ some p

/-- Every write that S has made to other tiles is performed at its destination's scope, and no note is owed (R267, R274). -/
def sWritesPerformed (s : State) (t : Nat) : Bool :=
  let n := (s.tile t).sStamp
  (s.tile t).notes.isEmpty && (s.flits.all fun f => !(s.inScope t 2 f.pubTile) || f.pubTile = t || n ≤ f.flit.stamp) &&
    s.tiles.all fun (u, tl) => !(s.inScope t 2 u) || u = t || tl.batches.all fun (_, b) => b.all fun f => n ≤ f.stamp

/-- The rules of single commands about when they start: `eos` (R274), `wld` and `wswap` (R226). -/
def ownRule (s : State) (t : Nat) (e : Engine) (q : QEntry) (w : IWord) : Bool :=
  if e = .S && classOf w = 5 then ((s.tile t).ahead e q.id).isEmpty && sWritesPerformed s t
  else if e = .X && (classOf w = 3 || classOf w = 4) then (s.tile t).wpend.isNone
  else true

/-- A word of an entry may start: its tokens are there, and the checks of R142, R226, R269 and R274 are clear. -/
def mayStart (s : State) (t : Nat) (e : Engine) (q : QEntry) (w : IWord) (popped : Bool) : Bool :=
  (popped || (s.tile t).waitsOk e (tokOf w)) && rangeClear s t e q w && portClear (s.tile t) e q w && ownRule s t e q w

/-! ### Nests (R144, R233-R235, R280) -/

/-- The nest block's reserved bits are zero, and no descriptor has two enabled slots (R234). -/
def blockLegal (b : Line) : Bool :=
  let slot (k : Nat) : Nat := blockField b (12 + k) 1
  let on (k : Nat) : Bool := 128 ≤ slot k
  (List.range 3).all (fun k => slot k / 16 % 8 = 0) && blockField b 15 1 = 0 && blockField b 52 12 = 0
    && !(on 0 && on 1 && slot 0 = slot 1) && !(on 0 && on 2 && slot 0 = slot 2) && !(on 1 && on 2 && slot 1 = slot 2)

/-- The indices of the body words of a nest at `from_`: the next words of its engine, up to a flow word, a `nest` or
the other X pipe (R144). The flag says that the body is whole; the index is where the counter goes on. -/
def bodyIndices (tl : Tile) (e : Engine) (pipe : Option Bool) (n : Nat) : Nat → Nat → List Nat × Bool × Nat
  | i, 0 => ([], n = 0, i)
  | i, fuel + 1 =>
    if n = 0 then ([], true, i)
    else if tl.nwords ≤ i then ([], false, i)
    else
      let w := tGet 0 tl.istore i
      if isFlow w then ([], false, i)
      else if engOf w ≠ e then bodyIndices tl e pipe n (i + 1) fuel
      else if isNest w then ([], false, i)
      else if e = .X && (pipe.map (· != isRowPipe w)).getD false then ([], false, i)
      else
        let (is, ok, j) := bodyIndices tl e (some (isRowPipe w)) (n - 1) (i + 1) fuel
        (i :: is, ok, j)

/-- The body of the nest at an index. -/
def nestBody (tl : Tile) (e : Engine) (index : Nat) : List Nat × Bool × Nat :=
  bodyIndices tl e none (nestCount (tGet 0 tl.istore index)) (index + 1) (tl.nwords - index)

/-- Runs a body word as the entry in focus. -/
def runReplay (s : State) (t : Nat) (e : Engine) (w : IWord) : Out :=
  match decode w with
  | .error _ => .next (trapCommand s t e .ILLOP 0)
  | .ok i => match runWord i with
    | none => .next (trapCommand s t e .ILLOP 0)
    | some f => f s

/-- A give push of an entry: behind one that it holds already it waits too; otherwise it is made as far as the FIFOs have room,
and what has none stays owed (R141). -/
def QEntry.giveTo (q : QEntry) (tl : Tile) (e : Engine) (give : BitVec 2) : Tile × QEntry :=
  if q.owed ≠ 0 then (tl, { q with more := if give = 0 then q.more else q.more ++ [give] })
  else
    let (tl1, owed) := tl.pushGives e give
    (tl1, { q with owed := owed })

/-- A replay has completed: its give tokens are pushed, those of a `wld` when its write phase ends (R226), and the nest goes to
its next word or point. -/
def finishReplay (s : State) (t : Nat) (e : Engine) (q : QEntry) (n : NestState) (w : IWord) : State :=
  let last := q.body.length ≤ n.body + 1
  let later := e = .X && classOf w = 3 && (s.tile t).wpend.isSome
  let next : NestState :=
    { n with body := if last then 0 else n.body + 1, point := if last then n.point + 1 else n.point, started := false
             popped := false, wgive := if later then some (giveBits w) else n.wgive }
  let (tl, q1) := q.giveTo (s.tile t) e (if later then 0 else giveBits w)
  (s.setTile t tl).onEntry t e fun k =>
    { k with phase := .running, nest := some next, prog := .start, owed := q1.owed, more := q1.more }

/-- What follows a run of a replay: it has completed, or it waits, or it has trapped. -/
def afterReplay (s : State) (t : Nat) (e : Engine) (n : NestState) (w : IWord) : State :=
  match s.entryOf t e with
  | none => s
  | some q => if q.phase ≠ .performed then s else finishReplay s t e q n w

/-- A breakpoint on a body word hits when its replay would start (R375): the register and the word's index. -/
def replayBreak (s : State) (t : Nat) (e : Engine) (q : QEntry) (n : NestState) : Option (Nat × Nat) :=
  if q.pushed then none
  else match (nestBody (s.tile t) e q.index).1[n.body]? with
    | none => none
    | some i => (breakpointOf (s.tile t) e i).map fun k => (k, i)

/-- Starts the replay that a nest has reached, if it may start: its tokens are popped, but for a retry, and it runs (R144,
R235, R369). -/
def startReplay (s : State) (t : Nat) (e : Engine) (q : QEntry) (n : NestState) (w : IWord) : Out :=
  if !mayStart s t e q w n.popped then .next s
  else
    match replayBreak s t e q n, (s.tile t).dbgCtl.getLsbD 1 with
    | some (k, i), false =>
      .next (deliverTrap (s.onEntry t e fun q => { q with phase := .trapped }) t e .BRKPT (BitVec.ofNat 14 k) i (some q.id))
    | hit, _ =>
      let s0 := if hit.isSome then s.onTile t (·.clearSkip) else s
      let n1 := { n with started := true, popped := true }
      let s1 := (if n.popped then s0 else s0.onTile t (·.popWaits e (tokOf w))).onEntry t e fun q =>
        { q with phase := .running, nest := some n1, prog := .start }
      match runReplay s1 t e w with
      | .next s2 => .next (afterReplay s2 t e n1 w)
      | o => o

/-- One step of a nest that has begun (R235). DESIGN CHOICE (log 13): its replays may start while another command of its engine
holds a give push; R141 holds back the commands that start later. While it holds a give push no replay starts (R141), but under a lull sequence it
runs to its end, and keeps the pushes of its later replays behind that one (R145, R372). It is performed when its last replay is
complete, a `wld` with its write phase. -/
def nestStep (s : State) (t : Nat) (e : Engine) (q : QEntry) (n : NestState) : Out :=
  match (if blockPoints n.block ≤ n.point then none else q.body[n.body]?) with
  | none => .next (if n.wgive.isSome then s else s.onEntry t e fun q => { q with phase := .performed })
  | some w =>
    if n.started then
      match runReplay s t e w with
      | .next s2 => .next (afterReplay s2 t e n w)
      | o => o
    else if q.owed ≠ 0 && (s.tile t).lull = .none then .next s
    else startReplay s t e q n w

/-- The descriptors that the body of a nest names are among those captured: one that holds an uncorrectable error is not
(R74, R235, R380). -/
def bodyCaptured (q : QEntry) (caps : Table Tlr) : Bool :=
  q.body.all fun w => match decode w with
    | .error _ => true
    | .ok i => (descsOf i).all fun g => (tFind caps g.toNat).isSome

/-- The start of a nest: its block is read and checked, its wait tokens are popped, and its descriptors are captured
once (R234, R235). A token of the engine that is still to write a byte of the block comes first (R299). -/
def nestBegin (e : Engine) (w : BitVec 4) (off : BitVec 15) (t : Nat) (s : State) : Res State := do
  checkArea off 64
  if s.ownToken t e t (areaOf off) 64 then .error .stall
  let v ← readArea s t (areaOf off) 64
  let b : Line := BitVec.ofNat 512 v
  check (blockLegal b) .RSVD
  let s1 ← guards s t [ownSpan s t (areaOf off) 64 true false]
  match s1.entryOf t e with
  | none => .ok s1
  | some q =>
    let caps := if q.caps.isEmpty then (s.tile t).captureAll else q.caps
    let s2 := (if q.popped then s1 else s1.onTile t (·.popWaits e w)).onEntry t e fun q => { q with popped := true }
    if !bodyCaptured q caps then .error (.trapIn s2 .MEMERR 0)
    else .error (.wait (s2.onEntry t e fun q =>
      { q with caps := caps, prog := .start
               nest := some { block := b, point := 0, body := 0, started := false, popped := false, wgive := none } }))

/-- A `nest` (R144, R235): ILLOP for a body that R144 refuses, then its block, then one replay at each step. -/
def nestRun (e : Engine) (w : BitVec 4) (off : BitVec 15) (s : State) : Out :=
  let t := s.here
  match s.entryOf t e with
  | none => runCmd e s (nestBegin e w off)
  | some q =>
    if q.badNest then .next (trapCommand s t e .ILLOP 0)
    else match q.nest with
      | none => runCmd e s (nestBegin e w off)
      | some n => nestStep s t e q n

/-- The L `nest` (R280). -/
def execLNest (w gv : BitVec 1) (_nb : BitVec 4) (off : BitVec 15) (s : State) : Out :=
  nestRun .L (w ++ 0#1 ++ gv ++ 0#1) off s

/-- The X `nest` (R235). -/
def execXNest (wl ws gl gs : BitVec 1) (_nb : BitVec 4) (off : BitVec 15) (s : State) : Out :=
  nestRun .X (wl ++ ws ++ gl ++ gs) off s

/-- The S `nest` (R280). -/
def execSNest (w gv : BitVec 1) (_nb : BitVec 4) (off : BitVec 15) (s : State) : Out :=
  nestRun .S (w ++ 0#1 ++ gv ++ 0#1) off s

/-- Runs an instruction, a `nest` included. -/
def runInstr (i : Instr) (s : State) : Out :=
  match i with
  | .lNest w gv nb off => execLNest w gv nb off s
  | .xNest wl ws gl gs nb off => execXNest wl ws gl gs nb off s
  | .sNest w gv nb off => execSNest w gv nb off s
  | i => match runWord i with
    | none => .next s
    | some f => f s

end Sys2Proof.Machine
end

