-- ==== Sys2Proof/Machine/Issue.lean ====
section
/-! DEFINITION. The steps of the tile sequencer: counters, outcomes, command start and completion, draining (06 R128-R144,
R156, 15 R375, R379). -/

namespace Sys2Proof.Machine

open Sys2Proof

/-! ### Words (R130, R156, R379) -/

/-- The text that a tile runs, from the image-store copy (R14, R28). -/
def State.textOf (s : State) (t : Nat) : Option TextSec :=
  match s.ctxOf t with
  | none => none
  | some c => match s.imageOf c with
    | none => none
    | some im =>
      let rel := (s.tile t).tileId.toNat
      match im.tileMap[rel / 64 * im.width + rel % 64]? with
      | none => none
      | some k => im.texts[k]?

/-- A trap that stopped no command is being handled, or waits: its counter holds (R130, R379). -/
def Tile.fetchHeld (tl : Tile) (e : Engine) : Bool :=
  tl.pending.any (fun p => p.eng == e && p.entry.isNone) ||
    (tl.inHandler && tl.trapNoCmd && tl.trapCause.toNat / 2 ^ 30 % 4 = engCode e)

/-- A word with an uncorrectable error is reloaded, or its counter raises MEMERR (R379). -/
def badWord (s : State) (t : Nat) (e : Engine) (pc : Nat) : State :=
  if (s.tile t).istoreWritten then
    if (s.tile t).fetchHeld e then s else deliverTrap s t e .MEMERR 0 pc
  else
    s.onTile t fun tl =>
      { tl with istoreBad := tErase tl.istoreBad pc
                istore := tSet 0 tl.istore pc (match s.textOf t with
                  | none => tGet 0 tl.istore pc
                  | some x => (x.words[pc]?).getD 0) }

/-- A counter that arrives at NWORDS raises ILLOP, once for the arrival (R130). -/
def pastEnd (s : State) (t : Nat) (e : Engine) : State :=
  let c := (s.tile t).counter e
  if c.ended then s
  else
    deliverTrap (s.onTile t (·.setCounter e { c with ended := true, st := .waiting })) t e .ILLOP 0 (s.tile t).nwords

/-- A counter skips a word (R130). -/
def skipWord (s : State) (t : Nat) (e : Engine) : State :=
  let c := (s.tile t).counter e
  s.onTile t (·.setCounter e { c with pc := c.pc + 1, st := .running })

/-- A counter waits at its word (R129). -/
def waitAt (s : State) (t : Nat) (e : Engine) : State :=
  let c := (s.tile t).counter e
  s.onTile t (·.setCounter e { c with st := .waiting })

/-- The word is a `rep`, which executes the word after it (R184). -/
def isRep (w : IWord) : Bool :=
  match decode w with
  | .ok (.rep _ _ _ _ _) => true
  | _ => false

/-- The breakpoint register that hits the word at C's counter. A word that C has begun is no new hit: it waits there, or C
stands between two repetitions of it (R375). -/
def breakpointAtC (tl : Tile) : Option Nat :=
  if tl.cntC.st = .waiting || tl.repOn then none else breakpointOf tl .C tl.cntC.pc

/-- C executes the word at its counter (R130, R156, R375). -/
def issueC (s : State) (t : Nat) (w : IWord) : Out :=
  let tl := s.tile t
  let pc := tl.cntC.pc
  match breakpointAtC tl, tl.dbgCtl.getLsbD 1 with
  | some k, false => .next (deliverTrap s t .C .BRKPT (BitVec.ofNat 14 k) pc)
  | h, _ =>
    let s1 := if h.isSome then s.onTile t (·.clearSkip) else s
    match decode w with
    | .error _ => .next (deliverTrap s1 t .C .ILLOP 0 pc)
    | .ok i => runInstr i (s1.focused t 0)

/-- An entry for a word (R138). -/
def newEntry (tl : Tile) (w : IWord) (index epoch : Nat) (body : List IWord) (bad pushed : Bool) : QEntry :=
  { id := tl.nextId, word := w, index := index, pushed := pushed, epoch := epoch, body := body, badNest := bad,
    phase := .queued, popped := false, caps := [], prog := .start, nest := none, stopped := false, owed := 0,
    more := [] }

/-- Entries of an engine queue (R138). -/
def queueDepth : Nat := 32

/-- The loop buffer of an engine is in use (R144). -/
def Tile.loopBusy (tl : Tile) (e : Engine) : Bool :=
  (tl.queue e).any fun q => isNest q.word && (q.phase == .queued || q.phase == .running || q.phase == .trapped)

/-- The first word with an uncorrectable error among those that a `nest` at the counter copies or stops at (R144, R379). -/
def badBody (tl : Tile) (e : Engine) (pc : Nat) : Option Nat :=
  let (_, ok, next) := nestBody tl e pc
  ((List.range (next - pc + if ok then 0 else 1)).map (pc + ·)).find? fun i => tGet false tl.istoreBad i

/-- L, X or S issues its word into its queue, if there is room ahead of no push (R138, R144, R339). -/
def issueEngine (s : State) (t : Nat) (e : Engine) (w : IWord) : State :=
  let tl := s.tile t
  let pc := (tl.counter e).pc
  if queueDepth ≤ (tl.queue e).length || !(tl.pushes e).isEmpty then waitAt s t e
  else if isNest w then
    if tl.loopBusy e then waitAt s t e
    else match badBody tl e pc with
    | some i => badWord s t e i
    | none =>
      let (is, ok, next) := nestBody tl e pc
      let q := newEntry tl w pc (tl.consumed e) (is.map fun i => tGet 0 tl.istore i) (!ok) false
      s.setTile t (({ tl with nextId := tl.nextId + 1 }.setQueue e (tl.queue e ++ [q])).setCounter e
        { tl.counter e with pc := next, st := .running })
  else
    let q := newEntry tl w pc (tl.consumed e) [] false false
    s.setTile t (({ tl with nextId := tl.nextId + 1 }.setQueue e (tl.queue e ++ [q])).setCounter e
      { tl.counter e with pc := pc + 1, st := .running })

/-- `WORD_ISSUE` (R130): the counter issues its word, executes it, skips it, or waits. -/
def execWordIssue (t : Nat) (e : Engine) (s : State) : Out :=
  let tl := s.tile t
  let c := tl.counter e
  if c.st = .halted || tl.lull ≠ .none then .next s
  else if tl.nwords ≤ c.pc then .next (pastEnd s t e)
  else if tGet false tl.istoreBad c.pc then .next (badWord s t e c.pc)
  else
    let w := tGet 0 tl.istore c.pc
    if e = .C then
      if engOf w ≠ .C then .next (skipWord s t .C)
      else if isRep w && tGet false tl.istoreBad (c.pc + 1) then .next (badWord s t .C (c.pc + 1))
      else issueC s t w
    else if isFlow w then .next (waitAt s t e)
    else if engOf w = e then .next (issueEngine s t e w)
    else .next (skipWord s t e)

/-! ### Outcomes (R132, R135) -/

/-- Counts an outcome as consumed. -/
def Tile.consume (tl : Tile) : Engine → Tile
  | .C => tl
  | .L => { tl with consL := tl.consL + 1 }
  | .X => { tl with consX := tl.consX + 1 }
  | .S => { tl with consS := tl.consS + 1 }

/-- A counter follows an outcome. -/
def Counter.follow (c : Counter) (o : FlowOutcome) : Counter :=
  match o with
  | .goto i => { pc := i, st := .running, ended := false }
  | .halt => { c with st := .halted, ended := false }

/-- The counter stands at a flow word, or waits at NWORDS as at one (R130). -/
def Tile.atFlow (tl : Tile) (e : Engine) : Bool :=
  let c := tl.counter e
  if tl.nwords ≤ c.pc then c.ended else !tGet false tl.istoreBad c.pc && isFlow (tGet 0 tl.istore c.pc)

/-- `FLOW_OUTCOME_TAKE` (R132): the next outcome is consumed and followed. -/
def execFlowOutcomeTake (t : Nat) (e : Engine) (s : State) : Out :=
  let tl := s.tile t
  let c := tl.counter e
  if e = .C || c.st = .halted || tl.lull ≠ .none || !tl.atFlow e then .next s
  else match tl.outcomes[tl.consumed e - tl.freed]? with
    | none => .next (waitAt s t e)
    | some o =>
      let s1 := s.setTile t (((tl.setCounter e (c.follow o)).consume e).freeOutcomes)
      .next (if (s1.tile t).allHalted then closeBatches s1 t else s1)

/-! ### Start (R139, R156, R339) -/

/-- The entry that may start next: every entry ahead of it has started and runs, or has performed its accesses; none while
the engine holds a give push (R141). -/
def nextEntry (tl : Tile) (e : Engine) : Option QEntry :=
  if (tl.queue e).any (·.owed ≠ 0) then none
  else match (tl.queue e).find? (fun q => !q.inFlight) with
  | none => none
  | some q => if q.phase = .queued && !q.stopped then some q else none

/-- An L or S engine has fewer than 4 commands in flight; the X pipe of the entry is idle (R139). -/
def engineFree (tl : Tile) (e : Engine) (q : QEntry) : Bool :=
  if e = .X then !tl.pipeBusy q.rowPipe else ((tl.queue e).filter QEntry.inFlight).length < 4

/-- A pushed word that R339 refuses. -/
def pushRefused (e : Engine) (q : QEntry) : Bool :=
  q.pushed && (tokOf q.word ≠ 0 || isNest q.word || engOf q.word ≠ e)

/-- The word, or a word of the nest's body, names a descriptor (R74). -/
def QEntry.namesDesc (q : QEntry) : Bool :=
  (q.word :: q.body).any fun w => match decode w with
    | .ok i => Machine.namesDesc i
    | .error _ => false

/-- C has retired every instruction that stands before the command (R74); a pushed command does not wait (R339). -/
def captureReady (tl : Tile) (q : QEntry) : Bool :=
  !q.namesDesc || q.pushed || !q.caps.isEmpty || !placeBefore tl.cPlace (q.epoch, q.index)

/-- A command is held from starting in a tile that is under a lull sequence, in a phase, or halted by an escalation
(R327, R370, R372). -/
def Tile.holdsStart (tl : Tile) : Bool := tl.lull ≠ .none || tl.phase.isSome || tl.escalated

/-- C stands at a `bart`: until the instance that it arrives at has completed, no command behind its place in the text
starts, and no pushed one, so that none is in flight when the phase opens (R327). -/
def Tile.atBart (tl : Tile) : Bool :=
  match decode (tGet 0 tl.istore tl.cPlace.2) with
  | .ok (.bart _ _) => tl.cPlace.2 < tl.nwords
  | _ => false

/-- A command that a `bart` at C's place holds back. -/
def Tile.bartHolds (tl : Tile) (q : QEntry) : Bool :=
  tl.atBart && (q.pushed || !placeBefore (q.epoch, q.index) tl.cPlace)

/-- The entry that can start now, with its descriptors captured (R74, R139). -/
def startable (s : State) (t : Nat) (e : Engine) : Option QEntry :=
  let tl := s.tile t
  if tl.holdsStart then none
  else match nextEntry tl e with
    | none => none
    | some q =>
      if tl.bartHolds q then none
      else if pushRefused e q then some q
      else if !(engineFree tl e q && captureReady tl q) then none
      else
        let q1 := { q with caps := if q.caps.isEmpty && q.namesDesc then tl.captureAll else q.caps }
        let s1 := s.setTile t (tl.setQueue e ((tl.queue e).map fun k => if k.id = q.id then q1 else k))
        if mayStart s1 t e q1 q1.word q1.popped then some q1 else none

/-- Starts an entry: its wait tokens are popped, and it runs; an encoding that is no instruction raises ILLOP
(R156). A nest pops its tokens when its block has been checked (R235). -/
def startEntry (s : State) (t : Nat) (e : Engine) (q : QEntry) : Out :=
  let s0 := s.focused t q.id
  let pop := !q.popped && !isNest q.word && !q.pushed
  let s1 := if pop then s0.onTile t (·.popWaits e (tokOf q.word)) else s0
  let s2 := s1.onEntry t e fun k =>
    { k with phase := .running, caps := q.caps, popped := q.popped || !isNest q.word }
  if pushRefused e q then .next (trapCommand s2 t e .ILLOP 0)
  else match decode q.word with
    | .error _ => .next (trapCommand s2 t e .ILLOP 0)
    | .ok i => runInstr i s2

/-- `COMMAND_START` (R139): the next command of the queue starts, unless a breakpoint hits it (R375); a nest that `eret` retries,
and a command that went back to its queue after it began, have started already, and go on. -/
def execCommandStart (t : Nat) (e : Engine) (s : State) : Out :=
  match startable s t e with
  | none => .next s
  | some q =>
    let tl := s.tile t
    match (if q.pushed || q.nest.isSome || q.prog.begun then none else breakpointOf tl e q.index), tl.dbgCtl.getLsbD 1 with
    | some k, false =>
      .next (trapCommand (s.focused t q.id) t e .BRKPT (BitVec.ofNat 14 k))
    | h, _ => startEntry (if h.isSome then s.onTile t (·.clearSkip) else s) t e q

/-! ### Completion (R141) -/

/-- Takes an entry from its queue. -/
def dropEntry (s : State) (t : Nat) (e : Engine) (id : Nat) : State :=
  s.onTile t fun tl => tl.setQueue e ((tl.queue e).filter fun q => q.id ≠ id)

/-- A command completes: its gives are pushed; one that a full FIFO holds keeps the entry (R141). -/
def completeEntry (s : State) (t : Nat) (e : Engine) (q : QEntry) : State :=
  if q.pushed then dropEntry s t e q.id
  else
    let (tl, q1) := q.giveTo (s.tile t) e (giveBits q.word)
    let s1 := s.setTile t tl
    if q1.owed = 0 then dropEntry s1 t e q.id
    else s1.onTile t fun tl => tl.setQueue e ((tl.queue e).map fun k =>
      if k.id = q.id then { k with phase := .held, owed := q1.owed, more := q1.more } else k)

/-- `COMMAND_COMPLETE` (R141): a command whose accesses are performed completes; one that waits goes on from where it
stands, as far as it can; the note that an S command owes follows its completion (R267). -/
def execCommandComplete (t : Nat) (e : Engine) (entry : Nat) (s : State) : Out :=
  let tl := s.tile t
  match (tl.queue e).find? (fun q => q.id = entry) with
  | none => .next (if e = .S then match tl.notes.find? (·.entry = entry) with
      | none => s
      | some n => oweNote s t n
    else s)
  | some q =>
    match q.phase with
    | .performed => .next (if e = .X && tl.inWritePhase q then s else completeEntry s t e q)
    | .running => match decode q.word with
      | .ok i => runInstr i (s.focused t entry)
      | .error _ => .next s
    | _ => .next s

/-- An entry whose held push is now down to these gives: once they are all pushed, the next push that waits behind them is
held. -/
def QEntry.owing (q : QEntry) (owed : BitVec 2) : QEntry :=
  if owed = 0 then match q.more with
    | [] => { q with owed := 0 }
    | g :: rest => { q with owed := g, more := rest }
  else { q with owed := owed }

/-- `HELD_TOKEN_PUSH` (R141): a held push is performed as far as the FIFO has room. -/
def execHeldTokenPush (t : Nat) (e : Engine) (entry : Nat) (s : State) : Out :=
  let tl := s.tile t
  match (tl.queue e).find? (fun q => q.id = entry && q.owed ≠ 0 && tl.lull ≠ .sealed) with
  | none => .next s
  | some q =>
    let (tl1, owed) := tl.pushGives e q.owed
    let s1 := s.setTile t (tl1.setQueue e ((tl1.queue e).map fun k => if k.id = entry then k.owing owed else k))
    .next (if (q.owing owed).owed = 0 && q.phase = .held then dropEntry s1 t e entry else s1)

/-- The entries of a table below a key, and from a key on. -/
def keysBelow {α : Type} (m : Table α) (b : Nat) : Table α := m.filter fun e => e.1 < b
def keysFrom {α : Type} (m : Table α) (b : Nat) : Table α := m.filter fun e => b ≤ e.1

/-- The latch after a write phase: the lines of the load are written whole (R224, R226). -/
def writeLatch (tl : Tile) (bytes : Table Byte) (lines : Nat) : Tile :=
  let b := inactiveBase tl
  let tl1 := tl.clearBad (0x214000 + b) (64 * lines)
  let tl2 := { tl1 with wpend := none
                        latch := keysBelow tl.latch b ++ bytes ++ keysFrom tl.latch (b + 64 * lines) }
  if tl.actW then { tl2 with lw0 := lines } else { tl2 with lw1 := lines }

/-- The `wld` that a nest has replayed is complete: its give tokens are pushed (R141, R226). -/
def endNestWld (s : State) (t : Nat) : State :=
  match (s.tile t).qX.find? fun q => (q.nest.bind (·.wgive)).isSome with
  | none => s
  | some q =>
    let (tl, q1) := q.giveTo (s.tile t) .X ((q.nest.bind (·.wgive)).getD 0)
    let q2 := { q1 with nest := q.nest.map fun n => { n with wgive := none } }
    s.setTile t (tl.setQueue .X ((tl.queue .X).map fun k => if k.id = q.id then q2 else k))

/-- `WLD_WRITE_PHASE_END` (R226): the inactive half is written, and the `wld` is complete. -/
def execWldWritePhaseEnd (t : Nat) (s : State) : Out :=
  let tl := s.tile t
  match tl.wpend with
  | none => .next s
  | some (bytes, lines) =>
    let s1 := s.setTile t (writeLatch tl bytes lines)
    match tl.qX.find? (fun q => tl.inWritePhase q) with
    | none => .next (endNestWld s1 t)
    | some q => .next (completeEntry s1 t .X q)

/-! ### Draining (R136) -/

/-- An entry has nothing in flight: it has not started, or no push that it holds has room (R141). DESIGN CHOICE (log 13): a
command, or a nest with replays left, that holds such a push ends no more, and so is no command in flight for the drain of R136,
which then raises TOKERR. -/
def QEntry.still (tl : Tile) (e : Engine) (q : QEntry) : Bool :=
  if q.owed = 0 then !q.inFlight else (tl.pushGives e q.owed).2 == q.owed

/-- The next command of S is an `eos` that waits for writes to be performed: it can start once they are (R274). -/
def eosWaits (s : State) (t : Nat) : Bool :=
  !sWritesPerformed s t && (nextEntry (s.tile t) .S).any fun q => classOf q.word = 5

/-- Nothing of the tile is in flight, a note among it (R267), and no queued command can start. -/
def drainOver (s : State) (t : Nat) : Bool :=
  let tl := s.tile t
  tl.notes.isEmpty && !eosWaits s t && [Engine.L, .X, .S].all fun e => ((tl.queue e).all fun q => q.still tl e) && (startable s t e).isNone

/-- INFO of TOKERR: the FIFOs and the queues that were not empty (R136, R366). -/
def leftovers (tl : Tile) : BitVec 14 :=
  BitVec.ofNat 14 (bitAt (tl.tokLX ≠ 0) 0 + bitAt (tl.tokXL ≠ 0) 1 + bitAt (tl.tokXS ≠ 0) 2 + bitAt (tl.tokSX ≠ 0) 3
    + bitAt (!tl.qL.isEmpty) 4 + bitAt (!tl.qX.isEmpty) 5 + bitAt (!tl.qS.isEmpty) 6)

/-- Empties the token FIFOs and the engine queues. -/
def Tile.emptied (tl : Tile) : Tile :=
  { tl with tokLX := 0, tokXL := 0, tokXS := 0, tokSX := 0, qL := [], qX := [], qS := [] }

/-- `TILE_DRAIN_END` (R136): the tile is halted, so that its X writes are visible on every die (R312), or C takes TOKERR at
its `halt`. -/
def execTileDrainEnd (t : Nat) (s : State) : Out :=
  let tl := s.tile t
  match tl.haltedAt with
  | none => .next s
  | some h =>
    if !tl.allHalted || tl.drained || tl.lull ≠ .none || tl.escalated || !drainOver s t then .next s
    else if leftovers tl = 0 then .next (s.setTile t { tl with drained := true, xOld := [] })
    else .next (deliverTrap (s.setTile t tl.emptied) t .C .TOKERR (leftovers tl) h)

end Sys2Proof.Machine
end

