-- ==== Sys2Proof/Machine/Runs.lean ====
section
/-! DEFINITION. Runs: their start, their end and their failure, page service, and the destruction of a context (04 R92-R97,
R389, 11 R270, R285, 15 R370, R371, 16 R382-R386). -/

namespace Sys2Proof.Machine

open Sys2Proof

/-- The tiles of a context that is on the module. -/
def Context.tiles (c : Context) : List Nat := if c.onModule then c.tileList else []

/-- Changes every tile of a context. -/
def State.onTiles (s : State) (ts : List Nat) (f : Tile → Tile) : State := ts.foldl (fun s t => s.onTile t f) s

/-! ### Stopping a context (R370) -/

/-- Empties the branch-outcome queue, as every counter has consumed it. -/
def Tile.noOutcomes (tl : Tile) : Tile := { tl with outcomes := [], freed := 0, consL := 0, consX := 0, consS := 0 }

/-- A tile whose counters are halted and whose commands and tokens are discarded; its barrier arrivals that wait are
withdrawn and its transfer phase is closed (R370, log 24). -/
def Tile.stop (tl : Tile) : Tile :=
  { tl.emptied.noOutcomes with
    cntC := tl.cntC.halt, cntL := tl.cntL.halt, cntX := tl.cntX.halt, cntS := tl.cntS.halt,
    cwait := none, relSince := none, inHandler := false, trapNoCmd := false, trapAtEnd := false, trapEntry := none, repOn := false, pending := [],
    haltedAt := none, drained := true,
    escalated := false, wpend := none, slotWaits := [], pushL := [], pushX := [], pushS := [],
    phase := none, linkIn := [], linkOut := [], forward := [],
    arrivals := tl.arrivals.map fun (k, a) => (k, { a with waiting := false, done := false }) }

/-- A page waiter of a context's commands, or of its generators. -/
def waiterOf (ts : List Nat) (n : Nat) : PageWaiter → Bool
  | .c t => ts.contains t
  | .command t _ _ => ts.contains t
  | .generator k _ => k = n
  | .request _ => false

/-- The records of a sealed context as bytes, one after another: each tile's image, then the regions and the generators
(R373). -/
def SealedRecord.parts (r : SealedRecord) : List (List Byte) :=
  r.tiles.map (fun (_, tl) => Config.tileBytes tl) ++ [r.regions.flatMap Config.regionBytes ++ r.gens.flatMap Config.genBytes]

/-- The SHA3-256 of each of them (R373). -/
def sealsOf (r : SealedRecord) : List (BitVec 256) := r.parts.map sha3

/-- Where the records of a context number begin. -/
def recordStart (n : Nat) : Nat := Config.recordBase n % hbmBytes

/-- Writes bytes to device memory under a key, line by line. -/
def writeLines (s : State) (key a : Nat) (bs : List Byte) : State :=
  (linePieces a bs.length).foldl (fun s (p, l) => devWrite s key p ((bs.drop (p - a)).take l)) s

/-- The records lie in the memory that firmware reserves for them, encrypted under their context's key (R291, R373). -/
def storeRecord (s : State) (n : Nat) (r : SealedRecord) : State :=
  writeLines s (((tFind s.ctxs n).map (·.key)).getD 0) (recordStart n) r.parts.flatten

/-- Puts the records of a context away, and keeps their seals (R373). -/
def putRecord (s : State) (n : Nat) (r : SealedRecord) : State :=
  { storeRecord s n r with seals := tInsert s.seals n (sealsOf r) }.onCtx n fun c => { c with sealedRec := some r }

/-- Parts of these lengths, of bytes that lie one after another. -/
def splitBytes (bs : List Byte) : List Nat → List (List Byte)
  | [] => []
  | k :: ks => bs.take k :: splitBytes (bs.drop k) ks

/-- The seals of the records as they are read back under a context's key; none where a line of them is poisoned (R374). -/
def sealsRead (s : State) (n key : Nat) (r : SealedRecord) : Option (List (BitVec 256)) :=
  let len := r.parts.flatten.length
  if poisoned s.devPoison (recordStart n) len 64 then none
  else some ((splitBytes (devBytes s key (recordStart n) len) (r.parts.map List.length)).map sha3)

/-- STEPS 3 AND 4 OF R370: the tiles halt, their batches leave (R357), queued commands and tokens are discarded, and the
generators stop; in a context that is sealed away, as its record holds them, which is sealed again; a record that differs from
its seal stays as it is (R374). -/
def stopContext (s : State) (n : Nat) : State :=
  match tFind s.ctxs n with
  | none => s
  | some c =>
    let ts := c.tiles
    let s0 := (ts.foldl closeBatches s).onTiles ts Tile.stop
    let s1 : State := match c.sealedRec with
      | none => s0
      | some r => if tFind s.seals n = sealsRead s n c.key r then putRecord s0 n { r with tiles := r.tiles.map fun (k, tl) => (k, tl.stop) }
        else s0
    let s2 := s1.onCtx n fun c => { c with gens := c.gens.map fun (k, g) => (k, { g with active := false, page := none }) }
    { s2 with
      pageFaults := s2.pageFaults.filter fun f => !waiterOf ts n f.who
      hostRequests := s2.hostRequests.filter fun f => !waiterOf ts n f.who
      spillAsks := s2.spillAsks.filter fun t => !ts.contains t }

/-! ### Records of runs (R99, R386) -/

/-- A binding completes: with the context busy until its record is written (R95). -/
def completeBinding (s : State) (n : Nat) (b : Binding) (r : Report99) : State :=
  complete (s.onCtx n fun c => { c with busy := true }) b.src b.cq (recordBody b.src b.runtag.toNat { r with ctx := n })
    b.ctok b.cirq (some n)

/-- The run ends: its operands are kept for the next (R91), and its record follows. -/
def endRun (s : State) (n : Nat) (b : Binding) (r : Report99) : State :=
  match tFind s.ctxs n with
  | none => s
  | some c =>
    let ops := mergedOps (s.endpointsOf c) b.ops c.lastOps
    completeBinding ({ s with stamp := s.stamp + 1 }.onCtx n fun c =>
      { c with run := none, lastOps := ops, idleSince := s.stamp, aged := 0 }) n b r

/-- Every sink of the context has met its EOS condition (R382). -/
def sinksMet (s : State) (c : Context) : Bool :=
  (s.endpointsOf c).zipIdx.all fun (e, i) => !e.sink || (c.generator i).met

/-- RESULT of a run that ends with OK: its duration, saturating (R385, log 5). -/
def durationOf (s : State) : Nat := min (Config.runMicroseconds s.tick).toNat 0xFFFFFFFF

/-- An `sth` of the context is in flight: its writes come before the record (R314). -/
def hostStoring (s : State) (c : Context) : Bool :=
  c.tiles.any fun t => (s.tile t).qS.any fun q => (hostWork s t .S q).isSome

/-- The word that a generator finds at its port. -/
def genHead (s : State) (im : Image) (e : Endpoint) (t : Nat) : Option StreamWord :=
  if atRegion im e then ((s.tile t).inFifo e.port).head? else ((s.tile t).outFifo e.port).head?

/-- A HOST-OUT generator of the run has writes under way: it is stopped on a page of its buffer, or a word is before it (R314). -/
def hostWriting (s : State) (c : Context) : Bool :=
  c.onModule && match s.imageOf c with
    | none => false
    | some im => im.endpoints.zipIdx.any fun (e, i) =>
      let g := c.generator i
      e.kind = .hostOut && g.active && (g.page.isSome || !g.unsent.isEmpty || (genHead s im e (c.tileAt e.tile)).isSome)

/-- `RUN_COMPLETION` (R383, R314). -/
def execRunCompletion (n : Nat) (s : State) : Out :=
  match tFind s.ctxs n with
  | none => .next s
  | some c => match c.run with
    | none => .next s
    | some r =>
      if r.fail.isSome || !sinksMet s c || s.postedCount n c.gen ≠ 0 || hostStoring s c || hostWriting s c then .next s
      else .next (endRun s n r.binding { Status.plain .OK with result := durationOf s })

/-- The record of a failure (R386). -/
def RunFail.report (f : RunFail) : Report99 :=
  { status := f.status, ctx := 0, result := f.result.toNat, fepid := f.epid.toNat, faddr := f.addr.toNat }

/-- Steps 3 and 4 of R370 for a failed run, once. -/
def stopRun (s : State) (n : Nat) (r : Run) : State :=
  if r.stopped then s
  else (stopContext s n).onCtx n fun c => { c with run := c.run.map fun r => { r with stopped := true } }

/-- `RUN_FAILURE` (R386): the context stops, and the record is written once no posted request is outstanding. Those of a
failed link are not (R399). -/
def execRunFailure (n : Nat) (s : State) : Out :=
  match tFind s.ctxs n with
  | none => .next s
  | some c => match c.run with
    | none => .next s
    | some r => match r.fail with
      | none => .next s
      | some f =>
        let s1 := stopRun s n r
        .next (if s1.postedCount n c.gen = 0 then endRun s1 n r.binding f.report else s1)

/-! ### Escalation (R370) -/

/-- RESULT of an escalated trap. -/
def reportResult (r : Report) : Word :=
  BitVec.ofNat 64 (r.index % 2 ^ 15 * 2 ^ 32 + engCode r.eng * 2 ^ 24 + r.cause.code * 2 ^ 16 + r.rel.toNat)

/-- The context that a report concerns, while it lives: it may have left its tiles since. -/
def Report.live (s : State) (r : Report) : Option Nat :=
  match r.ctx with
  | none => none
  | some n => if (tFind s.ctxs n).map (·.gen) = some r.gen then some n else none

/-- `TRAP_ESCALATION` (R370): the first report to reach the Front stops its context and fails its run, or waits for the
next binding; a context that has been sealed since is stopped as its record holds it. -/
def execTrapEscalation (s : State) : Out :=
  match s.reports with
  | [] => .next s
  | r :: rest =>
    match r.live s with
    | none => .next { s with reports := rest }
    | some n =>
      let v := reportResult r
      let s1 := stopContext { s with reports := rest.filter fun k => !(k.ctx = some n && k.gen = r.gen) } n
      let s2 := failRun s1 n { status := Status.CTXFAULT.code, epid := 0, addr := 0, result := v }
      .next (s2.onCtx n fun c => match c.run with
        | some r => { c with run := some { r with stopped := true } }
        | none => { c with heldFault := match c.heldFault with
                                        | none => some v
                                        | some w => some w })

/-! ### Starting a binding (R92, R96, R97, R129) -/

/-- Effective priority (R96). -/
def Binding.eff (b : Binding) : Nat := min 3 (b.prio + b.aged)

/-- The binding that a context could start: it is placed and idle, with a FIFO that is not empty. -/
def Context.ready (c : Context) : Option Binding :=
  if c.phase = .placed && c.run.isNone && !c.busy && c.destroy.isNone then c.fifo.head? else none

/-- One binding is started before another: a higher effective priority, or an earlier validation. -/
def Binding.before (a b : Binding) : Bool := b.eff < a.eff || (a.eff = b.eff && a.stamp ≤ b.stamp)

/-- The dispatcher's next binding is this one (R96). -/
def chosen (s : State) (b : Binding) : Bool :=
  s.ctxs.all fun (_, c) => match c.ready with
    | none => true
    | some k => b.before k

/-- The words that a JET-IN grants when it is bound (R400). -/
def jetWindow : Nat := 64

/-- The number of a stream to a peer under a tag (R400). -/
def streamKey (peer : BitVec 12) (stag : BitVec 24) : Nat := peer.toNat * 2 ^ 24 + stag.toNat

/-- A generator as a run starts it, with the credit that its stream has (R282, R284, R400). What it kept for the next run
stays, but for the words of a stream that a JET-IN had not delivered. -/
def startGenerator (e : Endpoint) (credit : Nat) (g : Generator) : Generator :=
  { g with active := decide (e.kind ≠ .hostToken), next := 0, eos := false, met := false, midBurst := false,
           page := none, hostPage := false, lull := .none, credit := credit,
           unsent := if e.kind = .jetIn then [] else g.unsent }

/-- The credit of the stream that an operand names: what the generator has of it, and what was granted meanwhile. -/
def streamCredit (s : State) (c : Context) (i : Nat) (o : Operand) : Nat :=
  match o with
  | .jetOut peer stag =>
    min jetWindow ((if c.operand i = o then (c.generator i).credit else 0) + tGet 0 s.grants (streamKey peer stag))
  | _ => 0

/-- The credit of a stream that a JET-OUT leaves for another stays granted, and the one it takes is its own. -/
def moveCredit (s : State) (c : Context) (i : Nat) (o : Operand) : State :=
  let s1 := match c.operand i with
    | .jetOut peer stag =>
      let k := streamKey peer stag
      { s with grants := tSet 0 s.grants k (min jetWindow (tGet 0 s.grants k + (c.generator i).credit)) }
    | _ => s
  match o with
  | .jetOut peer stag => { s1 with grants := tErase s1.grants (streamKey peer stag) }
  | _ => s1

/-- The queues that the endpoints' operands name; one that a queue had before keeps its words (R284). -/
def ringsOf (ops : Table Operand) (old : List QueueRing) : List QueueRing :=
  ((queueOperands ops).eraseDups).map fun (b, k) =>
    match old.find? fun q => q.base = b && q.cap = k with
    | some q => q
    | none => { base := b, cap := k, head := 0, tail := 0 }

/-- The jet port of an endpoint (R108). -/
def Context.jetOf (c : Context) (e : Endpoint) : Option Nat := c.jets[e.jetIdx]?

/-- A bound JET-IN grants its window of words. -/
def grantWindow (s : State) (c : Context) (ops : Table Operand) (i : Nat) (e : Endpoint) : State :=
  match e.kind, tGet Operand.none ops i, c.jetOf e with
  | .jetIn, .jetIn stag, some p => sendJet s p (.credit stag jetWindow)
  | _, _, _ => s

/-- Step 1 of R97: the generators take the bindings, and the operands that the last run left (R91). -/
def programGenerators (s : State) (n : Nat) (c : Context) (b : Binding) : State :=
  let eps := s.endpointsOf c
  let ops := mergedOps eps b.ops c.lastOps
  let s0 := eps.zipIdx.foldl (fun s (_, i) => moveCredit s c i (tGet .none ops i)) s
  let s1 := s0.onCtx n fun c =>
    { c with gens := eps.zipIdx.foldl (fun m (e, i) =>
               tSet .idle m i (startGenerator e (streamCredit s c i (tGet .none ops i)) (tGet .idle m i))) c.gens
             queues := ringsOf ops c.queues
             lastOps := ops }
  eps.zipIdx.foldl (fun s (e, i) => grantWindow s c ops i e) s1

/-- The argument band of the C private area (R92). -/
def argBase : Nat := 0x1F3F00

/-- Step 2 of R97: the argument block, with zeros above it, in every tile that has a program (R92). -/
def writeArgs (s : State) (ts : List Nat) (args : List Byte) : State :=
  let bs := (args ++ List.replicate 256 0).take 256
  ts.foldl (fun s t => if (s.tile t).hasText then scratchWrite s t argBase bs 0 false false else s) s

/-- A tile that is halted starts at ENTRY (R129). -/
def Tile.start (tl : Tile) : Tile :=
  if tl.hasText && tl.drained && tl.allHalted then
    let c : Counter := { pc := tl.entry, st := .running, ended := false }
    { tl.noOutcomes with cntC := c, cntL := c, cntX := c, cntS := c, haltedAt := none, escalated := false,
                         drained := false }
  else tl

/-- COUNT of a counter node is 0 at a run's start token (R341). -/
def Tile.zeroCounters (tl : Tile) : Tile :=
  { tl with routes := tl.routes.map fun (k, n) => (k, if n.kind = 3 then { n with count := 0, zseq := 0 } else n) }

/-- STARTING A BINDING (R97): generators, arguments, and the start tokens. -/
def startBinding (s : State) (n : Nat) (c : Context) (b : Binding) : State :=
  let s1 := programGenerators s n c b
  let s2 := writeArgs s1 c.tiles b.args
  let s3 := s2.onTiles c.tiles fun tl => tl.start.zeroCounters
  s3.onCtx n fun c => { c with run := some { binding := b, fail := none, stopped := false }, fifo := c.fifo.tail }

/-- `BINDING_START` (R97). A fault that waits for the next binding completes it in place of a start (R370), and the context may then become idle (R109). -/
def execBindingStart (n : Nat) (s : State) : Out :=
  match tFind s.ctxs n with
  | none => .next s
  | some c => match c.ready with
    | none => .next s
    | some b =>
      if !chosen s b then .next s
      else match c.heldFault with
        | none => .next (startBinding s n c b)
        | some v => .next (completeBinding ({ s with stamp := s.stamp + 1 }.onCtx n fun c =>
            { c with fifo := c.fifo.tail, heldFault := none, idleSince := s.stamp }) n b
            { Status.plain .CTXFAULT with result := v.toNat })

/-- Ages the head of a FIFO. -/
def ageHead : List Binding → List Binding
  | [] => []
  | b :: rest => (if b.eff < 3 then { b with aged := b.aged + 1 } else b) :: rest

/-- `PRIORITY_AGEING` (R96, R388): the head of the FIFO, or the run that waits to be placed again, gains a step. -/
def execPriorityAgeing (n : Nat) (s : State) : Out :=
  .next (s.onCtx n fun c =>
    if c.run.isSome && c.phase = .resident then { c with aged := min 3 (c.aged + 1) }
    else { c with fifo := ageHead c.fifo })

/-! ### Page service (R270, R285, R371) -/

/-- A stream ends on a failure (R285): its generator stops, and the run fails. -/
def endStream (s : State) (n i : Nat) (status : Nat) (epid : BitVec 16) (addr : Nat) : State :=
  failRun (s.onGen n i fun g => { g with active := false, page := none }) n
    { status := status, epid := epid, addr := BitVec.ofNat 64 addr, result := 0 }

/-- The EPID of an endpoint. -/
def State.epidOf (s : State) (n i : Nat) : BitVec 16 :=
  match tFind s.ctxs n with
  | none => 0
  | some c => ((s.endpoint c i).map (·.epid)).getD 0

/-- The answer of fault service reaches whoever stopped on the page (R371). -/
def answerPage (s : State) (who : PageWaiter) (va : Nat) (ok : Bool) : State :=
  match who with
  | .c t => s.onTile t fun tl => match tl.cwait with
    | some (.page v none) => { tl with cwait := some (.page v (some ok)) }
    | _ => tl
  | .command t e id => s.onTile t fun tl => tl.setQueue e ((tl.queue e).map fun q =>
      match q.prog.page with
      | some (v, none) => if q.id = id then { q with prog := { q.prog with page := some (v, some ok) } } else q
      | _ => q)
  | .generator n i =>
    if ok then s.onGen n i fun g => { g with page := none }
    else endStream s n i Status.STREAMFAULT.code (s.epidOf n i) va
  | .request _ => s

/-- The key slot of a context, 0 to 8,191 (R287, R291). -/
def State.keySlotOf (s : State) (c : Context) : Nat := ((s.keySlots.find? fun (_, k) => k = c.key).map (·.1)).getD 0

/-- The range entries that a context's templates and backing give, whether or not it is placed (R287, R288). -/
def State.rangesOf (s : State) (n : Nat) (c : Context) : List RangeEntry :=
  match s.imageOf c with
  | none => []
  | some im => (im.templates.zip c.backing).map fun (tm, b) => rangeOf n c.gen (s.keySlotOf c) tm b

/-- The pages that the functions' contexts map. -/
def State.usedPages (s : State) (f : Nat) : List Nat :=
  s.ctxs.flatMap fun (n, c) =>
    if c.func = f then ((s.rangesOf n c).filter fun r => r.paged && !r.peer).flatMap (mappedPages s) else []

/-- The lowest page of the function's pool that none of its contexts maps (R371). -/
def State.poolPage (s : State) (f : Nat) : Option Nat :=
  let fn := s.function f
  let used := s.usedPages f
  ((List.range (min (fn.poolSize.toNat / pageSize) (used.length + 1))).map fun k =>
    fn.poolBase.toNat + pageSize * k).find? fun a => !used.contains a

/-- Writes a page with zeros under a key. -/
def zeroPage (s : State) (key a : Nat) : State :=
  { s with devMem := s.devMem.filter fun c => !(a ≤ c.1 && c.1 < a + pageSize)
           devPoison := s.devPoison.filter fun c => !(a ≤ 64 * c.1 && 64 * c.1 < a + pageSize)
           devKey := (List.range 512).foldl (fun m k => tSet 0 m (a / 128 + k) key) s.devKey }

/-- Backs a page of a range, if the pool has one; the ports shoot down what they hold of the page (R290, R371). -/
def backPage (s : State) (c : Context) (r : RangeEntry) (va : Nat) : Option State :=
  match s.poolPage c.func with
  | none => none
  | some a =>
    let s1 := zeroPage s (if r.plain then 0 else c.key) a
    let page := r.vbase + (va - r.vbase) / pageSize * pageSize
    some (shootDown (devWrite s1 0 (r.pbase + 8 * ((va - r.vbase) / pageSize)) (natBytes 8 (a + 1))) r.ctx c page (page + pageSize))

/-- `FAULT_SERVICE` (R371): the oldest fault is backed from the pool, or answered with no backing. -/
def execFaultService (s : State) : Out :=
  match s.pageFaults with
  | [] => .next s
  | f :: rest =>
    let s1 := { s with pageFaults := rest }
    match tFind s.ctxs f.ctx with
    | none => .next s1
    | some c =>
      if c.gen ≠ f.gen then .next s1
      else match translate s1 c f.va 1 false false with
        | .error (.page _) => match c.rangeOf f.va 1 with
          | none => .next (answerPage s1 f.who f.va false)
          | some r => match backPage s1 c r f.va with
            | none => .next (answerPage s1 f.who f.va false)
            | some s2 => .next (answerPage s2 f.who f.va true)
        | .error _ => .next (answerPage s1 f.who f.va false)
        | .ok _ => .next (answerPage s1 f.who f.va true)

/-- A failed host page request ends what waits on it (R270, R285). -/
def refuseHostPage (s : State) (r : HostRequest) (status : Nat) : State :=
  match r.who with
  | .command t e id => abandonHost s t e id status r.iova r.epid
  | .generator n i => endStream s n i status r.epid r.iova
  | _ => s

/-- `HOST_PAGE_RESPONSE` (R270): an answer to a request that no longer stands is discarded. -/
def execHostPageResponse (req : Nat) (granted : Bool) (s : State) : Out :=
  match s.hostRequests.find? (fun r => r.number = req) with
  | none => .next s
  | some r =>
    let s1 := { s with hostRequests := s.hostRequests.erase r }
    if ((tFind s.ctxs r.ctx).map (·.gen)) ≠ some r.gen then .next s1
    else if granted then
      .next (answerPage { s1 with atsCache := tSet false s1.atsCache (atsKey r.space r.iova) true } r.who r.iova true)
    else .next (refuseHostPage s1 r Status.STREAMFAULT.code)

/-- `POSTED_STORE_ACK` (R384): the peer has performed a request. -/
def execPostedStoreAck (request : Nat) (s : State) : Out :=
  .next { s with posted := s.posted.filter fun p => p.number ≠ request }

/-! ### Destruction (R389, R390) -/

/-- Every binding of a FIFO completes with KILLED, in order. -/
def killFifo (s : State) (n : Nat) (bs : List Binding) : State :=
  bs.foldl (fun s b => complete s b.src b.cq (recordBody b.src b.runtag.toNat (Status.KILLED.on n)) b.ctok b.cirq none) s

/-- The active run completes with KILLED, then the bindings of the FIFO (R389). -/
def killRuns (s : State) (n : Nat) (c : Context) : State :=
  killFifo s n ((c.run.map fun r => [r.binding]).getD [] ++ c.fifo)

/-- Records still held no longer keep the context of their number busy. -/
def detachRecords (s : State) (n : Nat) : State :=
  { s with held := s.held.map fun h => if h.ctx = some n then { h with ctx := none } else h }

/-- The tiles of the west column take the clearing token (R116). A context that is not on the module holds no tile. -/
def beginClearing (s : State) (n : Nat) (c : Context) : State :=
  let ts := c.tiles
  let s1 := s.onTiles (ts.filter fun t => colOf t = c.col) fun tl => { tl with clearing := true }
  s1.onCtx n fun c => { c with phase := if c.onModule then .clearing else .leaving, toClear := ts, run := if c.destroy.isSome then none else c.run }

/-- DESTROYING A CONTEXT, up to its clearing (steps 1 to 4 of R389): with KILLED records, or silently at a reset. -/
def destroyContext (s : State) (n : Nat) (d : Destroy) : State :=
  match tFind s.ctxs n with
  | none => s
  | some c =>
    let s1 := stopContext s n
    let s2 := if d.silent then s1 else killRuns s1 n c
    let s3 := (detachRecords s2 n).onCtx n fun c => { c with fifo := [], run := none, destroy := some d, evictAsked := false }
    let s4 := { s3 with lulls := s3.lulls.filter fun (k, _) => match k with
                          | .tile t => !c.tiles.contains t
                          | .generator m _ => m ≠ n }
    if c.phase = .clearing || c.phase = .leaving then s4 else beginClearing s4 n c

/-- A `CTXDESTROY` (R389): its record follows the clearing. -/
def handleCtxdestroy : Handler := fun s l src p =>
  match checkCtx s l p false with
  | .error r => some (rejectPacket s src p r)
  | .ok _ => some (destroyContext s (pktCtx p)
      { src := src, runtag := BitVec.ofNat 32 (pktTag p), silent := false })

/-- `CTXDESTROY` (R389). -/
def execCtxdestroy (src : PktSrc) (p : BitVec 512) (s : State) : Out := packetRow src p (· = 0x09) handleCtxdestroy s

end Sys2Proof.Machine
end

