-- ==== Sys2Proof/Machine/Generators.lean ====
section
/-! DEFINITION. Endpoint generators: streams of device memory, host memory, queues and jet links (11 R282-R285, 15 R372, 16
R382, R400). -/

namespace Sys2Proof.Machine

open Sys2Proof

/-! ### Ports of generators -/

/-- An endpoint of a context that is on the module: the context, the image, the endpoint, and its tile. -/
def State.endpointAt (s : State) (n i : Nat) : Option (Context × Image × Endpoint × Nat) :=
  match tFind s.ctxs n with
  | none => none
  | some c =>
    if !c.onModule then none
    else match s.imageOf c with
      | none => none
      | some im => match im.endpoints[i]? with
        | none => none
        | some e => some (c, im, e, c.tileAt e.tile)

/-- Room for a word from a generator: towards the inbound port, or in the FIFO of the port that feeds a region
(R121). -/
def genRoom (s : State) (im : Image) (e : Endpoint) (t : Nat) : Bool :=
  if atRegion im e then outRoom s t e.port else s.inRoom t e.port

/-- A generator delivers a word. -/
def genDeliver (s : State) (im : Image) (e : Endpoint) (t : Nat) (w : StreamWord) : State :=
  if atRegion im e then putOut s t e.port w else deliver s t e.port w

/-- Takes it. -/
def genTake (s : State) (im : Image) (e : Endpoint) (t : Nat) : State :=
  if atRegion im e then takeIn s t e.port else takeOut s t e.port

/-- A feeding generator sends its marker, and has saved its position (R372). -/
def sendMarker (s : State) (n i : Nat) (im : Image) (e : Endpoint) (t : Nat) : State :=
  if genRoom s im e t then (genDeliver s im e t marker).onGen n i fun g => { g with lull := .saved } else s

/-- Words to a burst of an endpoint's stream (R282). -/
def burstWords (e : Endpoint) : Nat := max 1 ((e.burst * elemBits e.fmt + 511) / 512)

/-! ### Accesses of generators (R285) -/

/-- What an access of a generator meets. -/
inductive GenStop where
  /-- The stream ends with a status at an address. -/
  | fail (status : Status) (addr : Nat)
  /-- A page of device memory, or of the host, is not there. -/
  | page (va : Nat)
  | hostPage (space iova : Nat)
  | wait
  deriving DecidableEq, Repr

/-- The share class of a run's generators, in place of the range entries' (R89, R103, R282). -/
def Context.shareOver (c : Context) : Option Nat :=
  match c.run with
  | some r => if r.binding.shovr then some r.binding.share else none
  | none => none

/-- A stop of memory as a generator meets it (R285, R311). -/
def genStop (va : Nat) : MStop → GenStop
  | .refuse _ => .fail .STREAMFAULT va
  | .page a => .page a
  | .busy => .wait

/-- A run of bytes of device memory, read for a generator through the context's port (R282, R286). -/
def genRead (s : State) (n : Nat) (c : Context) (cls : BitVec 4) (va k : Nat) : Except GenStop (List Byte × State) :=
  match translate s c va k true false with
  | .error m => .error (genStop va m)
  | .ok r => match routeRead s r k with
    | .error m => .error (genStop va m)
    | .ok bs => .ok (bs, portAccess s n c va k false c.shareOver cls)

/-- A run of bytes of device memory, written for the generator of endpoint `i` in the endpoint's ordering class (R282). -/
def genWrite (s : State) (n i : Nat) (c : Context) (e : Endpoint) (va : Nat) (bs : List Byte) : Except GenStop State :=
  match translate s c va bs.length false true with
  | .error m => .error (genStop va m)
  | .ok r => .ok (routeWrite (portAccess s n c va bs.length true c.shareOver e.oc) n (.generator n i) e.oc r bs)

/-- A host page that may be used: the link is up, its security stands, and the ATS cache holds the page (R270, R391). -/
def hostPageReady (s : State) (c : Context) (space iova : Nat) : Except GenStop Unit :=
  if !s.linkUp then .error (.fail .HOSTLINK iova)
  else if !s.hostReady c.func then .error .wait
  else if tGet false s.atsCache (atsKey space iova) then .ok ()
  else .error (.hostPage space iova)

/-- Line `k` of a bound buffer, read. -/
def bufferRead (s : State) (n : Nat) (c : Context) (e : Endpoint) (o : Operand) (k : Nat) : Except GenStop (List Byte × State) :=
  match o with
  | .mem va _ => genRead s n c e.oc (va + 64 * k) 64
  | .host space iova _ => do
    hostPageReady s c space (iova + 64 * k)
    .ok ((s.host space).readBytes (iova + 64 * k) 64, s)
  | _ => .error .wait

/-- Line `k` of a bound buffer, written. -/
def bufferWrite (s : State) (n i : Nat) (c : Context) (e : Endpoint) (o : Operand) (k : Nat) (bs : List Byte) :
    Except GenStop State :=
  match o with
  | .mem va _ => genWrite s n i c e (va + 64 * k) bs
  | .host space iova _ => do
    hostPageReady s c space (iova + 64 * k)
    .ok (s.hostWrite space (iova + 64 * k) bs)
  | _ => .error .wait

/-- Lines of a bound buffer, and the address of one. -/
def Operand.lines : Operand → Nat
  | .mem _ n => n
  | .host _ _ n => n
  | _ => 0
def Operand.addr (o : Operand) (k : Nat) : Nat :=
  match o with
  | .mem va _ => va + 64 * k
  | .host _ a _ => a + 64 * k
  | _ => 0

/-- What a generator does at a stop (R285): the stream ends, or it waits for the page. -/
def stopGenerator (s : State) (n i : Nat) (c : Context) (e : Endpoint) (x : GenStop) : State :=
  match x with
  | .fail st a => endStream s n i st.code e.epid a
  | .page va =>
    let s1 := s.onGen n i fun g => { g with page := some (va, none), hostPage := false }
    { s1 with pageFaults := s1.pageFaults ++ [{ ctx := n, gen := c.gen, va := va, who := .generator n i }] }
  | .hostPage space iova =>
    askHost (s.onGen n i fun g => { g with page := some (iova, none), hostPage := true }) n c.gen space iova e.epid
      (.generator n i)
  | .wait => s

/-! ### MEM-IN, HOST-IN and HOST-TOKEN (R98, R282) -/

/-- Sends the next line, or the EOS. -/
def sendLine (s : State) (n i : Nat) (c : Context) (im : Image) (e : Endpoint) (t : Nat) : State :=
  let g := c.generator i
  let o := c.operand i
  if !genRoom s im e t then s
  else if o.lines ≤ g.next then
    (genDeliver s im e t eosWord).onGen n i fun g => { g with active := false, eos := true, midBurst := false }
  else match bufferRead s n c e o g.next with
    | .error x => stopGenerator s n i c e x
    | .ok (bs, s1) =>
      let ends := (g.next + 1) % burstWords e = 0 || g.next + 1 = o.lines
      let w : StreamWord := { data := BitVec.ofNat 512 (bytesNat bs), kind := if ends then 1 else 0 }
      (genDeliver s1 im e t w).onGen n i fun g => { g with next := g.next + 1, midBurst := !ends }

/-- Sends the next token (R282). -/
def sendHostToken (s : State) (n i : Nat) (c : Context) (im : Image) (e : Endpoint) (t : Nat) : State :=
  match (c.generator i).tokens with
  | [] => s
  | v :: rest =>
    if genRoom s im e t then
      (genDeliver s im e t { data := v, kind := 1 }).onGen n i fun g => { g with tokens := rest }
    else s

/-- `INPUT_GENERATOR_WORD` (R282): the next line, EOS or token; or the marker, at a burst boundary (R372). -/
def execInputGeneratorWord (n i : Nat) (s : State) : Out :=
  match s.endpointAt n i with
  | none => .next s
  | some (c, im, e, t) =>
    let g := c.generator i
    let kindOk := e.kind = .memIn || e.kind = .hostIn || e.kind = .hostToken
    if !kindOk || g.page.isSome || g.lull = .saved then .next s
    else if g.lull = .asked && (!g.midBurst || !g.active) then .next (sendMarker s n i im e t)
    else if e.kind = .hostToken then .next (sendHostToken s n i c im e t)
    else if g.active then .next (sendLine s n i c im e t)
    else .next s

/-! ### MEM-OUT and HOST-OUT (R91, R282) -/

/-- A word that the generator has before it: one kept from before, or the head of its port. The flag says it is kept. -/
def nextWord (s : State) (im : Image) (e : Endpoint) (t : Nat) (g : Generator) : Option (StreamWord × Bool) :=
  match g.unsent with
  | w :: _ => some (w, true)
  | [] => (genHead s im e t).map fun w => (w, false)

/-- Takes that word. -/
def dropWord (s : State) (n i : Nat) (im : Image) (e : Endpoint) (t : Nat) (kept : Bool) : State :=
  if kept then s.onGen n i fun g => { g with unsent := g.unsent.tail } else genTake s im e t

/-- Under a lull sequence, a JET-OUT generator keeps the words before its marker that it has not sent (R372). DESIGN CHOICE
(log 23): so does an output or QUEUE generator that has no buffer or ring to put them in. -/
def keepWord (s : State) (n i : Nat) (im : Image) (e : Endpoint) (t : Nat) : State :=
  match genHead s im e t with
  | none => s
  | some w =>
    let s1 := genTake s im e t
    if w.isMarker then s1.onGen n i fun g => { g with lull := .saved }
    else s1.onGen n i fun g => { g with unsent := g.unsent ++ [w] }

/-- Writes a word to the next line of the buffer, or ends the stream (R91). -/
def writeLine (s : State) (n i : Nat) (c : Context) (im : Image) (e : Endpoint) (t : Nat) (w : StreamWord)
    (kept : Bool) : State :=
  let g := c.generator i
  let o := c.operand i
  if w.isMarker then (dropWord s n i im e t kept).onGen n i fun g => { g with lull := .saved }
  else if w.isEos then
    (dropWord s n i im e t kept).onGen n i fun g => { g with active := false, eos := true, met := true }
  else if o.lines ≤ g.next then endStream s n i Status.STREAMFAULT.code e.epid (o.addr o.lines)
  else match bufferWrite s n i c e o g.next (natBytes 64 w.data.toNat) with
    | .error x => stopGenerator s n i c e x
    | .ok s1 => (dropWord s1 n i im e t kept).onGen n i fun g => { g with next := g.next + 1 }

/-- A generator whose stream has ended, or has not begun, under a lull sequence: the words before its marker are written
where its operand still has lines (R372); a word that finds none is kept. -/
def drainLine (s : State) (n i : Nat) (c : Context) (im : Image) (e : Endpoint) (t : Nat) : State :=
  let g := c.generator i
  let o := c.operand i
  match genHead s im e t with
  | none => s
  | some w =>
    if w.isMarker || w.isEos || o.lines ≤ g.next then keepWord s n i im e t
    else match bufferWrite s n i c e o g.next (natBytes 64 w.data.toNat) with
      | .error (.fail _ _) => keepWord s n i im e t
      | .error x => stopGenerator s n i c e x
      | .ok s1 => (genTake s1 im e t).onGen n i fun g => { g with next := g.next + 1 }

/-- `OUTPUT_GENERATOR_WORD` (R282): the next word is written; an EOS ends the stream and meets the sink's condition
(R382). -/
def execOutputGeneratorWord (n i : Nat) (s : State) : Out :=
  match s.endpointAt n i with
  | none => .next s
  | some (c, im, e, t) =>
    let g := c.generator i
    if (e.kind ≠ .memOut && e.kind ≠ .hostOut) || g.page.isSome || g.lull = .saved then .next s
    else if !g.active then .next (if g.lull = .asked then drainLine s n i c im e t else s)
    else match nextWord s im e t g with
      | none => .next s
      | some (w, kept) => .next (writeLine s n i c im e t w kept)

/-! ### QUEUE (R284) -/

/-- The ring of an endpoint. -/
def Context.ring (c : Context) (i : Nat) : Option QueueRing :=
  match c.operand i with
  | .queue b k => c.queues.find? fun q => q.base = b && q.cap = k
  | _ => none

/-- Changes a ring of a context. -/
def State.onRing (s : State) (n : Nat) (q : QueueRing) (f : QueueRing → QueueRing) : State :=
  s.onCtx n fun c => { c with queues := c.queues.map fun k => if k.base = q.base && k.cap = q.cap then f k else k }

/-- The line that holds the kind of word `i`, and its place in it. -/
def QueueRing.kindAt (q : QueueRing) (i : Nat) : Nat × Nat :=
  (q.base + 64 * q.cap + 64 * (i / 256), i % 256 * 2)

/-- Stores a word and its kind. Both lines can be written before either is. -/
def queueStore (s : State) (n i : Nat) (c : Context) (e : Endpoint) (q : QueueRing) (w : StreamWord) : Except GenStop State := do
  let j := q.tail % q.cap
  let (ka, sh) := q.kindAt j
  let (old, s1) ← genRead s n c e.oc ka 64
  let v := bytesNat old
  let _ ← genWrite s1 n i c e ka old
  let s2 ← genWrite s1 n i c e (q.base + 64 * j) (natBytes 64 w.data.toNat)
  genWrite s2 n i c e ka (natBytes 64 (v - v / 2 ^ sh % 4 * 2 ^ sh + w.kind.toNat * 2 ^ sh))

/-- Reads the oldest word and its kind. -/
def queueLoad (s : State) (n : Nat) (c : Context) (e : Endpoint) (q : QueueRing) : Except GenStop (StreamWord × State) := do
  let j := q.head % q.cap
  let (ka, sh) := q.kindAt j
  let (k, s1) ← genRead s n c e.oc ka 64
  let (bs, s2) ← genRead s1 n c e.oc (q.base + 64 * j) 64
  .ok ({ data := BitVec.ofNat 512 (bytesNat bs), kind := BitVec.ofNat 2 (bytesNat k / 2 ^ sh) }, s2)

/-- A word enters the ring, and waits at the port while the ring is full (R284); an EOS meets the sink's condition
(R382). -/
def enqueueWord (s : State) (n i : Nat) (c : Context) (im : Image) (e : Endpoint) (t : Nat) (q : QueueRing)
    (w : StreamWord) (kept : Bool) : State :=
  if w.isMarker then (dropWord s n i im e t kept).onGen n i fun g => { g with lull := .saved }
  else if q.cap ≤ q.tail - q.head then s
  else match queueStore s n i c e q w with
    | .error x => stopGenerator s n i c e x
    | .ok s1 =>
      let s2 := (dropWord s1 n i im e t kept).onRing n q fun q => { q with tail := q.tail + 1 }
      s2.onGen n i fun g => { g with eos := g.eos || w.isEos, met := g.met || w.isEos }

/-- The stage that is loaded leaves the region port of a QUEUE endpoint unmapped: no word passes, and no marker comes
(R121, R124). -/
def offStage (s : State) (c : Context) (im : Image) (e : Endpoint) : Bool :=
  atRegion im e && !c.regions.any fun (_, r) => (s.regionPorts c r).any fun m => m.tile = e.tile && m.tport = e.port

/-- A generator off stage has nothing to do but to save its position (R372). -/
def idleOffStage (s : State) (n i : Nat) (g : Generator) : State :=
  if g.lull = .asked then s.onGen n i fun g => { g with lull := .saved } else s

/-- `QUEUE_ENQUEUE` (R284). -/
def execQueueEnqueue (n i : Nat) (s : State) : Out :=
  match s.endpointAt n i with
  | none => .next s
  | some (c, im, e, t) =>
    let g := c.generator i
    if e.kind ≠ .queue || queueFeeds im e || g.page.isSome || g.lull = .saved then .next s
    else if offStage s c im e then .next (idleOffStage s n i g)
    else match c.ring i, g.active || g.lull = .asked with
      | some q, true => match nextWord s im e t g with
        | none => .next s
        | some (w, kept) => .next (enqueueWord s n i c im e t q w kept)
      | _, _ => .next (if g.lull = .asked then keepWord s n i im e t else s)

/-- The oldest word leaves the ring. -/
def dequeueWord (s : State) (n i : Nat) (c : Context) (im : Image) (e : Endpoint) (t : Nat) (q : QueueRing) : State :=
  if q.tail ≤ q.head || !genRoom s im e t then s
  else match queueLoad s n c e q with
    | .error x => stopGenerator s n i c e x
    | .ok (w, s1) => ((genDeliver s1 im e t w).onRing n q fun q => { q with head := q.head + 1 }).onGen n i fun g =>
        { g with midBurst := decide (w.kind = 0) }

/-- `QUEUE_DEQUEUE` (R284): the oldest word; or the marker, at a burst boundary or when the queue is empty (R372). -/
def execQueueDequeue (n i : Nat) (s : State) : Out :=
  match s.endpointAt n i with
  | none => .next s
  | some (c, im, e, t) =>
    let g := c.generator i
    if e.kind ≠ .queue || !queueFeeds im e || g.page.isSome || g.lull = .saved then .next s
    else if offStage s c im e then .next (idleOffStage s n i g)
    else match c.ring i, g.active with
      | some q, true =>
        if g.lull = .asked && (!g.midBurst || decide (q.tail ≤ q.head)) then .next (sendMarker s n i im e t)
        else .next (dequeueWord s n i c im e t q)
      | _, _ => .next (if g.lull = .asked then sendMarker s n i im e t else s)

/-! ### Jet streams (R400) -/

/-- Sends a word under the endpoint's tag, against credit. -/
def jetSend (s : State) (n i : Nat) (im : Image) (e : Endpoint) (t : Nat) (port : Nat) (stag : BitVec 24)
    (w : StreamWord) (kept : Bool) : State :=
  (sendJet (dropWord s n i im e t kept) port (.word stag w)).onGen n i fun g =>
    { g with credit := g.credit - 1, eos := g.eos || w.isEos }

/-- `JET_OUT_WORD` (R400): the next word is sent, or kept when it comes before a marker and cannot be sent. -/
def execJetOutWord (n i : Nat) (s : State) : Out :=
  match s.endpointAt n i with
  | none => .next s
  | some (c, im, e, t) =>
    let g := c.generator i
    if e.kind ≠ .jetOut || g.lull = .saved then .next s
    else match c.operand i, c.jetOf e, nextWord s im e t g with
      | .jetOut peer stag, some p, some (w, kept) =>
        if w.isMarker then .next ((dropWord s n i im e t kept).onGen n i fun g => { g with lull := .saved })
        else if g.active && 0 < g.credit && (s.jet p).link = .up && (s.jet p).peer = peer then
          .next (jetSend s n i im e t p stag w kept)
        else .next (if g.lull = .asked then keepWord s n i im e t else s)
      | _, _, _ => .next (if g.lull = .asked then keepWord s n i im e t else s)

/-- A JET-IN endpoint of a context is bound to a tag at a port; while the context is sealed away, at any port. -/
def jetBound (s : State) (c : Context) (port : Nat) (stag : BitVec 24) : List Nat :=
  ((s.endpointsOf c).zipIdx.filter fun (e, i) =>
    e.kind = .jetIn && (c.generator i).active && c.operand i = .jetIn stag && (!c.onModule || c.jetOf e = some port)).map (·.2)

/-- A word that has arrived enters the FIFO of the JET-IN bound to its tag; without one it is discarded. -/
def jetArrive (s : State) (port : Nat) (stag : BitVec 24) (w : StreamWord) : State :=
  match (s.ctxs.flatMap fun (n, c) => (jetBound s c port stag).map fun i => (n, i)).head? with
  | none => s
  | some (n, i) => s.onGen n i fun g => { g with unsent := g.unsent ++ [w] }

/-- A JET-IN delivers the head of its FIFO and grants a word of credit; or sends its marker at a burst boundary. -/
def jetDeliver (s : State) (port n i : Nat) : State :=
  match s.endpointAt n i with
  | none => s
  | some (c, im, e, t) =>
    let g := c.generator i
    if e.kind ≠ .jetIn || c.jetOf e ≠ some port || g.lull = .saved then s
    else if g.lull = .asked && (!g.midBurst || !g.active) then sendMarker s n i im e t
    else match g.unsent, c.operand i with
      | w :: rest, .jetIn stag =>
        if !g.active || !genRoom s im e t then s
        else
          let s1 := (genDeliver s im e t w).onGen n i fun g =>
            { g with unsent := rest, midBurst := decide (w.kind = 0), eos := g.eos || w.isEos, active := !w.isEos }
          sendJet s1 port (.credit stag 1)
      | _, _ => s

/-- `JET_IN_WORD` (R400): the oldest word that has arrived reaches its endpoint, and the port's endpoints deliver. -/
def execJetInWord (port : Nat) (s : State) : Out :=
  let s1 := match (s.jet port).arrived with
    | [] => s
    | (stag, w) :: rest => jetArrive (s.onJet port fun j => { j with arrived := rest }) port stag w
  .next ((s1.ctxs.flatMap fun (n, c) => (List.range (s1.endpointsOf c).length).map fun i => (n, i)).foldl
    (fun s (n, i) => jetDeliver s port n i) s1)

/-- The final credit of a stream has come back, and its EOS was sent: the sink's condition is met (R382). -/
def Generator.addCredit (g : Generator) (k : Nat) : Generator :=
  if g.eos && g.credit + k = jetWindow then { g with credit := 0, met := true, active := false }
  else { g with credit := g.credit + k }

/-- Credit reaches a JET-OUT. A whole window is a JET-IN's that has just been bound, and the words it may send are these. -/
def Generator.takeCredit (g : Generator) (k : Nat) : Generator :=
  if k = jetWindow then { g with credit := k } else g.addCredit k

/-- The JET-OUT endpoints whose run sends a stream to a peer under a tag. -/
def State.jetSenders (s : State) (peer : BitVec 12) (stag : BitVec 24) : List (Nat × Nat) :=
  s.ctxs.flatMap fun (n, c) => ((s.endpointsOf c).zipIdx.filter fun (e, i) =>
    e.kind = .jetOut && (c.generator i).active && c.operand i = .jetOut peer stag).map fun (_, i) => (n, i)

/-- A credit message reaches the JET-OUT of its stream, or is kept for the run that will bind it (R400). -/
def jetCredit (s : State) (port : Nat) (stag : BitVec 24) (k : Nat) : State :=
  let peer := (s.jet port).peer
  let old := tGet 0 s.grants (streamKey peer stag)
  match s.jetSenders peer stag with
  | [] => { s with grants := tSet 0 s.grants (streamKey peer stag) (if k = jetWindow then k else min jetWindow (old + k)) }
  | outs => outs.foldl (fun s (n, i) => s.onGen n i (·.takeCredit k)) s

end Sys2Proof.Machine
end

