-- ==== Sys2Proof/Machine/Regions.lean ====
section
/-! DEFINITION. Logic regions: their stream ports, hot swaps, and the integrity of their configuration (05 R120-R127, 18
R410-R413), with the error log (15 R378, 16 R395). -/

namespace Sys2Proof.Machine

open Sys2Proof

/-! ### The error log (R378, R395) -/

/-- The number of a unit in the error log. -/
def unitCode : HwUnit → Nat
  | .scratchpad => 1 | .cacheWay => 2 | .configFrame => 3 | .instrStore => 4 | .registerFile => 5 | .jetLink => 6
  | .dieBridge => 7

/-- Kinds of error record. -/
def errCorrected : Nat := 1
def errUncorrectable : Nat := 2
def errTest : Nat := 3
def errSpare : Nat := 4
def errFatal : Nat := 5

/-- An error record: kind, unit code, number, class, time, address or frame. -/
def errorRecord (kind unit number cls time : Nat) (addr : Word) : BitVec 256 :=
  BitVec.ofNat 256 (kind % 2 ^ 8 + unit % 2 ^ 8 * 2 ^ 8 + number % 2 ^ 11 * 2 ^ 16 + cls % 4 * 2 ^ 27
    + time % 2 ^ 32 * 2 ^ 32 + addr.toNat * 2 ^ 64)

/-- Appends a record to the error log, which keeps the latest 128. -/
def logError (s : State) (kind unit number cls : Nat) (addr : Word) : State :=
  { s with errLog := tSet 0 s.errLog (s.errHead.toNat % 128)
             (errorRecord kind unit number cls (Config.policyTime s.tick).toNat addr)
           errHead := s.errHead + 1 }

/-- A unit of the device as one number. -/
def unitKey (unit : HwUnit) (index : Nat) : Nat := 8 * index + unitCode unit

/-- ECC detects an error in a unit: a record, and a targeted self-test at its next quiescent point (R378). -/
def noteError (s : State) (kind : Nat) (unit : HwUnit) (index number : Nat) (addr : Word) : State :=
  let s1 := logError s kind (unitCode unit) number 0 addr
  { s1 with unitFaults := tSet [] s1.unitFaults (unitKey unit index)
              (tGet [] s1.unitFaults (unitKey unit index) ++ [Config.policyTime s.tick])
            testsDue := tSet false s1.testsDue (unitKey unit index) true }

/-! ### The words of a region -/

/-- Codes of q5 at X = 0x7F, as BF16 (R411). -/
def q5Table (c : Nat) : Nat :=
  let m := [0x0000, 0x3E80, 0x3F00, 0x3F40, 0x3F80, 0x3FA0, 0x3FC0, 0x3FE0, 0x4000, 0x4020, 0x4040, 0x4060, 0x4080, 0x40A0,
    0x40C0, 0x40E0]
  (m[c % 16]?).getD 0 + c / 16 % 2 * 0x8000

/-- A value times a power of two. -/
def scaleVal (v : FVal) (k : Int) : FVal :=
  match v with
  | .num n m e => .num n m (e + k)
  | w => w

/-- One element of the decoder: an exact scaling of the code's value, or infinity (R412). -/
def q5Elem (x c : Nat) : Nat :=
  if x = 0xFF then 0x7FC0
  else (roundVal 1 0 0 (scaleVal (decodeSigned 1 (q5Table c)) ((x : Int) - 127))).1

/-- The output word of an input word (R410, R412). -/
def q5Word (w : Line) : Line :=
  BitVec.ofNat 512 (packElems 16 ((List.range 32).map fun i => q5Elem (w.toNat % 256) (w.toNat / 2 ^ (8 + 5 * i) % 32)))

/-- What the decoder emits for a word: EOS words unchanged (R413). -/
def q5Stream (w : StreamWord) : StreamWord := if w.isEos then w else { w with data := q5Word w.data }

/-- A word as the constants of Config see it. -/
def rawWord (w : StreamWord) : BitVec 512 × BitVec 2 := (w.data, w.kind)

/-- Every word that a region emits on an output port for the words it has been given (R121). -/
def Region.outputs (r : Region) (g : RegionSec) (rport : Nat) : List StreamWord :=
  if Config.regionIsDecoder g.bits then
    (if rport = 1 then (tGet [] r.given 0).map q5Stream else [])
  else (Config.regionOut g.bits (r.given.map fun (k, ws) => (k, ws.map rawWord)) rport).map fun (d, k) => { data := d, kind := k }

/-- Words that the region has still to emit on a port. -/
def Region.pending (r : Region) (g : RegionSec) (rport : Nat) : List StreamWord :=
  (r.outputs g rport).drop (tGet 0 r.emitted rport)

/-- Nothing is left to emit on any port. -/
def Region.drained (r : Region) (g : RegionSec) : Bool := (List.range 256).all fun k => (r.pending g k).isEmpty

/-- The quiescence signal (R123, R413). -/
def Region.quiet (r : Region) (g : RegionSec) : Bool :=
  r.drained g && (Config.regionIsDecoder g.bits || Config.regionQuiet g.bits (r.given.map fun (k, ws) => (k, ws.map rawWord)))

/-- Ports that a configuration feeds, and ports that feed it. -/
def RegionSec.outs (g : RegionSec) : List PortMap := g.ports.filter (·.toTile)
def RegionSec.ins (g : RegionSec) : List PortMap := g.ports.filter (!·.toTile)

/-- The words that a region may have taken before the next output word leaves: the decoder's pipeline takes at most one in a
region cycle and writes its output word three cycles later, so three (R413); another bitstream's, as many as a FIFO holds
(log 10). -/
def pipelineDepth (g : RegionSec) : Nat := if Config.regionIsDecoder g.bits then 3 else portDepth

/-- Back-pressure: words wait on an output port, mapped or not (R121, R413). -/
def Region.stalled (r : Region) (g : RegionSec) : Bool := (List.range 256).any fun k => pipelineDepth g ≤ (r.pending g k).length

/-- A burst is open on an input port. -/
def Region.openIn (r : Region) (rport : Nat) : Bool := ((tGet [] r.given rport).getLast?.map fun w => decide (w.kind = 0)).getD false

/-- An input port is held (R123): no burst is open on it, or its marker has come. -/
def Region.heldIn (r : Region) (rport : Nat) : Bool := !r.openIn rport || r.markers.contains rport

/-- The region's clock runs, and its ports are those of a running or draining region (R120, R123, R126). -/
def RegionState.clocked : RegionState → Bool
  | .running | .holding _ => true
  | .reloading _ | .frozen => false

/-- Changes a region of a context. -/
def State.onRegion (s : State) (n key : Nat) (f : Region → Region) : State :=
  s.onCtx n fun c => match tFind c.regions key with
    | none => c
    | some r => { c with regions := tInsert c.regions key (f r) }

/-- A region of a context on the module: the context, the region, and its loaded section. -/
def State.regionAt (s : State) (n key : Nat) : Option (Context × Region × RegionSec) :=
  match tFind s.ctxs n with
  | none => none
  | some c =>
    if !c.onModule then none
    else match tFind c.regions key with
      | none => none
      | some r => (s.regionSec c r).map fun g => (c, r, g)

/-! ### Port words (R121) -/

/-- The decoder takes no word while its output FIFO is full (R413). -/
def decoderFull (s : State) (c : Context) (g : RegionSec) : Bool :=
  Config.regionIsDecoder g.bits && g.outs.any fun m => m.rport = 1 && !s.inRoom (c.tileAt m.tile) m.tport

/-- An input port takes the word at the head of its FIFO. -/
def regionTake (s : State) (n key : Nat) (c : Context) (r : Region) (g : RegionSec) (m : PortMap) : State :=
  let t := c.tileAt m.tile
  match ((s.tile t).outFifo m.tport).head? with
  | none => s
  | some w =>
    if r.markers.contains m.rport || (r.state ≠ .running && r.heldIn m.rport) || (!w.isMarker && r.stalled g)
        || decoderFull s c g then s
    else
      (takeOut s t m.tport).onRegion n key fun r =>
        if w.isMarker then { r with markers := r.markers ++ [m.rport] }
        else { r with given := tSet [] r.given m.rport (tGet [] r.given m.rport ++ [w]) }

/-- An output port emits its next word; then the marker, once every input has given one (R372). -/
def regionEmit (s : State) (n key : Nat) (c : Context) (r : Region) (g : RegionSec) (m : PortMap) : State :=
  let t := c.tileAt m.tile
  if !s.inRoom t m.tport then s
  else match r.pending g m.rport with
    | w :: _ =>
      (deliver s t m.tport w).onRegion n key fun r =>
        { r with emitted := tSet 0 r.emitted m.rport (tGet 0 r.emitted m.rport + 1) }
    | [] =>
      if c.phase = .lulling && !r.sent.contains m.rport && g.ins.all fun i => r.markers.contains i.rport then
        (deliver s t m.tport marker).onRegion n key fun r => { r with sent := r.sent ++ [m.rport] }
      else s

/-- `REGION_PORT_WORD` (R121): a word crosses a port of the region, in the direction that the loaded configuration
gives it. -/
def execRegionPortWord (n key rport : Nat) (s : State) : Out :=
  match s.regionAt n key with
  | none => .next s
  | some (c, r, g) =>
    if !r.state.clocked then .next s
    else match g.ports.find? (·.rport = rport) with
      | none => .next s
      | some m => .next (if m.toTile then regionEmit s n key c r g m else regionTake s n key c r g m)

/-! ### Hot swaps (R123, R124) -/

/-- QUEUE endpoints that feed a configuration, by index in the endpoint table. -/
def queueInputs (im : Image) (g : RegionSec) : List (Nat × Endpoint) :=
  (im.endpoints.zipIdx.filter fun (e, _) => e.kind == .queue && e.feeds im &&
    g.ins.any fun m => m.tile = e.tile && m.tport = e.port).map fun (e, i) => (i, e)

/-- A QUEUE input holds no word: neither its queue nor the port's FIFO. -/
def queueEmpty (s : State) (c : Context) (i : Nat) (e : Endpoint) : Bool :=
  ((s.tile (c.tileAt e.tile)).outFifo e.port).isEmpty && match c.ring i with
    | none => true
    | some q => q.tail ≤ q.head

/-- Every QUEUE input of a stage is empty. -/
def stageEmpty (s : State) (c : Context) (im : Image) (k : Nat) : Bool :=
  match tFind im.regions k with
  | none => true
  | some g => (queueInputs im g).all fun (i, e) => queueEmpty s c i e

/-- The stages of a list behind the current one, in list order, wrapping round. -/
def stagesAfter (l : List Nat) (cur : Nat) : List Nat :=
  let i := l.idxOf cur
  l.drop (i + 1) ++ l.take i

/-- The stage that a swap would load (R124). -/
def nextStage (s : State) (c : Context) (im : Image) (l : List Nat) (cur : Nat) : Option Nat :=
  (stagesAfter l cur).find? fun k => !stageEmpty s c im k

/-- `STAGE_SWAP` (R124): the region of a list is held when its inputs are empty, it is quiescent, and another stage has
words. -/
def execStageSwap (n list : Nat) (s : State) : Out :=
  match tFind s.ctxs n with
  | none => .next s
  | some c => match s.imageOf c with
    | none => .next s
    | some im => match im.stageLists[list]? with
      | none => .next s
      | some l => match l.head? with
        | none => .next s
        | some key => match s.regionAt n key with
          | none => .next s
          | some (_, r, g) =>
            if r.state ≠ .running || !r.markers.isEmpty || !stageEmpty s c im r.stage || !r.quiet g then .next s
            else match nextStage s c im l r.stage with
              | none => .next s
              | some k => .next (s.onRegion n key fun r => { r with state := .holding k })

/-- The output FIFOs of a region are empty. -/
def outsEmpty (s : State) (c : Context) (g : RegionSec) : Bool :=
  g.outs.all fun m => ((s.tile (c.tileAt m.tile)).inFifo m.tport).isEmpty

/-- `SWAP_DRAIN_END` (R123): every input is held, the region is quiescent and its output FIFOs are empty. -/
def execSwapDrainEnd (n key : Nat) (s : State) : Out :=
  match s.regionAt n key with
  | none => .next s
  | some (c, r, g) => match r.state with
    | .holding k =>
      if (g.ins.all fun m => r.heldIn m.rport) && r.quiet g && outsEmpty s c g then
        .next (s.onRegion n key fun r => { r with state := .reloading k })
      else .next s
    | _ => .next s

/-- Every tile with a stream port that the configuration maps takes a CFGERR (R126). -/
def oweCfgErr (s : State) (key : Nat) (c : Context) (g : RegionSec) : State :=
  g.ports.foldl (fun s m => s.onTile (c.tileAt m.tile) fun tl => { tl with cfgErr := tSet 0 tl.cfgErr m.tport (key + 1) }) s

/-- The signature of a region's configuration frames (R125). -/
def frameSig (frames : List Byte) : BitVec 64 := (sha3 frames).setWidth 64

/-- The frames of a region are loaded with a configuration: whatever errors they held are gone, and the signature is
computed (R125, R126). DESIGN CHOICE (log 10): the frames in address order are the bytes of the section's bitstream. -/
def Region.load (r : Region) (bits : List Byte) : Region :=
  { r with store := bits, sig := frameSig bits, upsets := [], bad := false, badCell := 0, badFrame := 0 }

/-- A region whose state has just been reset, with a configuration (R122). -/
def Region.fresh (stage : Nat) (bits : List Byte) : Region :=
  { stage := stage, state := .running, given := [], emitted := [], store := bits, sig := frameSig bits, upsets := [],
    bad := false, badCell := 0, badFrame := 0, owed := false, markers := [], sent := [] }

/-- The bitstream of a region of an image. -/
def Image.bitsOf (im : Image) (k : Nat) : List Byte := ((tFind im.regions k).map (·.bits)).getD []

/-- The bitstream of a region of a context's image-store copy. -/
def State.bitsOf (s : State) (c : Context) (k : Nat) : List Byte := ((s.imageOf c).map fun im => im.bitsOf k).getD []

/-- `SWAP_RELOAD_END` (R123): the region runs with the new configuration from a reset state; its ports are released. An
error in the drain has been repaired by the reload (R127). -/
def execSwapReloadEnd (n key : Nat) (s : State) : Out :=
  match s.regionAt n key with
  | none => .next s
  | some (c, r, g) => match r.state with
    | .reloading k =>
      let s1 := s.onRegion n key fun r => { Region.fresh k (s.bitsOf c k) with markers := r.markers, sent := r.sent }
      .next (if r.owed then oweCfgErr s1 key c g else s1)
    | _ => .next s

/-- `SWAPTIMEOUT` (R123): the ports are released with the old configuration and its state unchanged, and the policy core has the
report; the spec names nothing that it does with one. -/
def execSwaptimeout (n key : Nat) (s : State) : Out :=
  match s.regionAt n key with
  | none => .next s
  | some (_, r, _) => match r.state with
    | .holding _ =>
      .next ({ s with swapTimeouts := s.swapTimeouts ++ [(n, key)] }.onRegion n key fun r => { r with state := .running })
    | _ => .next s

/-! ### Integrity (R125-R127) -/

/-- The die of a region. -/
def regionDie (c : Context) (g : RegionSec) : Nat := dieOf (c.tileAt g.corg)

/-- The cell of a region at an offset from its north-west cell: the unit of its frames. -/
def cellUnit (c : Context) (g : RegionSec) (cell : Nat) : Nat := c.tileAt (g.corg + cell)

/-- The unit of a frame of a cell (R378). -/
def frameUnit (cell frame : Nat) : Nat := frame * 2048 + cell

/-- ECC meets an error in a frame of a region: the record names the cell and the frame (R378, R395). -/
def noteFrame (s : State) (kind : Nat) (c : Context) (g : RegionSec) (cell frame : Nat) : State :=
  noteError s kind .configFrame (frameUnit (cellUnit c g cell) frame) (cellUnit c g cell) (BitVec.ofNat 64 frame)

/-- The scrubber corrects a region's single-bit errors, each with a record, and at the end of the pass computes its
signature again (R125, R126, R378). Which frame a signature that does not match speaks of is free (log 10). -/
def scrubRegion (s : State) (n key : Nat) (c : Context) (r : Region) (g : RegionSec) : State :=
  let s1 := r.upsets.foldl (fun s (cell, frame) => noteFrame s errCorrected c g cell frame) s
  s1.onRegion n key fun r =>
    if r.bad || frameSig r.store = r.sig then { r with upsets := [] }
    else { r with upsets := [], bad := true, badFrame := (Config.frameOf s.tick).toNat }

/-- `SCRUB_PASS` (R125). -/
def execScrubPass (die : Nat) (s : State) : Out :=
  .next ((s.ctxs.flatMap fun (n, c) => c.regions.map fun (k, _) => (n, k)).foldl (fun s (n, k) =>
    match s.regionAt n k with
    | none => s
    | some (c, r, g) => if regionDie c g = die then scrubRegion s n k c r g else s) s)

/-- `CONFIG_ERROR` (R126, R127): the region freezes; in a drain the reload starts at once, and repairs it. DESIGN CHOICE (log 10):
R127 names a hot swap's drain and its reload; an error in its Hold, with a burst still open on an input, is treated as one in the
drain. -/
def execConfigError (n key : Nat) (s : State) : Out :=
  match s.regionAt n key with
  | none => .next s
  | some (c, r, g) =>
    if !r.bad then .next s
    else
      let s1 := noteFrame s errUncorrectable c g r.badCell r.badFrame
      match r.state with
      | .running => .next (s1.onRegion n key fun r => { r with state := .frozen })
      | .holding k => .next (s1.onRegion n key fun r => { r with state := .reloading k, owed := true })
      | .reloading k => .next (s1.onRegion n key fun r => r.load (s.bitsOf c k))
      | .frozen => .next s

/-- `CONFIG_RELOAD_DONE` (R126): the frozen region's frames are reloaded, its flip-flops kept, and its ports released. -/
def execConfigReloadDone (n key : Nat) (s : State) : Out :=
  match s.regionAt n key with
  | none => .next s
  | some (c, r, g) => match r.state with
    | .frozen =>
      .next (oweCfgErr (s.onRegion n key fun r => { r.load (s.bitsOf c r.stage) with state := .running }) key c g)
    | _ => .next s

end Sys2Proof.Machine
end

