-- ==== Sys2Proof/Machine/Links.lean ====
section
/-! DEFINITION. The host link and the jet links (16 R391, R396-R400). -/

namespace Sys2Proof.Machine

open Sys2Proof

/-! ### The host link (R390, R391) -/

/-- A function when the link goes down: its sessions, IDE keys and TDISP binding are lost. -/
def Function.linkDown (f : Function) : Function := { f with linkLost := true, ideUp := false, tdispLocked := false }

/-- The host streams of the runs end with HOSTLINK (R285). -/
def endHostStreams (s : State) : State :=
  (s.ctxs.flatMap fun (n, c) => (List.range (s.endpointsOf c).length).map fun i => (n, i)).foldl (fun s (n, i) =>
    match tFind s.ctxs n with
    | none => s
    | some c => match s.endpoint c i with
      | none => s
      | some e =>
        let g := c.generator i
        if (e.kind = .hostIn || e.kind = .hostOut) && g.active && c.run.isSome then
          endStream s n i Status.HOSTLINK.code e.epid ((c.operand i).addr g.next)
        else s) s

/-- The commands in flight on host buffers, by tile, engine and entry, with the endpoint and the IOVA of each. -/
def hostWorks (s : State) : List (Nat × Engine × Nat × BitVec 16 × Nat) :=
  s.tiles.flatMap fun (t, tl) => [Engine.L, .S].flatMap fun e => (tl.queue e).filterMap fun q =>
    (hostWork s t e q).map fun (epid, iova) => (t, e, q.id, epid, iova)

/-- Every host-handle command in flight is abandoned (R270). -/
def abandonHosts (s : State) (works : List (Nat × Engine × Nat × BitVec 16 × Nat)) : State :=
  works.foldl (fun s (t, e, id, epid, iova) => abandonHost s t e id Status.HOSTLINK.code iova epid) s

/-- `PCIE_LINK_DOWN` (R390): host-range work ends with HOSTLINK, and host-side security is lost. -/
def execPcieLinkDown (s : State) : Out :=
  let s1 := { s with linkUp := false, atsCache := [], hostRequests := [] }
  let s2 := (List.range 32).foldl (fun s f => s.onFunction f Function.linkDown) s1
  let s3 := abandonHosts s2 (hostWorks s)
  let s4 := s.hostRequests.foldl (fun s r => match r.who with
    | .generator _ _ => refuseHostPage s r Status.HOSTLINK.code
    | _ => s) s3
  .next (endHostStreams s4)

/-- `PCIE_LINK_UP` (R391): functions that used no IDE and no TDISP resume at once; held records follow. -/
def execPcieLinkUp (s : State) : Out := .next { s with linkUp := true }

/-- `IDE_ESTABLISHMENT` (R391). -/
def execIdeEstablishment (f : Nat) (s : State) : Out :=
  if s.linkUp then .next (s.onFunction f fun fn => { fn with ideUsed := true, ideUp := true }) else .next s

/-- `TDISP_LOCK_INTERFACE` (R391). -/
def execTdispLockInterface (f : Nat) (s : State) : Out :=
  if s.linkUp then .next (s.onFunction f fun fn => { fn with tdispUsed := true, tdispLocked := true }) else .next s

/-! ### Jet links: training, runs and replay (R396-R399) -/

/-- A JET-IN that was bound while the link could carry nothing grants its window (R400). -/
def grantWaiting (s : State) (port : Nat) : State :=
  (s.ctxs.flatMap fun (_, c) => ((s.endpointsOf c).zipIdx.filterMap fun (e, i) =>
    match e.kind, c.operand i with
    | .jetIn, .jetIn stag => if (c.generator i).active && c.jetOf e = some port then some stag else none
    | _, _ => none)).foldl (fun s stag => sendJet s port (.credit stag jetWindow)) s

/-- `JET_LINK_UP` (R397): training and the key exchange are complete. -/
def execJetLinkUp (port : Nat) (peer : BitVec 12) (s : State) : Out :=
  let j := s.jet port
  if j.enabled && j.link = .training then
    .next (grantWaiting (s.onJet port fun j =>
      { j with link := .up, fails := 0, peer := peer, txq := [], seq := 0, unacked := [], rx := [], expect := 0, strikes := 0,
               asked := 0, arrived := [], lane := [], keyEpoch := 1 }) port)
  else .next s

/-- The number of runs that one key may seal (R397). -/
def runsPerKey : Nat := 2 ^ 48

/-- `TAG_RUN_CLOSE` (R398): the flits of a run, and its tag flit, leave; a rotation comes before its key is used up. -/
def execTagRunClose (port : Nat) (s : State) : Out :=
  let j := s.jet port
  if j.link ≠ .up || j.txq.isEmpty || runsPerKey * j.keyEpoch ≤ j.seq + 1 then .next s
  else
    let n := j.tagRun.toNat + 1
    let run := j.txq.take n
    let s1 := s.onJet port fun j => { j with txq := j.txq.drop n, unacked := j.unacked ++ [(j.seq, run)], seq := j.seq + 1 }
    .next { s1 with outbox := s1.outbox ++ [.jetRun port j.seq run] }

/-- The far end acknowledges every run up to a number (R398). -/
def ackRuns (s : State) (port seq : Nat) : State :=
  s.onJet port fun j => { j with unacked := j.unacked.filter fun r => seq < r.1, asked := 0 }

/-- Flits arrive, and are held until their tag verifies (R398). -/
def holdFlits (s : State) (port : Nat) (fs : List JetFlit) : State :=
  if (s.jet port).link = .up then s.onJet port fun j => { j with rx := j.rx ++ fs } else s

/-- A message is complete with its last flit. A record answers a packet that this device has not sent. -/
def releaseFlit (s : State) (port : Nat) (f : JetFlit) : State :=
  if f.part + 1 ≠ f.parts then s
  else match f.msg with
    | .word stag w => s.onJet port fun j => { j with arrived := j.arrived ++ [(stag, w)] }
    | .credit stag k => jetCredit s port stag k
    | .packet p => s.onJet port fun j => { j with lane := j.lane ++ [p] }
    | .record _ => s

/-- A posted request goes over a port (R400, log 20). -/
def postedOver (port : Nat) (p : PeerStore) : Bool := Config.peerPort p.peer = port

/-- The failure that a context's run takes from a failed port, if it used it: a bound JET endpoint, or its oldest posted
request (R386, R399). -/
def jetFailure (s : State) (port n : Nat) (c : Context) : Option RunFail :=
  let eps := (s.endpointsOf c).zipIdx.filter fun (e, i) => (e.kind = .jetOut || e.kind = .jetIn) && c.jetOf e = some port
    && c.operand i ≠ .none
  match eps.head?, s.posted.find? (fun p => p.ctx = n && p.gen = c.gen && postedOver port p) with
  | some (e, _), _ => some { status := Status.JETLINK.code, epid := e.epid, addr := 0, result := 0 }
  | none, some p => some { status := Status.JETLINK.code, epid := 0xFFFF, addr := BitVec.ofNat 64 p.va, result := 0 }
  | none, none => none

/-- THE FAILURE OF A LINK (R399): the runs that used it fail, and its outstanding requests are released. -/
def failLink (s : State) (port : Nat) : State :=
  let s1 := s.onJet port fun j => { j with link := .failed, txq := [], unacked := [], rx := [] }
  let s2 := s1.ctxs.foldl (fun s (n, c) => match jetFailure s1 port n c with
    | none => s
    | some f => failRun s n f) s1
  { s2 with posted := s2.posted.filter fun p => !postedOver port p }

/-- A run whose tag fails is discarded whole, with a record in the error log; the third in a row fails the link, and otherwise a
replay is asked for. DESIGN CHOICE (log 27): the record's kind is corrected where a replay follows, and uncorrectable where the
link fails. -/
def rejectRun (s : State) (port seq : Nat) : State :=
  let s0 := s.onJet port fun j => { j with rx := [], fails := min 255 (j.fails + 1), strikes := j.strikes + 1 }
  let lost := 3 ≤ (s0.jet port).strikes
  let s1 := logError s0 (if lost then errUncorrectable else errCorrected) (unitCode .jetLink) port 0 0
  if lost then failLink s1 port
  else { s1 with outbox := s1.outbox ++ [.jetReplayAsked port seq] }

/-- A run whose tag verifies is released if it is the one expected, and acknowledged. -/
def acceptRun (s : State) (port seq : Nat) : State :=
  let j := s.jet port
  let s1 := s.onJet port fun j => { j with rx := [], strikes := 0, expect := if seq = j.expect then j.expect + 1 else j.expect }
  let s2 := if seq = j.expect then j.rx.foldl (fun s f => releaseFlit s port f) s1 else s1
  if seq ≤ j.expect then { s2 with outbox := s2.outbox ++ [.jetRunAck port seq] } else s2

/-- `TAG_FLIT_RECEIVE` (R398, R399). -/
def execTagFlitReceive (port seq : Nat) (verified : Bool) (s : State) : Out :=
  if (s.jet port).link ≠ .up then .next s
  else .next (if verified then acceptRun s port seq else rejectRun s port seq)

/-- `REPLAY_REQUEST` (R399): the runs from a number on are sent again; at the third request in a row the link has
failed. -/
def execReplayRequest (port seq : Nat) (s : State) : Out :=
  let j := s.jet port
  if j.link ≠ .up then .next s
  else if 2 ≤ j.asked then .next (failLink s port)
  else
    let s1 := s.onJet port fun j => { j with asked := j.asked + 1 }
    .next { s1 with outbox := s1.outbox ++
              ((j.unacked.filter fun r => seq ≤ r.1).map fun (k, fs) => Emission.jetRun port k fs) }

/-- `KEY_ROTATION` (R397). -/
def execKeyRotation (port : Nat) (s : State) : Out :=
  if (s.jet port).link = .up then .next (s.onJet port fun j => { j with keyEpoch := j.keyEpoch + 1 }) else .next s

end Sys2Proof.Machine
end

