-- ==== Sys2Proof/Machine/Nodes.lean ====
section
/-! DEFINITION. Route elements: corner-turn nodes (09 R236, R237), and arbiter, counter and merge nodes (13 R340, R341). -/

namespace Sys2Proof.Machine

open Sys2Proof

/-! ### Corner-turn nodes (R237) -/

/-- A zero word of kind 0, which completes a short block. -/
def zeroWord : StreamWord := { data := 0, kind := 0 }

/-- A block completed with zero words to 64; its last word keeps the kind of the last input word. -/
def padBlock (b : List StreamWord) : List StreamWord :=
  if b.length = 64 || b.isEmpty then b
  else
    let k := (b.getLast?.map (·.kind)).getD 0
    b.map (fun w => { w with kind := 0 }) ++ List.replicate (63 - b.length) zeroWord ++ [{ zeroWord with kind := k }]

/-- Element `c` of a word, of `size` bytes. -/
def turnElem (size : Nat) (w : StreamWord) (c : Nat) : Nat := w.data.toNat / 2 ^ (8 * size * c) % 2 ^ (8 * size)

/-- Output word `k` of a block: row `k / size` of the transpose, its part `k % size`. -/
def turnWord (size : Nat) (b : List StreamWord) (k : Nat) : Line :=
  let n := 64 / size
  let col := b.map fun w => turnElem size w (k / size)
  BitVec.ofNat 512 (packElems (8 * size) ((col.drop (k % size * n)).take n))

/-- The 64 output words of a block. -/
def turnBlock (size : Nat) (b : List StreamWord) : List StreamWord :=
  let last := (b.getLast?.map (·.kind)).getD 0
  (List.range 64).map fun k => { data := turnWord size b k, kind := if k = 63 then last else 0 }

/-- The element size of a corner-turn node in bytes. -/
def RouteNode.turnSize (n : RouteNode) : Nat := 2 ^ n.bits 46 2

/-- A block that is whole starts its output once the other buffer is free. -/
def RouteNode.startOutput (n : RouteNode) : RouteNode :=
  if n.block.length = 64 && n.out.isEmpty then { n with out := turnBlock n.turnSize n.block, block := [] } else n

/-- Takes the input word: data into the block; an EOS completes the block and stays until it may pass. -/
def RouteNode.takeTurn (n : RouteNode) : RouteNode :=
  match n.inq with
  | [] => n
  | w :: rest =>
    if w.isMarker then n
    else if w.isEos then { n with block := padBlock n.block }
    else if n.block.length < 64 then
      let b := n.block ++ [w]
      { n with inq := rest, block := if w.kind = 1 then padBlock b else b }
    else n

/-- The word that leaves the node next, and the node without it: output words; then an EOS behind an empty node, or a
marker behind every full block. -/
def RouteNode.turnHead (n : RouteNode) : Option (StreamWord × RouteNode) :=
  match n.out, n.inq with
  | w :: rest, _ => some (w, { n with out := rest })
  | [], w :: rest =>
    if (w.isEos && n.block.isEmpty) || (w.isMarker && n.block.length < 64) then some (w, { n with inq := rest }) else none
  | [], [] => none

/-- A corner-turn node in a slot takes an input word and sends an output word. -/
def turnStep (tl : Tile) (slot : Nat) (n : RouteNode) : Tile :=
  let p := n.bits 40 2
  let n1 := n.takeTurn.startOutput
  match n1.turnHead with
  | none => tl.setRoute slot n1
  | some (w, n2) => if tl.inRoom p (some slot) then (tl.setRoute slot n2).putIn p (some slot) w else tl.setRoute slot n1

/-- `CORNER_TURN_WORD` (R237). -/
def execCornerTurnWord (t slot : Nat) (s : State) : Out :=
  match tFind (s.tile t).routes slot with
  | none => .next s
  | some n => if n.kind = 0 then .next (s.onTile t fun tl => turnStep tl slot n) else .next s

/-! ### Arcs (R340) -/

/-- The arcs of a node: relative tile and outbound port. -/
def RouteNode.arcList (n : RouteNode) : List (Nat × Nat) :=
  (List.range (n.bits 110 3)).map fun a => (n.bits (34 + 13 * a) 11, n.bits (32 + 13 * a) 2)

/-- The inbound port that the node feeds, the port of an arbiter's replies, and a merge's operation. -/
def RouteNode.tport (n : RouteNode) : Nat := n.bits 113 2
def RouteNode.rport (n : RouteNode) : Nat := n.bits 115 2
def RouteNode.mergeOp (n : RouteNode) : Nat := n.bits 117 4

/-- Words received on an arc. -/
def RouteNode.buf (n : RouteNode) (a : Nat) : List StreamWord := tGet [] n.arcs a

/-- Every arc is in a list. -/
def RouteNode.allIn (n : RouteNode) (l : List Nat) : Bool := (List.range n.arcList.length).all l.contains

/-- The node has passed its markers on. -/
def RouteNode.lulled (n : RouteNode) : Bool := n.lulls.contains 6

/-- The tile of an arc. -/
def State.arcTile (s : State) (t a : Nat) (n : RouteNode) : Option (Nat × Nat) :=
  match n.arcList[a]?, s.ctxOf t with
  | some (rel, p), some c => some (c.tileAt rel, p)
  | _, _ => none

/-- Gives the last word of a list kind 1. -/
def closeLast : List StreamWord → List StreamWord
  | [] => []
  | [w] => [{ w with kind := 1 }]
  | w :: rest => w :: closeLast rest

/-- Arc `a` delivers a word of a burst; the first word of a burst takes a ticket (R341). -/
def RouteNode.addWord (n : RouteNode) (a : Nat) (w : StreamWord) : RouteNode :=
  { n with arcs := tSet [] n.arcs a (n.buf a ++ [w])
           tickets := if n.openArcs.contains a then n.tickets else n.tickets ++ [a]
           openArcs := if w.kind = 1 then n.openArcs.filter (· ≠ a)
                       else if n.openArcs.contains a then n.openArcs else n.openArcs ++ [a] }

/-- Arc `a` delivers its EOS; a burst that is open ends at its last word (R340). -/
def RouteNode.addEos (n : RouteNode) (a : Nat) : RouteNode :=
  { n with arcs := if n.openArcs.contains a then tSet [] n.arcs a (closeLast (n.buf a)) else n.arcs
           openArcs := n.openArcs.filter (· ≠ a), eos := n.eos ++ [a] }

/-- A counter adds the i32 of a word; at zero it owes a word (R341). -/
def RouteNode.addCount (n : RouteNode) (w : StreamWord) : RouteNode :=
  let c := n.count + w.data.setWidth 32
  if c = 0 then
    { n with count := c, zseq := n.zseq + 1, out := n.out ++ [{ data := (n.zseq + 1).setWidth 512, kind := 1 }] }
  else { n with count := c }

/-- Room for another word of an arc. Under a lull sequence the words go into the saved state (R340). -/
def arcRoom (s : State) (t n : Nat) : Bool :=
  n < portDepth || ((s.ctxOf t).map fun c => c.phase == .lulling).getD false

/-- Arc `a` of a node gives its next word, if the node can take it. Words behind an EOS wait until every arc has sent
one. -/
def takeArc (s : State) (t slot a : Nat) : State :=
  match tFind (s.tile t).routes slot with
  | none => s
  | some n => match s.arcTile t a n with
    | none => s
    | some (u, p) => match (s.tile u).outFifo p with
      | [] => s
      | w :: _ =>
        if n.lulls.contains a then s
        else if w.isMarker then (takeOut s u p).onTile t (·.setRoute slot { n with lulls := n.lulls ++ [a] })
        else if n.eos.contains a then s
        else if w.isEos then (takeOut s u p).onTile t (·.setRoute slot (n.addEos a))
        else if n.kind = 3 then
          (if arcRoom s t n.out.length then (takeOut s u p).onTile t (·.setRoute slot (n.addCount w)) else s)
        else if arcRoom s t (n.buf a).length then (takeOut s u p).onTile t (·.setRoute slot (n.addWord a w))
        else s

/-- Every arc gives a word, in ascending order. -/
def takeArcs (s : State) (t slot : Nat) (n : RouteNode) : State :=
  (List.range n.arcList.length).foldl (fun s a => takeArc s t slot a) s

/-- A word of a burst may be delivered: it ends the burst, or another word of the burst has come. -/
def readyHead : List StreamWord → Option (StreamWord × List StreamWord)
  | [] => none
  | w :: rest => if w.kind = 1 || !rest.isEmpty then some (w, rest) else none

/-! ### What a node sends (R341) -/

/-- The next word of the burst whose ticket is first, and the node without it. An arbiter's burst that ends enters the
grant FIFO. -/
def RouteNode.nextBurstWord (n : RouteNode) : Option (StreamWord × RouteNode) :=
  match n.tickets with
  | [] => none
  | a :: rest =>
    if n.kind = 2 && 64 ≤ n.grants.length then none
    else match readyHead (n.buf a) with
      | none => none
      | some (w, ws) =>
        let n1 := { n with arcs := tSet [] n.arcs a ws }
        some (w, if w.kind = 1 then
            { n1 with tickets := rest, grants := if n.kind = 2 then n.grants ++ [a] else n.grants } else n1)

/-- One operation of a merge on two elements: sums of f32 and i32, the greater of f32. -/
def mergeElem (op a b : Nat) : Nat :=
  match op with
  | 1 => rmwOp 1 0 false a b
  | 2 => (a + b) % 2 ^ 32
  | _ => rmwOp 3 0 false a b

/-- Two words combined, element by element. -/
def mergeWords (op : Nat) (a b : Line) : Line :=
  wordOf 0 ((List.range 16).map fun i => mergeElem op (wordElem 0 a i) (wordElem 0 b i))

/-- Words combined in order. -/
def mergeAll (op : Nat) : List Line → Line
  | [] => 0
  | w :: rest => rest.foldl (mergeWords op) w

/-- A merge with OP 1-3 starts a round once every arc without EOS has a burst: its arcs in ticket order. -/
def RouteNode.startRound (n : RouteNode) : RouteNode :=
  if n.grants.isEmpty && (List.range n.arcList.length).all fun a => n.eos.contains a || n.tickets.contains a then
    { n with grants := n.tickets.eraseDups }
  else n

/-- The arc's word of the round is used up; an arc whose burst ends leaves the round. -/
def RouteNode.useWord (n : RouteNode) (a : Nat) : RouteNode :=
  match n.buf a with
  | [] => n
  | w :: rest =>
    let n1 := { n with arcs := tSet [] n.arcs a rest }
    if w.kind = 1 then { n1 with tickets := n.tickets.erase a, grants := n.grants.filter (· ≠ a) } else n1

/-- The next combined word of the round; the longest burst's last word ends it. -/
def RouteNode.nextMerged (n : RouteNode) : Option (StreamWord × RouteNode) :=
  let n1 := n.startRound
  let heads := n1.grants.map fun a => readyHead (n1.buf a)
  if n1.grants.isEmpty || heads.any (·.isNone) then none
  else
    let n2 := n1.grants.foldl RouteNode.useWord n1
    some ({ data := mergeAll n.mergeOp (heads.filterMap fun h => h.map fun x => x.1.data)
            kind := if n2.grants.isEmpty then 1 else 0 }, n2)

/-- The next word of a node's own: a burst's, a combined one, or a counter's. -/
def RouteNode.nextOwn (n : RouteNode) : Option (StreamWord × RouteNode) :=
  if n.kind = 3 then match n.out with
    | [] => none
    | w :: rest => some (w, { n with out := rest })
  else if n.kind = 4 && n.mergeOp ≠ 0 then n.nextMerged
  else n.nextBurstWord

/-- What the node sends next: its own word; the EOS once every arc has sent one and no burst remains; the marker once
every arc has delivered one (R340). -/
def RouteNode.nextSend (n : RouteNode) : Option (StreamWord × RouteNode) :=
  if n.lulled then none
  else if n.allIn n.lulls then some (marker, { n with lulls := n.lulls ++ [6] })
  else match n.nextOwn with
    | some r => some r
    | none =>
      if n.tickets.isEmpty && n.out.isEmpty && n.allIn n.eos then some (eosWord, { n with eos := [] }) else none

/-- The node sends a word to its TPORT, if there is room. -/
def sendNode (s : State) (t slot : Nat) : State :=
  match tFind (s.tile t).routes slot with
  | none => s
  | some n => match n.nextSend with
    | none => s
    | some (w, n1) =>
      if s.inRoom t n.tport then s.onTile t fun tl => (tl.setRoute slot n1).putIn n.tport none w else s

/-! ### Replies of an arbiter (R341) -/

/-- A reply of a node at `t` can reach the inbound port `p` of an arc's tile: there is room, or the tile is cleared, or under
clearing, and discards it (R119). -/
def replyRoom (s : State) (t u p : Nat) : Bool :=
  (s.tile u).clearing || (s.tile u).owner ≠ (s.tile t).owner || s.inRoom u p

/-- The reply reaches the port, or is discarded with its tile's context (R119). -/
def replyTo (s : State) (t u p : Nat) (w : StreamWord) : State :=
  if (s.tile u).clearing || (s.tile u).owner ≠ (s.tile t).owner then s else deliver s u p w

/-- An EOS or a marker on RPORT goes to every arc: the arcs it has still to reach, a marker's counted from 8. -/
def replyAll (s : State) (t slot : Nat) (n : RouteNode) : State :=
  n.replyEos.foldl (fun s k => match tFind (s.tile t).routes slot with
    | none => s
    | some m => match s.arcTile t (k % 8) m with
      | none => s
      | some (u, _) =>
        if replyRoom s t u m.rport then
          replyTo (s.onTile t (·.setRoute slot { m with replyEos := m.replyEos.filter (· ≠ k) })) t u m.rport
            (if 8 ≤ k then marker else eosWord)
        else s) s

/-- The reply word before the node: one it holds, or the head of RPORT. -/
def replyHead (s : State) (t : Nat) (n : RouteNode) : Option StreamWord :=
  match n.inq with
  | w :: _ => some w
  | [] => ((s.tile t).outFifo n.rport).head?

/-- Takes that word. -/
def dropReply (s : State) (t slot : Nat) (n : RouteNode) : State :=
  match n.inq with
  | _ :: rest => s.onTile t (·.setRoute slot { n with inq := rest })
  | [] => takeOut s t n.rport

/-- A reply word goes to the arc at the head of the grant FIFO; the last word of a burst pops it. -/
def replyWord (s : State) (t slot : Nat) (n : RouteNode) (w : StreamWord) : State :=
  match n.grants with
  | [] => s
  | a :: rest => match s.arcTile t a n with
    | none => s
    | some (u, _) =>
      if !replyRoom s t u n.rport then s
      else
        let s1 := dropReply s t slot n
        let s2 := if w.kind = 1 then s1.onTile t fun tl => match tFind tl.routes slot with
          | some m => tl.setRoute slot { m with grants := rest }
          | none => tl
          else s1
        replyTo s2 t u n.rport w

/-- A node that has passed its markers keeps reply words that no grant awaits, so that RPORT's marker can pass. -/
def keepReply (s : State) (t slot : Nat) (n : RouteNode) : State :=
  match (s.tile t).outFifo n.rport with
  | [] => s
  | w :: _ =>
    let s1 := takeOut s t n.rport
    s1.onTile t (·.setRoute slot
      (if w.isMarker then { n with replyEos := (List.range n.arcList.length).map (· + 8) }
       else { n with inq := n.inq ++ [w] }))

/-- The reply side of an arbiter. -/
def replyStep (s : State) (t slot : Nat) : State :=
  match tFind (s.tile t).routes slot with
  | none => s
  | some n =>
    if n.kind ≠ 2 then s
    else if !n.replyEos.isEmpty then replyAll s t slot n
    else match replyHead s t n with
      | none => s
      | some w =>
        if w.isMarker || w.isEos then
          (dropReply s t slot n).onTile t fun tl => match tFind tl.routes slot with
            | some m =>
              tl.setRoute slot { m with replyEos :=
                (List.range m.arcList.length).map (if w.isMarker then (· + 8) else id) }
            | none => tl
        else if n.grants.isEmpty then (if n.lulled then keepReply s t slot n else s)
        else replyWord s t slot n w

/-- One turn of a node of a kind: it takes a word of each arc, sends a word, and passes a reply. -/
def nodeStep (s : State) (t slot kind : Nat) : State :=
  match tFind (s.tile t).routes slot with
  | none => s
  | some n => if n.kind = kind then replyStep (sendNode (takeArcs s t slot n) t slot) t slot else s

/-- `ARBITER_BURST` (R341). -/
def execArbiterBurst (t slot : Nat) (s : State) : Out := .next (nodeStep s t slot 2)

/-- `COUNTER_NODE_WORD` (R341). -/
def execCounterNodeWord (t slot : Nat) (s : State) : Out := .next (nodeStep s t slot 3)

/-- `MERGE_BURST` (R341). -/
def execMergeBurst (t slot : Nat) (s : State) : Out := .next (nodeStep s t slot 4)

end Sys2Proof.Machine
end

