-- ==== Sys2Proof/Machine/Waits.lean ====
section
/-! DEFINITION. What ends the waits of C, and what moves between tiles: pushes, barriers, phase words, slots, wakes, updates
and spill rings (13 R324-R339, 14 R345, R355-R361). -/

namespace Sys2Proof.Machine

open Sys2Proof

/-- The instruction at which C stands. -/
def Tile.instrAtC (tl : Tile) : Option Instr :=
  match decode (tGet 0 tl.istore tl.cntC.pc) with
  | .ok i => some i
  | .error _ => none

/-- C completes the instruction at which it waited. -/
def completeC (s : State) (t : Nat) : State := retireTo s t ((s.tile t).cntC.pc + 1)

/-! ### `renq` (R339) -/

/-- Entries for the words of a block, in their places. -/
def pushEntries (tl : Tile) (e : Engine) (ws : List IWord) : Tile :=
  (ws.zipIdx).foldl (fun tl (w, i) =>
    let q : QEntry :=
      { id := tl.nextId, word := w, index := 0x4000 + i + 1, pushed := true, epoch := 0, body := [], badNest := false,
        phase := .queued, popped := true, caps := [], prog := .start, nest := none, stopped := false,
        owed := 0, more := [] }
    { tl with nextId := tl.nextId + 1 }.setQueue e (tl.queue e ++ [q])) tl

/-- The `renq` whose push is accepted takes the words of its link operands (R163, R339). -/
def renqTaken (s : State) (t : Nat) : State :=
  match (s.tile t).instrAtC with
  | some (.renq a b _ _) =>
    match readReg t a s with
    | .error _ => s
    | .ok (_, s1) => match readReg t b s1 with
      | .error _ => s1
      | .ok (_, s2) => s2
  | _ => s

/-- `RENQ_ACCEPT` (R339): the oldest push enters the queue whole, once it has room, and its `renq` completes. -/
def execRenqAccept (t : Nat) (e : Engine) (s : State) : Out :=
  let tl := s.tile t
  match tl.pushes e with
  | [] => .next s
  | p :: rest =>
    if 32 < (tl.queue e).length + p.words.length || tl.lull ≠ .none then .next s
    else
      let s1 := s.setTile t (pushEntries (tl.setPushes e rest) e p.words)
      .next (completeC (renqTaken s1 p.tile) p.tile)

/-! ### Barriers (R324, R327, R331, R359) -/

/-- The members of a barrier: the tiles of the group that have a program. -/
def State.members (s : State) (t : Nat) (g : BitVec 6) : List Nat := (s.groupTiles t g).filter fun u => (s.tile u).hasText

/-- The last arrival of a tile with a selector. -/
def Tile.arrival (tl : Tile) (g : BitVec 6) : Arrival := tGet Arrival.none tl.arrivals g.toNat

/-- No update with a stamp below `n`, to a subscriber inside the group, is unsettled: neither in flight nor in a batch. -/
def groupSettled (s : State) (t : Nat) (g : BitVec 6) (n : Nat) : Bool :=
  (s.flits.all fun f => !(s.inGroup t g f.subTile && f.flit.stamp < n)) &&
    s.tiles.all fun (u, tl) => tl.batches.all fun (k, b) =>
      match s.tileOfRel u (tGet PubEntry.zero tl.pubs k).subTile.toNat with
      | none => true
      | some v => !s.inGroup t g v || b.all fun f => n ≤ f.stamp

/-- Every member has arrived, and every update that R359 counts is settled: of a write in any published region, made
before the last member arrived. -/
def barrierReady (s : State) (t : Nat) (g : BitVec 6) : Bool :=
  let ms := s.members t g
  ms.contains t && (ms.all fun u => ((s.tile u).arrival g).waiting && decide ((s.tile u).lull = .none)) &&
    groupSettled s t g ((ms.map fun u => ((s.tile u).arrival g).stamp).foldl max 0)

/-- A closing barrier finds words in a member's inputs, or on the wires towards them (R331). -/
def wordsLeft (s : State) (u : Nat) : Bool :=
  (List.range 4).any fun d => !(tGet [] (s.tile u).linkIn d).isEmpty ||
    match neighbour u d with
    | none => false
    | some v => !(tGet [] (s.tile v).linkOut (oppositeDir d)).isEmpty

/-- What an instance does in a member (R324, R327, R331). `opens` says that every member arrived by `bart`. -/
def memberCompletes (s : State) (g : BitVec 6) (opens : Bool) (u : Nat) (tl : Tile) : Tile :=
  let a := tl.arrival g
  let tl1 := { tl with arrivals := tSet Arrival.none tl.arrivals g.toNat { a with waiting := false, done := true } }
  if tl.phase.isSome then
    { tl1 with phDrop := tl.phDrop || wordsLeft s u, linkIn := [], linkOut := [], forward := [], phase := none }
  else if opens then { tl1 with phase := some g }
  else tl1

/-- `BARRIER_COMPLETE` (R324): the instance completes in every member. -/
def execBarrierComplete (t : Nat) (g : BitVec 6) (s : State) : Out :=
  if gselReserved g || !s.groupFits t g || !barrierReady s t g then .next s
  else
    let ms := s.members t g
    let opens := ms.all fun u => ((s.tile u).arrival g).bart
    .next (ms.foldl (fun s1 u => s1.onTile u (memberCompletes s g opens u)) s)

/-! ### Phase wires (R328, R330) -/

/-- The number of a direction (R329). -/
def dirNum : Dir → Nat
  | .north => 0
  | .east => 1
  | .south => 2
  | .west => 3

/-- `PHASE_WORD_ARRIVAL` (R328): the oldest word that a tile has sent in a direction enters its neighbour's input, where
it is forwarded as far as there is room (R330). -/
def execPhaseWordArrival (t : Nat) (dir : Dir) (s : State) : Out :=
  let d := dirNum dir
  let s1 := forwardInputs s t
  match tGet [] (s1.tile t).linkOut d, neighbour t d with
  | w :: rest, some u =>
    let s2 := s1.onTile t fun tl => { tl with linkOut := tSet [] tl.linkOut d rest }
    let i := oppositeDir d
    let s3 := s2.onTile u fun tl => { tl with linkIn := tSet [] tl.linkIn i (tGet [] tl.linkIn i ++ [w]) }
    .next (forwardInputs s3 u)
  | _, _ => .next s1

/-! ### `waitw` (R333) -/

/-- `WAITW_WAKE` (R333): an entry has fired, and a sleeping `waitw` reads again and completes. -/
def execWaitwWake (t : Nat) (s : State) : Out :=
  let tl := s.tile t
  if tl.cwait ≠ some .asleep || tl.fired = 0 then .next s
  else match tl.instrAtC with
    | some (.waitw d a oc ar _ dbl) => runC (s.focused t 0) (wakeBody d a oc ar dbl)
    | _ => .next s

/-! ### The stage ring (R338) -/

/-- C of the requesting tile completes its `acqs` or `rels` with the payload it took. -/
def slotGranted (s : State) (t : Nat) (v : Word) : Option State :=
  match (s.tile t).instrAtC with
  | some (.acqs d a b _) =>
    match acqsSource a b t s with
    | .error _ => none
    | .ok (_, _, _, s1) => match writeReg t d v s1 with
      | .error _ => none
      | .ok s2 => some (completeC (acquire s2 t) t)
  | some (.rels d a b _) =>
    match relsSource d a b t s with
    | .error _ => none
    | .ok (_, _, _, _, s1) => some (completeC s1 t)
  | _ => none

/-- `SLOT_WAIT_SERVED` (R338): of the requests that wait on a slot, the oldest that the slot is ready for is served (log 16);
if the slot has an uncorrectable error since, its C takes MEMERR (R380). -/
def execSlotWaitServed (t slot : Nat) (s : State) : Out :=
  let tl := s.tile t
  let sl := tGet Slot.zero tl.ring slot
  match tl.slotWaits.find? (fun r => r.slot = slot && slotReady sl r.acquire r.role) with
  | none => .next s
  | some r =>
    if tl.badAt (opmSlot slot) slotBytes then
      .next (deliverTrap (withdraw s r.tile) r.tile .C .MEMERR 0 (s.tile r.tile).cntC.pc)
    else
    let (sl1, v) := slotAct sl r.acquire r.role r.data
    let s1 := s.setTile t { tl with ring := tSet .zero tl.ring slot sl1, slotWaits := tl.slotWaits.erase r }
    match slotGranted s1 r.tile v with
    | none => .next s
    | some s2 => .next s2

/-! ### Updates (R355-R361) -/

/-- `BATCH_WINDOW_EXPIRY` (R357): an open batch leaves as a whole. -/
def execBatchWindowExpiry (t pub : Nat) (s : State) : Out :=
  if (tGet [] (s.tile t).batches pub).isEmpty then .next s else .next (closeBatch s t pub)

/-- The runs of consecutive bytes of a flit, each with its place in the line. -/
def flitRuns : Table Byte → List (Nat × List Byte)
  | [] => []
  | (k, b) :: rest => match flitRuns rest with
    | (j, bs) :: more => if j = k + 1 then (k, b :: bs) :: more else (k, [b]) :: (j, bs) :: more
    | [] => [(k, [b])]

/-- Applies a flit at a subscriber: its bytes are written, and not forwarded (R354, R355). -/
def applyFlit (s : State) (u : Nat) (e : SubEntry) (f : Flit) : State :=
  let base := e.soff.toNat + 64 * f.line
  (flitRuns f.bytes).foldl (fun s (k, bs) => scratchWrite s u (base + k) bs f.cls false false) s

/-- Flits that a spill ring holds (R345). -/
def spillRoom (e : SubEntry) : Nat := 1024 * e.spillK.toNat

/-- Appends a flit to a spill ring (R361). -/
def appendSpill (rs : List SpillRing) (ctx rel idx : Nat) (f : Flit) : List SpillRing :=
  if rs.any fun r => r.ctx = ctx && r.rel = rel && r.idx = idx then
    rs.map fun r => if r.ctx = ctx && r.rel = rel && r.idx = idx then { r with flits := r.flits ++ [f] } else r
  else rs ++ [{ ctx := ctx, rel := rel, idx := idx, flits := [f] }]

/-- An update reaches a subscriber that has saved its state: it is spilled, or the subscription lapses (R361). -/
def spillFlit (s : State) (u k : Nat) (e : SubEntry) (f : Flit) : State :=
  if e.spillCnt.toNat < spillRoom e then
    let s1 := s.onTile u fun tl => { tl with subs := tSet .zero tl.subs k { e with spillCnt := e.spillCnt + 1 } }
    { s1 with rings := appendSpill s1.rings ((s.tile u).owner.getD 0) (s.tile u).tileId.toNat k f }
  else s.onTile u fun tl => { tl with subs := tSet .zero tl.subs k { e with state := 2 } }

/-- No earlier update of the same publisher entry and class is under way (R356). -/
def flitFirst (fs : List FlitInFlight) (i : Nat) : Bool :=
  match fs[i]? with
  | none => false
  | some f => (fs.take i).all fun g => !(g.pubTile = f.pubTile && g.pubIdx = f.pubIdx && g.flit.cls = f.flit.cls)

/-- An update that arrives during a `resync` of its subscription: of a line already copied it is of a later write, and is
applied; of any other line it is of an earlier one, and is discarded (R348, R364). -/
def applyDuring (s : State) (u : Nat) (e : SubEntry) (f : Flit) (copied : Nat) : State :=
  if f.line < copied then applyFlit s u e f else s

/-- `UPDATE_APPLY` (R355): an update is applied at its subscriber, or spilled, or discarded. -/
def execUpdateApply (k : Nat) (s : State) : Out :=
  match s.flits[k]? with
  | none => .next s
  | some f =>
    if !flitFirst s.flits k then .next s
    else
      let s1 := { s with flits := s.flits.eraseIdx k }
      let e := tGet SubEntry.zero (s.tile f.subTile).subs f.subIdx
      match (s.tile f.subTile).resyncAt f.subIdx with
      | some k => .next (applyDuring s1 f.subTile e f.flit k)
      | none =>
      if e.state ≠ 1 then .next s1
      else if (s.tile f.subTile).lull = .sealed then .next (spillFlit s1 f.subTile f.subIdx e f.flit)
      else .next (applyFlit s1 f.subTile e f.flit)

/-! ### Spill rings (R345) -/

/-- The most units of spill ring that a context may hold (R345). -/
def spillLimit : Nat := 16384

/-- `SPILL_RING_ALLOCATION` (R345): the policy core answers the oldest request. -/
def execSpillRingAllocation (t : Nat) (s : State) : Out :=
  match s.spillAsks with
  | [] => .next s
  | u :: rest =>
    if u ≠ t then .next s
    else
      let s1 := { s with spillAsks := rest }
      match (s.tile t).cwait with
      | some (.spill k none) =>
        .next (s1.onTile t fun tl =>
          { tl with cwait := some (.spill k (some (decide (s.spillUsed t + k ≤ spillLimit)))) })
      | _ => .next s1

end Sys2Proof.Machine
end

