-- ==== Sys2Proof/Machine/Placement.lean ====
section
/-! DEFINITION. Placement, eviction and clearing (05 R105-R119, 15 R372-R374, 16 R388, R389). -/

namespace Sys2Proof.Machine

open Sys2Proof

/-! ### Port tiles (R107) -/

/-- Position `i` along edge `e` of a die: 0 north, 1 east, 2 south, 3 west. -/
def edgeTile (die e i : Nat) : Nat :=
  match e with
  | 0 => tileAtDie die 0 i
  | 1 => tileAtDie die i 15
  | 2 => tileAtDie die 15 i
  | _ => tileAtDie die i 0

/-- The tile positions that a memory-port tile faces. -/
def memPortFaces (p : Nat) : List Nat :=
  (List.range 2).map fun i => edgeTile (p / 32) (p % 32 / 8) (2 * (p % 8) + i)

/-- The tile positions that a jet-port tile faces. -/
def jetPortFaces (p : Nat) : List Nat :=
  (List.range 8).map fun i => edgeTile (p / 8) (p % 8 / 2) (8 * (p % 2) + i)

/-- A rectangle of tiles. -/
structure Rect where
  row : Nat
  col : Nat
  width : Nat
  height : Nat
  deriving DecidableEq, Repr

/-- A tile of a rectangle. -/
def Rect.has (r : Rect) (t : Nat) : Bool :=
  r.row ≤ rowOf t && rowOf t < r.row + r.height && r.col ≤ colOf t && colOf t < r.col + r.width

/-- The module coordinate of a relative one. -/
def Rect.tileAt (r : Rect) (rel : Nat) : Nat := (r.row + rel / 64) * 64 + (r.col + rel % 64)

/-- The tiles of a rectangle, in row-major order. -/
def Rect.tiles (r : Rect) : List Nat :=
  (List.range (r.height * r.width)).map fun i => (r.row + i / r.width) * 64 + (r.col + i % r.width)

/-- The rectangle of a context that has one. -/
def Context.rect (c : Context) : Rect := { row := c.row, col := c.col, width := c.width, height := c.height }

/-! ### Candidate origins (R106) -/

/-- Contexts other than `n` that hold tiles: placed, sealing or clearing. -/
def holders (s : State) (n : Nat) : List (Nat × Context) := s.ctxs.filter fun (k, c) => k ≠ n && c.phase ≠ .resident && c.phase ≠ .leaving

/-- The conditions of R106 on the rectangle's place and edges. -/
def edgesOk (im : Image) (r : Rect) : Bool :=
  r.row + r.height ≤ 32 && r.col + r.width ≤ 64
    && (!im.edges.getLsbD 0 || r.row % 16 = 0) && (!im.edges.getLsbD 2 || (r.row + r.height) % 16 = 0)
    && (!im.edges.getLsbD 3 || r.col % 16 = 0) && (!im.edges.getLsbD 1 || (r.col + r.width) % 16 = 0)

/-- No tile is another context's, and none is excluded (R106, R378). -/
def tilesFree (s : State) (others : List (Nat × Context)) (r : Rect) : Bool :=
  r.tiles.all fun t => !(s.tile t).excluded && others.all fun (_, c) => !c.rect.has t

/-- The cells of a region at a rectangle. -/
def regionCells (r : Rect) (g : RegionSec) : List Nat :=
  (List.range (g.cheight * g.cwidth)).map fun i => r.tileAt (g.corg + i / g.cwidth * 64 + i % g.cwidth)

/-- Every region lies on one die, on cells that are not excluded (R106, R378). -/
def regionsFit (s : State) (im : Image) (r : Rect) : Bool :=
  im.regions.all fun (_, g) => (regionCells r g).all fun t =>
    dieOf t = dieOf (r.tileAt g.corg) && !tGet false s.badCells t

/-- The clock frequencies of an image's regions on a die. -/
def clocksOn (im : Image) (r : Rect) (die : Nat) : List Nat :=
  (im.regions.filter fun (_, g) => dieOf (r.tileAt g.corg) = die).map fun (_, g) => g.clock

/-- No die needs more than 16 frequencies. -/
def clocksFit (s : State) (others : List (Nat × Context)) (im : Image) (r : Rect) : Bool :=
  (List.range 8).all fun die =>
    let theirs := others.flatMap fun (_, c) => match s.imageOf c with
      | none => []
      | some k => clocksOn k c.rect die
    ((clocksOn im r die ++ theirs).eraseDups).length ≤ 16

/-- Range entries in use at a memory-port tile. -/
def entriesUsed (others : List (Nat × Context)) (p : Nat) : Nat :=
  (others.map fun (_, c) => if c.ports.contains p then c.ranges.length else 0).foldl (· + ·) 0

/-- Adjacent memory-port tiles with room for the image's entries, ascending (R106, R108). -/
def memPortsFor (others : List (Nat × Context)) (im : Image) (r : Rect) : List Nat :=
  (List.range 256).filter fun p =>
    (memPortFaces p).any r.has && entriesUsed others p + im.templates.length ≤ 2048

/-- Adjacent jet-port tiles that no other context has, ascending. -/
def jetPortsFor (others : List (Nat × Context)) (r : Rect) : List Nat :=
  (List.range 64).filter fun p => (jetPortFaces p).any r.has && others.all fun (_, c) => !c.jets.contains p

/-- An origin is a candidate (R106). -/
def candidate (s : State) (others : List (Nat × Context)) (im : Image) (r : Rect) : Bool :=
  edgesOk im r && tilesFree s others r && regionsFit s im r && clocksFit s others im r
    && im.memPorts ≤ (memPortsFor others im r).length && im.jetPorts ≤ (jetPortsFor others r).length

/-- The candidate that comes first by row and then by column (R108). -/
def firstOrigin (s : State) (others : List (Nat × Context)) (im : Image) : Option Rect :=
  ((List.range 2048).map fun k => ({ row := k / 64, col := k % 64, width := im.width, height := im.height } : Rect)).find?
    (candidate s others im)

/-! ### Loading tiles (R110) -/

/-- What a tile keeps whoever owns it: its spare lines, and its exclusion. -/
def Tile.blank (tl : Tile) : Tile := { Tile.reset with spares := tl.spares, excluded := tl.excluded }

/-- A table of the words of a list that differ from zero. -/
def wordTable (ws : List IWord) : Table IWord := (ws.zipIdx.filter fun (w, _) => w ≠ 0).map fun (w, i) => (i, w)

/-- A memory that holds a list of bytes at an offset. -/
def memoryAt (off : Nat) (bs : List Byte) : Memory := (bs.zipIdx.filter fun (b, _) => b ≠ 0).map fun (b, i) => (off + i, b)

/-- The text that a tile runs (R14). -/
def Image.textOf (im : Image) (rel : Nat) : Option TextSec :=
  match im.tileMap[rel / 64 * im.width + rel % 64]? with
  | none => none
  | some k => if k = 0xFFFF then none else im.texts[k]?

/-- A route element as placement loads it. -/
def newNode (r : RouteSec) : RouteNode :=
  { kind := r.kind, param := r.param, inq := [], block := [], out := [], arcs := [], tickets := [], openArcs := [],
    grants := [], eos := [], lulls := [], replyEos := [], count := 0, zseq := 0 }

/-- The route elements of a tile. -/
def routesOf (im : Image) (rel : Nat) : Table RouteNode :=
  (im.routes.filter fun r => r.tile = rel).foldl (fun m r => tInsert m r.slot (newNode r)) []

/-- Steps 1, 3 and 4 of R110 at a tile, for a first placement. -/
def loadTile (im : Image) (n rel org : Nat) (tl : Tile) : Tile :=
  let base := { tl.blank with owner := some n, tileId := BitVec.ofNat 11 rel, origin := BitVec.ofNat 11 org,
                              routes := routesOf im rel }
  let base1 := match tFind im.rowCfgs rel with
    | none => base
    | some v => base.loadRowConfig v.toNat
  match im.textOf rel with
  | none => base1
  | some x => { base1 with hasText := true, nwords := x.words.length, entry := x.entry, istore := wordTable x.words,
                           scratch := memoryAt x.doff x.data }

/-- A node restored from the record: its lull is over. -/
def RouteNode.resume (n : RouteNode) : RouteNode := { n with lulls := [] }

/-- Monitor entries that were armed count as fired (R334). -/
def Tile.fireArmed (tl : Tile) : Tile :=
  let on := (List.range 16).filter fun k => ((tFind tl.mon k).map (·.armed)).getD false
  { tl with fired := on.foldl (fun f k => f ||| (1#16 <<< k)) tl.fired
            mon := tl.mon.map fun (k, m) => (k, { m with armed := false }) }

/-- The text of a restored tile: the record's if the store had been written, and the image-store copy's otherwise
(R373). -/
def restoreText (im : Image) (rel : Nat) (tl : Tile) : Tile :=
  if tl.istoreWritten then tl
  else { tl with istore := ((im.textOf rel).map fun x => wordTable x.words).getD [], istoreBad := [] }

/-- A restored generator: it rebuilds, and re-verifies a declared hash term, as `grest` does (R253). Where the build stops,
nothing is built, and the next sparse command raises the cause (DESIGN CHOICE, log 23). -/
def restoredGen (g : GenState) : GenState :=
  match restoreGen g g.image with
  | .ok k => k
  | .error _ => { g with dirty := true, built := none }

/-- Steps 1, 3 and 4 of R110 at a tile, from a sealed record (R373, R374): zero flags are clear (R258), the generator
rebuilds (R253), monitor entries have fired (R334), and C has executed no `halt` since (R339). -/
def restoreTile (im : Image) (n rel org : Nat) (old : Tile) (r : SealedRecord) : Tile :=
  let tl := restoreText im rel (tGet Tile.reset r.tiles rel)
  { tl.fireArmed with
    owner := some n, origin := BitVec.ofNat 11 org, spares := old.spares, excluded := old.excluded, zflags := [],
    batches := [], xOld := [], lull := .none, clearing := false, restored := true
    gen := restoredGen tl.gen
    routes := tl.routes.map fun (k, m) => (k, m.resume)
    pending := tl.pending.map fun p => { p with saved := true } }

/-- The tiles of the rectangle are loaded. -/
def loadTiles (s : State) (n : Nat) (im : Image) (r : Rect) (rec : Option SealedRecord) : State :=
  r.tiles.foldl (fun s t =>
    let rel := (rowOf t - r.row) * 64 + (colOf t - r.col)
    s.onTile t fun tl => match rec with
      | none => loadTile im n rel (r.row * 64 + r.col) tl
      | some k => restoreTile im n rel (r.row * 64 + r.col) tl k) s

/-- The subscription of a declaration (R22): without a spill ring where that would take the context's total above 16,384
units (R352). -/
def declareSub (s : State) (r : Rect) (d : SubDecl) : State :=
  let t := r.tileAt d.subTile
  let u := r.tileAt d.pub
  match lowestFree (fun k => (tGet SubEntry.zero (s.tile t).subs k).state ≠ 0),
        lowestFree (fun k => (tGet PubEntry.zero (s.tile u).pubs k).valid) with
  | some i, some e => installSub s t { pub := u, poff := BitVec.ofNat 21 d.poff, soff := BitVec.ofNat 21 d.soff,
                                       lines := BitVec.ofNat 13 d.lines,
                                       spillK := if 16384 < s.spillUsed t + d.spillK then 0
                                                 else BitVec.ofNat 16 d.spillK } i e
  | _, _ => s

/-- A spill ring is applied over the restored scratchpad, or emptied without replay for a LAPSED subscription (R362). -/
def replayRing (s : State) (r : Rect) (k : SpillRing) : State :=
  let t := r.tileAt k.rel
  let e := tGet SubEntry.zero (s.tile t).subs k.idx
  let s1 := if e.state = 1 then k.flits.foldl (fun s f => applyFlit s t e f) s else s
  s1.onTile t fun tl => { tl with subs := tSet .zero tl.subs k.idx { e with spillCnt := 0 } }

/-- Step 6 of R110. -/
def linkSubs (s : State) (n : Nat) (im : Image) (r : Rect) (restored : Bool) : State :=
  if restored then
    let s1 := (s.rings.filter fun k => k.ctx = n).foldl (fun s k => replayRing s r k) s
    { s1 with rings := s1.rings.filter fun k => k.ctx ≠ n }
  else im.subs.foldl (fun s d => declareSub s r d) s

/-- Step 5 of R110: the first stage of every region, or the stage that the record holds, with its cells' state; the
configuration is loaded anew. -/
def placedRegions (im : Image) : Option SealedRecord → Table Region
  | none => im.firstStages.foldl (fun m k => tInsert m k (Region.fresh k (im.bitsOf k))) []
  | some q => q.regions.map fun (k, g) => (k, { g.load (im.bitsOf g.stage) with markers := [], sent := [] })

/-- The position of a generator. -/
def Generator.pos (g : Generator) : GenPos := { next := g.next, midBurst := g.midBurst, unsent := g.unsent }

/-- A generator goes on from the position that the record holds; words that have come for it since follow those that it kept
(R374). -/
def Generator.restored (g : Generator) (p : GenPos) : Generator :=
  { g with lull := .none, next := p.next, midBurst := p.midBurst, unsent := p.unsent ++ g.unsent }

/-- The generators of a context that is placed: those of a record from their positions (R374). -/
def placedGens (gens : Table Generator) : Option SealedRecord → Table Generator
  | none => gens.map fun (i, g) => (i, { g with lull := .none })
  | some r => gens.map fun (i, g) => (i, g.restored (tGet Generator.idle.pos r.gens i))

/-- PLACING A CONTEXT at an origin (R110). -/
def placeAt (s : State) (n : Nat) (c : Context) (im : Image) (r : Rect) : State :=
  let others := holders s n
  let s1 := loadTiles s n im r c.sealedRec
  let s2 := s1.onCtx n fun k =>
    { k with row := r.row, col := r.col, phase := .placed, ranges := s.rangesOf n c
             ports := (memPortsFor others im r).take im.memPorts, jets := (jetPortsFor others r).take im.jetPorts
             regions := placedRegions im c.sealedRec
             gens := placedGens k.gens c.sealedRec
             sealedRec := none, waitsRoom := false, aged := 0 }
  let s3 := linkSubs { s2 with seals := tErase s2.seals n } n im r c.sealedRec.isSome
  r.tiles.foldl (fun s t => if c.sealedRec.isSome then deliverPending s t else s) s3

/-! ### The placement procedure (R105, R109, R388) -/

/-- What a context's placement is for: the run that it was evicted with, or the head of its FIFO; its effective
priority and the order of its validation. -/
def Context.wants (c : Context) : Option (Nat × Nat) :=
  if c.phase ≠ .resident || c.destroy.isSome || c.busy || c.waitsRoom then none
  else match c.run, c.fifo with
    | some r, _ => some (min 3 (r.binding.prio + c.aged), r.binding.stamp)
    | none, b :: _ => some (b.eff, b.stamp)
    | none, [] => none

/-- A context is the next to be placed: a higher effective priority, or an earlier validation (R96, R388). -/
def nextToPlace (s : State) (w : Nat × Nat) : Bool :=
  s.ctxs.all fun (_, c) => match c.wants with
    | none => true
    | some k => k.1 < w.1 || (k.1 = w.1 && w.2 ≤ k.2)

/-- Step 1 of R109: the waiting binding completes with NOFIT. -/
def noFit (s : State) (n : Nat) (c : Context) : State :=
  match c.run, c.fifo with
  | some r, _ => endRun s n r.binding (Status.plain .NOFIT)
  | none, b :: rest => completeBinding (s.onCtx n fun c => { c with fifo := rest }) n b (Status.plain .NOFIT)
  | none, [] => s

/-- A placed context is idle: no run, and an empty FIFO (R109). -/
def Context.isIdle (c : Context) : Bool := c.phase == .placed && c.run.isNone && c.fifo.isEmpty && c.destroy.isNone

/-- The longest-idle context. -/
def longestIdle (s : State) : Option Nat :=
  let idle := s.ctxs.filter fun (_, c) => c.isIdle && !c.evictAsked
  (idle.find? fun (_, c) => idle.all fun (_, k) => c.idleSince ≤ k.idleSince).map (·.1)

/-- An eviction for placement, or a clearing, is under way. -/
def roomComing (s : State) : Bool := s.ctxs.any fun (_, c) => c.evictAsked || c.phase = .lulling || c.phase = .clearing

/-- Steps 2 and 3 of R109: the longest-idle context is evicted, and the placement waits for a clearing. -/
def makeRoom (s : State) (n : Nat) : State :=
  let s1 := s.onCtx n fun c => { c with waitsRoom := true }
  if roomComing s then s1
  else match longestIdle s with
    | none => s1
    | some k => s1.onCtx k fun c => { c with evictAsked := true }

/-- Each record, as it is read back under the context's key, has the SHA3-256 that the policy core kept (R373, R374). -/
def recordSound (s : State) (n : Nat) (c : Context) : Bool :=
  match c.sealedRec with
  | none => true
  | some r => (tFind s.seals n).isSome && decide (tFind s.seals n = sealsRead s n c.key r)

/-- A record that differs from its seal: the context is destroyed, and its bindings complete with KILLED (R374). -/
def breakSeal (s : State) (n : Nat) (c : Context) : State :=
  let s1 := (killRuns s n c).onCtx n fun c => { c with fifo := [], run := none }
  destroyContext s1 n { src := .queue 0, runtag := 0, silent := true }

/-- `PLACEMENT` (R105-R110). -/
def execPlacement (n : Nat) (s : State) : Out :=
  match tFind s.ctxs n with
  | none => .next s
  | some c => match c.wants, s.imageOf c with
    | some w, some im =>
      if !nextToPlace s w then .next s
      else if (firstOrigin s [] im).isNone then .next (noFit s n c)
      else if !recordSound s n c then .next (breakSeal s n c)
      else match firstOrigin s (holders s n) im with
        | some r => .next (placeAt s n c im r)
        | none => .next (makeRoom s n)
    | _, _ => .next s

/-! ### The lull sequence (R372) -/

/-- `EVICTION` (R388): the Front stops dispatching, and sends lull markers to every tile and every generator. -/
def execEviction (n : Nat) (s : State) : Out :=
  match tFind s.ctxs n with
  | none => .next s
  | some c =>
    if !c.evictAsked || c.phase ≠ .placed then .next s
    else
      let s1 := s.onCtx n fun c => { c with evictAsked := false, phase := .lulling }
      .next { s1 with lulls := s1.lulls ++ c.tileList.map (fun t => (.tile t, c.gen))
                        ++ (List.range (s.endpointsOf c).length).map fun i => (.generator n i, c.gen) }

/-- The marker waits at the tile: inside a transfer phase, and while C completes an instruction (R343, R372). -/
def markerWaits (tl : Tile) : Bool :=
  tl.phase.isSome || (match tl.cwait with
    | some (.spill _ _) => false
    | some (.resync _ _) => false
    | some w => w.mustFinish
    | none => false)

/-- A tile takes its marker: issue stops, a wait of R343 is abandoned (but for an arrival at a barrier), a
`resync` in progress is abandoned and its subscription lapses, and open batches leave (R343, R360, R364). -/
def lullTile (s : State) (t : Nat) : State :=
  let s1 := closeBatches (withdraw s t) t
  let s2 := s1.onTile t fun tl =>
    { tl with lull := .lulled false []
              relSince := none
              cwait := match tl.cwait with
                | some (.barrier g) => some (.barrier g)
                | _ => none
              subs := match tl.cwait with
                | some (.resync i _) => tSet .zero tl.subs i { tGet .zero tl.subs i with state := 2 }
                | _ => tl.subs }
  { s2 with spillAsks := s2.spillAsks.filter (· ≠ t) }

/-- `LULL_MARKER_ARRIVAL` (R372): at a tile, or at a generator, which may have saved at the marker on its port (R423). -/
def execLullMarkerArrival (target : LullTarget) (s : State) : Out :=
  match s.lulls.find? (fun k => decide (k.1 = target)) with
  | none => .next s
  | some m =>
    let s1 := { s with lulls := s.lulls.erase m }
    match target with
    | .tile t => if markerWaits (s.tile t) then .next s else .next (lullTile s1 t)
    | .generator n i =>
      if (s.ctxs.any fun (k, c) => k = n && c.gen = m.2) then .next (s1.onGen n i fun g =>
          if g.lull = .saved then g else { g with lull := .asked })
      else .next s1

/-! ### Ports that carry a marker (R372) -/

/-- A QUEUE endpoint stands between a region and a port of the tile, in one direction. -/
def queueAt (s : State) (c : Context) (t p : Nat) (feeds : Bool) : Bool :=
  match s.imageOf c with
  | none => false
  | some im => im.endpoints.any fun e => c.tileAt e.tile = t && e.port = p && atRegion im e && queueFeeds im e = feeds

/-- A loaded region maps the port, in one direction. -/
def regionAtPort (s : State) (c : Context) (t p : Nat) (toTile : Bool) : Bool :=
  c.regions.any fun (_, r) => (s.regionPorts c r).any fun m => m.toTile = toTile && c.tileAt m.tile = t && m.tport = p

/-- An arbiter of the context sends its replies to inbound port `p` of the tile; or has the port as an arc. -/
def nodesOver (s : State) (c : Context) (f : RouteNode → Bool) : Bool :=
  c.tileList.any fun u => (s.tile u).routes.any fun (_, n) => f n
def repliesTo (s : State) (c : Context) (t p : Nat) : Bool :=
  nodesOver s c fun n => n.kind = 2 && n.rport = p && n.arcList.any fun (rel, _) => c.tileAt rel = t
def arcOf (s : State) (c : Context) (t p : Nat) : Bool :=
  nodesOver s c fun n => 2 ≤ n.kind && n.arcList.any fun (rel, q) => c.tileAt rel = t && q = p

/-- An inbound port is mapped, and its marker is the tile's to wait for. -/
def inMapped (s : State) (c : Context) (t p : Nat) : Bool :=
  !(s.feeders c t p).isEmpty || (regionAtPort s c t p true && !queueAt s c t p false)
    || (s.tile t).routes.any (fun (_, n) => 2 ≤ n.kind && n.tport = p) || repliesTo s c t p

/-- An outbound port is mapped, and its marker is the tile's to send. -/
def outMapped (s : State) (c : Context) (t p : Nat) : Bool :=
  ((s.imageOf c).map fun im => im.endpoints.any fun e =>
      c.tileAt e.tile = t && e.port = p && !e.feeds im && !atRegion im e).getD false
    || (regionAtPort s c t p false && !queueAt s c t p true)
    || (s.tile t).routes.any (fun (_, n) => n.kind = 2 && n.rport = p) || arcOf s c t p

/-! ### Sealing (R373) -/

/-- No command of the tile has started and not completed, and no write phase is under way (R145, R239). One that has completed
but for a give push is not in flight: it counts as completed (R141). -/
def Tile.commandsDone (tl : Tile) : Bool := tl.wpend.isNone && tl.notes.isEmpty && (tl.qL ++ tl.qX ++ tl.qS).all fun q => !q.inFlight

/-- The tile sends its markers, after the words already sent: once its commands have completed and its updates are
settled (R360, R372). -/
def sendMarkers (s : State) (t : Nat) (c : Context) : State :=
  let s1 := closeBatches s t
  let ps := (List.range 4).filter (outMapped s c t)
  if !(s.tile t).commandsDone then s
  else if (s1.flits.any fun f => f.pubTile = t) || s1.tokens.any (fun k => k.src = t) then s1
  else (ps.foldl (fun s p => putOut s t p marker) s1).onTile t fun tl => { tl with lull := .lulled true [] }

/-- Every mapped inbound port has its marker. -/
def markersIn (s : State) (t : Nat) (c : Context) : Bool :=
  (List.range 4).all fun p => !inMapped s c t p || ((s.tile t).inFifo p).any (·.isMarker)

/-- The tile saves its state: the markers are no part of it. -/
def sealTile (tl : Tile) : Tile :=
  { tl with lull := .sealed, inPorts := tl.inPorts.filterMap fun (p, ws) =>
              let k := ws.filter (!·.isMarker)
              if k.isEmpty then none else some (p, k) }

/-- `TILE_SEAL` (R372, R373): the tile sends its markers, and is sealed once it has those of its ports. -/
def execTileSeal (t : Nat) (s : State) : Out :=
  match (s.tile t).lull, s.ctxOf t with
  | .lulled false _, some c => .next (sendMarkers s t c)
  | .lulled true _, some c => if markersIn s t c then .next (s.onTile t sealTile) else .next s
  | _, _ => .next s

/-- Every region has passed its markers on, and stands between no two configurations. -/
def regionsSaved (s : State) (c : Context) : Bool :=
  c.regions.all fun (_, r) => decide (r.state = .running) && match s.regionSec c r with
    | none => true
    | some g => (g.ins.all fun m => r.markers.contains m.rport) && g.outs.all fun m => r.sent.contains m.rport

/-- Every node of the context has passed its markers on. -/
def nodesSaved (s : State) (c : Context) : Bool :=
  c.tileList.all fun u => (s.tile u).routes.all fun (_, n) =>
    (n.kind < 2 || n.lulled) && n.inq.all (!·.isMarker) && n.replyEos.all (· < 8)

/-- A generator whose position the record holds: what is left has come, or will come, from outside the context. -/
def Generator.away (g : Generator) : Generator := { g with next := 0, midBurst := false, unsent := [] }

/-- The record of a context (R373). -/
def sealContext (s : State) (c : Context) : SealedRecord :=
  { tiles := c.rels.map fun rel => (rel, s.tile (c.tileAt rel)), regions := c.regions, gens := c.gens.map fun (i, g) => (i, g.pos) }

/-- Updates of a context's tiles that are not settled: open batches, and flits between two tiles (R360). -/
def updatesOpen (s : State) (c : Context) : Bool :=
  c.tileList.any (fun t => !(s.tile t).batches.isEmpty)
    || s.flits.any fun f => c.tileList.contains f.pubTile || c.tileList.contains f.subTile

/-- `CONTEXT_SEAL` (R372): every agent has saved; the record is sealed, and the clearing token follows. A batch that another
tile's store has opened since leaves first, and no update is in flight (R360). -/
def execContextSeal (n : Nat) (s : State) : Out :=
  match tFind s.ctxs n with
  | none => .next s
  | some c =>
    let tilesDone := c.tileList.all fun t => decide ((s.tile t).lull = .sealed)
    let gensDone := (List.range (s.endpointsOf c).length).all fun i => decide ((c.generator i).lull = .saved)
    if c.phase ≠ .lulling || !tilesDone || !gensDone || !regionsSaved s c || !nodesSaved s c then .next s
    else if updatesOpen s c then .next (c.tileList.foldl closeBatches s)
    else
      let r := sealContext s c
      let s1 := (putRecord s n r).onCtx n fun c => { c with gens := c.gens.map fun (i, g) => (i, g.away) }
      .next (beginClearing s1 n { c with sealedRec := some r })

/-! ### Clearing (R116-R118, R389) -/

/-- The context whose clearing has still to clear a tile. -/
def clearingCtx (s : State) (t : Nat) : Option (Nat × Context) :=
  s.ctxs.find? fun (_, c) => c.phase == .clearing && c.toClear.contains t

/-- The clearing of a tile (R117); packets of the departing context to or from it are discarded (R119). -/
def clearTile (s : State) (t : Nat) : State :=
  let s1 := s.onTile t Tile.blank
  { s1 with flits := s1.flits.filter fun f => f.pubTile ≠ t && f.subTile ≠ t
            tokens := s1.tokens.filter fun k => k.src ≠ t && k.home ≠ t
            spillAsks := s1.spillAsks.filter (· ≠ t) }

/-- `CLEARING_TOKEN` (R116, R117): a tile that has the token clears itself, and passes it east. -/
def execClearingToken (t : Nat) (s : State) : Out :=
  match clearingCtx s t with
  | none => .next s
  | some (n, c) =>
    if !(s.tile t).clearing then .next s
    else
      let s1 := (clearTile s t).onCtx n fun c => { c with toClear := c.toClear.filter (· ≠ t) }
      .next (if colOf t + 1 < c.col + c.width then s1.onTile (t + 1) fun tl => { tl with clearing := true } else s1)

/-- The memory-port tiles are released: range entries, cached translations and what the ports have seen of the context go
(R118, R290, R292). -/
def releasePorts (s : State) (n : Nat) (c : Context) : State :=
  let s1 := (shootDown s n c 0 (2 ^ 64)).onCtx n fun c => { c with ranges := [], ports := [], jets := [], regions := [] }
  { s1 with prefetch := s1.prefetch.filterMap fun (p, f) =>
              let f1 := { f with seen := f.seen.filter fun x => x.ctx ≠ n }
              if f1 = .reset then none else some (p, f1) }

/-- A retry of every placement that waits for room follows each clearing (R109). -/
def retryPlacements (s : State) : State := { s with ctxs := s.ctxs.map fun (k, c) => (k, { c with waitsRoom := false }) }

/-- STEPS 4 TO 7 OF R389, after the clearing: the key slot is zeroised, the sealed record, the spill rings and an unused
copy are freed, the generation rises, and the record is written. -/
def finishDestroy (s : State) (n : Nat) (c : Context) (d : Destroy) : State :=
  let others := s.ctxs.filter fun (k, _) => k ≠ n
  let s1 := { s with
    ctxs := others
    keySlots := s.keySlots.filter fun (_, k) => k ≠ c.key
    images := if others.any fun (_, k) => k.copy = c.copy then s.images else tErase s.images c.copy
    rings := s.rings.filter fun r => r.ctx ≠ n
    seals := tErase s.seals n
    gens := tSet 0 s.gens n (c.gen + 1)
    fenceDrop := tErase s.fenceDrop n }
  if d.silent then s1 else complete s1 d.src (s1.dcqOf d.src) (recordBody d.src d.runtag.toNat (Status.OK.on n)) false false none

/-- `CLEARING_COMPLETE` (R118): every tile is cleared, and no posted request is outstanding. -/
def execClearingComplete (n : Nat) (s : State) : Out :=
  match tFind s.ctxs n with
  | none => .next s
  | some c =>
    if (c.phase ≠ .clearing && c.phase ≠ .leaving) || !c.toClear.isEmpty || s.postedCount n c.gen ≠ 0 then .next s
    else
      let s1 := retryPlacements (releasePorts s n c)
      match c.destroy with
      | some d => .next (finishDestroy s1 n c d)
      | none => .next (s1.onCtx n fun c => { c with phase := .resident })

end Sys2Proof.Machine
end

