-- ==== Sys2Proof/Machine/Reset.lean ====
section
/-! DEFINITION. Hardware errors and their tests, fatal errors, resets, boot, and power (15 R378-R381, 16 R390-R392, R401,
R405). -/

namespace Sys2Proof.Machine

open Sys2Proof

/-! ### Upsets (R125, R311, R378-R380) -/

/-- The scratchpad lines of a tile, and the unit number of one. -/
def linesPerTile : Nat := 32768
def lineUnit (tile line : Nat) : Nat := tile * linesPerTile + line

/-- The unit number of a way of a slice: its 16 ways and 2 spares. -/
def waysPerSlice : Nat := 32
def wayUnit (slice way : Nat) : Nat := slice * waysPerSlice + way % waysPerSlice

/-- An error strikes storage: ECC meets it, and has corrected it or marks what it struck. A single-bit error in a frame waits
for the scrubber, one that no ECC word shows for the signature (R125), and one in a sealed record for its seal (R374). -/
def applyUpset (s : State) (u : Upset) : State :=
  match u with
  | .scratchBit t ln => noteError s errCorrected .scratchpad (lineUnit t ln) t (BitVec.ofNat 64 (64 * ln))
  | .wayBit k w => noteError s errCorrected .cacheWay (wayUnit k w) k 0
  | .storeBit t w => noteError s errCorrected .instrStore t t (BitVec.ofNat 64 (4 * w))
  | .registerBit t w => noteError s errCorrected .registerFile t t (BitVec.ofNat 64 (8 * w))
  | .scratchLine t ln =>
    let s1 := s.onTile t fun tl => { tl with poison := tSet false tl.poison ln true }
    noteError s1 errUncorrectable .scratchpad (lineUnit t ln) t (BitVec.ofNat 64 (64 * ln))
  | .memoryHalf h w =>
    let k := homeSliceOf (64 * h)
    noteError { s with devPoison := tSet false s.devPoison h true } errUncorrectable .cacheWay (wayUnit k w) k
      (BitVec.ofNat 64 (64 * h))
  | .storeWord t w =>
    let s1 := s.onTile t fun tl => { tl with istoreBad := tSet false tl.istoreBad w true }
    noteError s1 errUncorrectable .instrStore t t (BitVec.ofNat 64 (4 * w))
  | .registerWord t w =>
    let s1 := s.onTile t fun tl => { tl with badRegs := tSet false tl.badRegs w true }
    noteError s1 errUncorrectable .registerFile t t (BitVec.ofNat 64 (8 * w))
  | .frameBit n k cell f => s.onRegion n k fun r => { r with upsets := r.upsets ++ [(cell, f)] }
  | .frame n k cell f => s.onRegion n k fun r => { r with bad := true, badCell := cell, badFrame := f }
  | .frames n k store => s.onRegion n k fun r => { r with store := store }
  | .sealedRecord n r =>
    if ((tFind s.ctxs n).bind (·.sealedRec)).isNone then s
    else (storeRecord s n r).onCtx n fun c => { c with sealedRec := some r }

/-! ### Self-tests (R378) -/

/-- Times of the errors of a unit. -/
def State.faultsOf (s : State) (u : HwUnit) (index : Nat) : List Word := tGet [] s.unitFaults (unitKey u index)

/-- Microseconds in 24 hours. -/
def dayMicros : Nat := 86400000000

/-- The last error is the third within 24 hours. -/
def thirdFault (ts : List Word) : Bool :=
  match ts.reverse with
  | a :: _ :: c :: _ => a.toNat - c.toNat ≤ dayMicros
  | _ => false

/-- The cell of a frame's unit, and the slice of a way's. -/
def unitCell (index : Nat) : Nat := index % 2048
def unitSlice (index : Nat) : Nat := index / waysPerSlice

/-- The unit is at its quiescent point: a configuration frame waits for a hold or the reload of the region on its cell. -/
def quiescent (s : State) (u : HwUnit) (index : Nat) : Bool :=
  match u with
  | .configFrame => s.ctxs.all fun (_, c) => !c.onModule || c.regions.all fun (_, r) => match s.regionSec c r with
    | none => true
    | some g => !(regionCells c.rect g).contains (unitCell index) || decide (r.state ≠ .running)
  | _ => true

/-- A LASTING fault of a scratchpad line: a spare of its bank, or with none left the tile is excluded. -/
def spareLine (s : State) (index : Nat) : State :=
  let t := index / linesPerTile
  let ln := index % linesPerTile
  let used := tGet 0 (s.tile t).spares (ln % 32)
  if used < 8 then
    logError (s.onTile t fun tl => { tl with spares := tSet 0 tl.spares (ln % 32) (used + 1) }) errSpare (unitCode .scratchpad)
      t 2 (BitVec.ofNat 64 (64 * ln))
  else s.onTile t fun tl => { tl with excluded := true }

/-- The `n` most recently used lines of every set stay. -/
def trimLines (n : Nat) : List CacheLine → List CacheLine → List CacheLine
  | _, [] => []
  | seen, c :: rest =>
    if (seen.filter fun d => setOf d.line = setOf c.line).length < n then c :: trimLines n (c :: seen) rest
    else trimLines n (c :: seen) rest

/-- The lines of a way are written back and invalidated: the model gives up the least recently used of a full set
(log 9). -/
def Slice.dropWay (sl : Slice) : Slice :=
  let keep := trimLines (sl.ways - 1) [] sl.lines
  let gone := sl.lines.filter fun c => c.dirty && !keep.contains c
  gone.foldl (fun sl c => sl.request { line := c.line, half := 0, write := true, alloc := false, share := 0, back := none })
    { sl with lines := keep }

/-- A LASTING fault of a way: a spare way, or one way fewer. -/
def spareWay (s : State) (k : Nat) : State :=
  if 0 < (s.slice k).spareWays then
    logError (s.onSlice k fun sl => { sl with spareWays := sl.spareWays - 1 }) errSpare (unitCode .cacheWay) k 2 0
  else s.onSlice k fun sl => { sl with ways := sl.ways - 1 }

/-- What a LASTING fault brings. -/
def lastingFault (s : State) (u : HwUnit) (index : Nat) : State :=
  match u with
  | .scratchpad => spareLine s index
  | .cacheWay => spareWay s (unitSlice index)
  | .configFrame => { s with badCells := tSet false s.badCells (unitCell index) true }
  | _ => s

/-- The number of a unit in an error record. -/
def recordNumber (u : HwUnit) (index : Nat) : Nat :=
  match u with
  | .scratchpad => index / linesPerTile
  | .cacheWay => unitSlice index
  | .configFrame => unitCell index
  | _ => index

/-- `SELF_TEST` (R378): a scheduled test, at the unit's quiescent point; every error schedules one. -/
def execSelfTest (u : HwUnit) (index : Nat) (lasting : Bool) (s : State) : Out :=
  if !tGet false s.testsDue (unitKey u index) || !quiescent s u index then .next s
  else
    let bad := lasting || thirdFault (s.faultsOf u index)
    let s0 := if u = .cacheWay then s.onSlice (unitSlice index) Slice.dropWay else s
    let s1 := logError { s0 with testsDue := tErase s0.testsDue (unitKey u index) } errTest (unitCode u) (recordNumber u index) (if bad then 2 else 1) 0
    .next (if bad then lastingFault s1 u index else s1)

/-! ### Fatal errors (R381) -/

/-- A word of a tile's OPM, as firmware reads it, in a protected tile too (R71). -/
def dumpWord (s : State) (t off : Nat) : Word :=
  if off < scratchSize then BitVec.ofNat 64 (bytesNat ((s.tile t).scratch.readBytes off 8)) else opmRead s t off true

/-- A line of an OPM window is not all zero. -/
def lineSet (s : State) (t off : Nat) : Bool := (List.range 8).any fun k => dumpWord s t (off + 8 * k) ≠ 0

/-- The offsets of the lines of a tile's OPM that the dump holds: those that are not all zero. -/
def dumpLines (s : State) (t : Nat) : List Nat :=
  (((s.tile t).scratch.map fun (c : Host.Cell) => 64 * (c.1 / 64)).eraseDups
    ++ (opmWindows.drop 1).flatMap fun (o, n) => (List.range ((n + 63) / 64)).map fun i => o + 64 * i).filter (lineSet s t)

/-- A line of an OPM window. -/
def opmLine (s : State) (t off : Nat) : List Byte :=
  (List.range 8).flatMap fun k => natBytes 8 (dumpWord s t (off + 8 * k)).toNat

/-- The dump region in bytes. -/
def dumpRoom : Nat := 2 ^ 31

/-- The whole dump in plaintext: the lines of every tile in module order, and the error log. -/
def dumpText (s : State) : List Byte :=
  ((List.range 2048).flatMap fun t => (dumpLines s t).flatMap (opmLine s t))
    ++ s.errLog.flatMap fun (_, r) => natBytes 32 r.toNat

/-- A FATAL ERROR of a unit, by its code and number (R381, R395): dispatch stops, the dump is written, encrypted and cut off at
the end of its region, and only a hot reset is accepted. -/
def goFatal (s : State) (unit number : Nat) : State :=
  let s1 := logError s errFatal unit number 0 0
  let text := dumpText s1
  { s1 with mode := .fatal
            dump := some { bytes := Config.dumpCipher (text.take dumpRoom), trunc := decide (dumpRoom < text.length) } }

/-- `FATAL_ERROR` (R381). The row names no unit: the record has unit 0 (DESIGN CHOICE, log 27). -/
def execFatalError (s : State) : Out := .next (goFatal s 0 0)

/-- `WATCHDOG_EXPIRY` (R381): the policy core's watchdog expires, a fatal error. -/
def execWatchdogExpiry (s : State) : Out := .next (goFatal s 0 0)

/-! ### Resets (R390, R392) -/

/-- Zeroes a run of device memory. -/
def zeroRun (s : State) (a n : Nat) : State :=
  { s with devMem := s.devMem.filter fun c => !(a ≤ c.1 && c.1 < a + n)
           devPoison := s.devPoison.filter fun c => !(a ≤ 64 * c.1 && 64 * c.1 < a + n)
           devKey := s.devKey.filter fun c => !(a ≤ 128 * c.1 && 128 * c.1 < a + n) }

/-- Zeroes what backed a range entry, if its data is plaintext, and its page map (R392). -/
def zeroRange (s : State) (r : RangeEntry) : State :=
  let span := r.vlimit - r.vbase
  if r.peer then s
  else
    let s1 := if !r.plain then s
      else if r.paged then (mappedPages s r).foldl (fun s a => zeroRun s a pageSize) s
      else zeroRun s r.pbase span
    if r.paged then zeroRun s1 r.pbase (8 * (span / pageSize)) else s1

/-- Firmware zeroes every page that backed plaintext, and clears the page maps. -/
def zeroRanges (s : State) : State :=
  (s.ctxs.flatMap fun (n, c) => s.rangesOf n c).foldl zeroRange s

/-- The generations of the context numbers in use rise (R114). -/
def raiseGens (s : State) : Table (BitVec 16) := s.ctxs.foldl (fun m (n, c) => tSet 0 m n (c.gen + 1)) s.gens

/-- THE RESET OF EVERY FUNCTION (R390, R392): contexts, keys, queues, lists, shares, lanes, registers and host-side
security go, and the cycle counts begin anew (R149); the error log, the dump, spares and exclusions stay, and so does memory that is not zeroed. -/
def resetDevice (s : State) : State :=
  let s1 := zeroRanges s
  { State.reset with
    tiles := s1.tiles.filterMap fun (t, tl) => if tl.blank = Tile.reset then none else some (t, tl.blank)
    gens := raiseGens s1, devMem := s1.devMem, devKey := s1.devKey, devPoison := s1.devPoison, hostMem := s1.hostMem
    nextKey := s1.nextKey, slices := s1.slices, nextRequest := s1.nextRequest, mode := s1.mode, linkUp := s1.linkUp
    power := s1.power, temp := s1.temp, throttled := s1.throttled, tripped := s1.tripped, fwDigest := s1.fwDigest
    errLog := s1.errLog, unitFaults := s1.unitFaults, testsDue := s1.testsDue, badCells := s1.badCells, dump := s1.dump
    bridges := s1.bridges, outbox := s1.outbox, stamp := s1.stamp, tick := s1.tick, since := s1.tick, agenda := s1.agenda }

/-- `HOT_RESET` (R390, R392): after a fatal error, the boot sequence from step 2 follows. -/
def execHotReset (s : State) : Out :=
  let s1 := resetDevice s
  .next (if s.mode = .fatal then { s1 with mode := .ready, bridges := [] } else s1)

/-- `PF_FLR` (R390, R392). -/
def execPfFlr (s : State) : Out := .next (resetDevice s)

/-- The bindings of a context that came over a launch lane complete with KILLED (R392). -/
def killLanes (s : State) (n : Nat) (c : Context) : State :=
  killFifo s n (((c.run.map fun r => [r.binding]).getD [] ++ c.fifo).filter fun b => match b.src with
    | .lane _ _ => true
    | .queue _ => false)

/-- The registers, SPDM sessions, TDISP interface and host-token counts of a function return to reset; its allow list, its
allocation and its pool are the physical function's, and its IDE streams stand until the link goes down (R390, R395). -/
def Function.flr (f : Function) : Function :=
  { Function.reset with ideUsed := f.ideUsed, ideUp := f.ideUp, allocBase := f.allocBase, allocSize := f.allocSize, poolBase := f.poolBase, poolSize := f.poolSize,
                        allow := f.allow }

/-- Every queue of a function is deleted, and records held for one go with it. -/
def removeQueues (s : State) (f : Nat) : State :=
  let qs := (s.subQs.filter fun (_, q) => q.ring.func = f).map (·.1) ++ (s.compQs.filter fun (_, r) => r.func = f).map (·.1)
  let s1 := qs.foldl removeQueue s
  { s1 with held := s1.held.filter fun h => (tFind s1.compQs h.cq).isSome
            fetched := s1.fetched.filter fun e => match e.1 with
              | .queue q => (tFind s1.subQs q).isSome
              | .lane _ _ => true }

/-- `VF_FLR` (R390, R392): the contexts of a virtual function are destroyed without records. -/
def execVfFlr (f : Nat) (s : State) : Out :=
  if f = 0 then .next s
  else
    let s1 := s.ctxs.foldl (fun s (n, c) =>
      if c.func = f then destroyContext (killLanes s n c) n { src := .queue 0, runtag := 0, silent := true } else s) s
    .next ((removeQueues s1 f).onFunction f Function.flr)

/-! ### Boot (R401) -/

/-- `POWER_GOOD` (R401): the device boots, or stays off when its ROM fails its check, or waits in recovery for firmware
that verifies. -/
def execPowerGood (romOk : Bool) (firmware : List Byte) (s : State) : Out :=
  let s1 := { State.reset with
    hostMem := s.hostMem, nextKey := s.nextKey, nextRequest := s.nextRequest, outbox := s.outbox, stamp := s.stamp
    tick := s.tick, since := s.tick, agenda := s.agenda, power := s.power, temp := s.temp }
  .next (if !romOk then { s1 with mode := .off }
    else if Config.firmwareVerifies firmware then { s1 with fwDigest := sha3 firmware }
    else { s1 with mode := .recovery })

/-! ### Power and temperature (R395, R405) -/

/-- TEMP, in units of 0.125 °C, at 105 °C and 115 °C. -/
def throttleTemp : Nat := 840
def tripTemp : Nat := 920

/-- `THERMAL_THROTTLE` (R405): from 105 °C the pipes run at most half their cycles. -/
def execThermalThrottle (s : State) : Out :=
  .next (if throttleTemp ≤ s.temp.toNat then { s with throttled := true } else s)

/-- `DIE_TEMPERATURE_FALL` (R405): below 105 °C they run freely again. -/
def execDieTemperatureFall (s : State) : Out :=
  .next (if s.temp.toNat < throttleTemp then { s with throttled := false } else s)

/-- `THERMAL_TRIP` (R405): at 115 °C the output is asserted, and the tray removes power. -/
def execThermalTrip (s : State) : Out :=
  .next (if tripTemp ≤ s.temp.toNat then
    { s with tripped := true, mode := .off, outbox := s.outbox ++ [.thermalTrip] } else s)

/-- `POWER_CAP_WINDOW` (R405): the pipes stall while the mean power of a window is above the cap. -/
def execPowerCapWindow (milliwatts : Nat) (s : State) : Out :=
  .next { s with capped := decide (1000 * s.pwrCap.toNat < milliwatts) }

end Sys2Proof.Machine
end

