-- ==== Sys2Proof/Machine/Bar0.lean ====
section
/-! DEFINITION. The functions' registers, BAR4, firmware's access to tiles, memory-port requests, attestation, and which
inputs the device takes (03 R68-R71, 04 R85, R87, R429, 11 R289, R290, 16 R381, R394-R396, R402, R403). -/

namespace Sys2Proof.Machine

open Sys2Proof

/-! ### The admin pair (R85, R87, R395, R429) -/

/-- The window of an admin queue onto its function's allocation. -/
def allocWindow (fn : Function) : Window :=
  { enabled := true, host := false, base := fn.allocBase.toNat / 4096,
    limit := (fn.allocBase.toNat + fn.allocSize.toNat) / 4096 }

/-- A ring of an admin pair. -/
def adminRing (f : Nat) (fn : Function) (base : Word) : Ring :=
  { func := f, pasid := bitsOf fn.aqCtl.toNat 4 20, host := true, base := base.toNat
    size := 2 ^ (bitsOf fn.aqCtl.toNat 0 4 + 6), dcq := f, msix := 0, hwb := 0, count := 0, shadow := 0, stopped := false }

/-- The admin submission queue of a function. -/
def adminQueue (f : Nat) (fn : Function) : SubQueue :=
  { ring := adminRing f fn fn.aqBase, opmask := adminOpmask f, ctxmask := BitVec.allOnes 32, prioMax := 3
    windows := [{ enabled := true, host := true, base := 0, limit := 2 ^ 30 }, allocWindow fn,
                { enabled := false, host := false, base := 0, limit := 0 },
                { enabled := false, host := false, base := 0, limit := 0 }] }

/-- Creates the pair of a function. -/
def createAdmin (s : State) (f : Nat) : State :=
  let fn := s.function f
  let s1 := removeQueue s f
  { s1 with subQs := tInsert s1.subQs f (adminQueue f fn), compQs := tInsert s1.compQs f (adminRing f fn fn.acqBase) }

/-- `AQCTL` (R85, R395): a write with LOGN above 10, or with an undefined bit, is ignored; bit 31 enables the pair. -/
def execAqctl (f : Nat) (value : Word) (s : State) : Out :=
  if !onlyBits value.toNat [(0, 24), (31, 1)] || 10 < bitsOf value.toNat 0 4 then .next s
  else
    let s1 := s.onFunction f fun fn => { fn with aqCtl := value }
    if value.getLsbD 31 then (if (s.function f).aqCtl.getLsbD 31 then .next s1 else .next (createAdmin s1 f))
    else .next (removeQueue s1 f)

/-- `DBDROP` (R395): a write of 0 clears the counter, and any other is ignored. -/
def execDbdrop (f : Nat) (value : Word) (s : State) : Out :=
  if value = 0 then .next (s.onFunction f fun fn => { fn with dbDrop := 0 }) else .next s

/-- `EVICT` (R388, R395): the physical function asks for the eviction of a placed context. -/
def execEvict (f : Nat) (value : Word) (s : State) : Out :=
  if f ≠ 0 || !value.getLsbD 31 then .next s
  else .next (s.onCtx (bitsOf value.toNat 0 5) fun c => if c.phase = .placed then { c with evictAsked := true } else c)

/-- `PWRCAP` (R395): clamped to 2,000-7,500. -/
def execPwrcap (f : Nat) (value : Word) (s : State) : Out :=
  if f ≠ 0 then .next s else .next { s with pwrCap := BitVec.ofNat 64 (max 2000 (min 7500 value.toNat)) }

/-- A jet port under a write of its control register (R396). -/
def JetPort.control (j : JetPort) (value : Word) : JetPort :=
  let j1 := if j.enabled then j else { j with tagRun := value.extractLsb' 20 6, srcId := value.extractLsb' 32 12 }
  match j.enabled, value.getLsbD 0 with
  | false, true => { j1 with enabled := true, link := .training }
  | true, false => { j1 with enabled := false, link := .down, txq := [], unacked := [], rx := [] }
  | _, _ => j1

/-- `JPCTL` (R396, R397). -/
def execJpctl (f port : Nat) (value : Word) (s : State) : Out :=
  if f ≠ 0 then .next s else .next (s.onJet port (·.control value))

/-- What `FNSTAT` reads as (R395). -/
def fnstatWord (s : State) (f : Nat) : Word :=
  BitVec.ofNat 64 (bitAt (s.mode = .ready) 0 + bitAt (s.mode = .recovery) 1 + bitAt (s.mode = .fatal) 2
    + bitAt (s.function f).linkLost 3)

/-- `FNSTAT` (R395): a read, which ends LINKLOST. -/
def execFnstat (f : Nat) (s : State) : Out :=
  let s1 := s.onFunction f fun fn => { fn with linkLost := false }
  .next { s1 with outbox := s1.outbox ++ [.registerRead f (fnstatWord s f)] }

/-! ### Other registers (R395) -/

/-- A 64 KiB aligned value: the low bits are ignored. -/
def aligned64K (v : Word) : Word := v &&& ~~~ (0xFFFF : Word)

/-- A function has a context. -/
def State.hasContext (s : State) (f : Nat) : Bool := s.ctxs.any fun (_, c) => c.func = f

/-- Sets a function's allocation; its admin queue's window follows (R429). -/
def setAlloc (s : State) (n : Nat) (g : Function → Function) : State :=
  if s.hasContext n then s
  else
    let s1 := s.onFunction n g
    match tFind s1.subQs n with
    | none => s1
    | some q => { s1 with subQs := tInsert s1.subQs n { q with windows := q.windows.set 1 (allocWindow (s1.function n)) } }

/-- Sets a function's pool, unless that would take it outside the allocation. -/
def setPool (s : State) (n : Nat) (g : Function → Function) : State :=
  let fn := g (s.function n)
  let inside := fn.poolSize = 0 || (fn.allocBase.toNat ≤ fn.poolBase.toNat &&
    fn.poolBase.toNat + fn.poolSize.toNat ≤ fn.allocBase.toNat + fn.allocSize.toNat)
  if s.hasContext n || !inside then s else s.onFunction n g

/-- `REGISTER_WRITE` (R395): the registers that only store. Any other offset ignores the write. -/
def execRegisterWrite (f off : Nat) (value : Word) (s : State) : Out :=
  if off = 0 then .next (s.onFunction f fun fn => { fn with aqBase := value })
  else if off = 0x10 then .next (s.onFunction f fun fn => { fn with acqBase := value })
  else if off = 0x18 then .next (s.onFunction f fun fn => { fn with htBase := value })
  else if f ≠ 0 || off % 8 ≠ 0 then .next s
  else if 0x1000 ≤ off && off < 0x1200 then
    let n := (off - 0x1000) / 16
    .next (setAlloc s n fun fn =>
      if off % 16 = 0 then { fn with allocBase := aligned64K value } else { fn with allocSize := aligned64K value })
  else if 0x1800 ≤ off && off < 0x1A00 then
    let n := (off - 0x1800) / 16
    .next (setPool s n fun fn =>
      if off % 16 = 0 then { fn with poolBase := aligned64K value } else { fn with poolSize := aligned64K value })
  else .next s

/-- What `JPCTL` reads as (R396). -/
def JetPort.controlWord (j : JetPort) : Word :=
  let link := match j.link with
    | .down => 0
    | .training => 1
    | .up => 2
    | .failed => 3
  BitVec.ofNat 64 ((if j.enabled then 1 else 0) + j.fails % 256 * 2 ^ 8 + link * 2 ^ 16 + j.tagRun.toNat * 2 ^ 20
    + j.srcId.toNat * 2 ^ 32)

/-- A doubleword of a pair of registers. -/
def pairWord (off : Nat) (base size : Word) : Word := if off % 16 = 0 then base else size

/-- WHAT A REGISTER READS AS (R395): in a virtual function, those of the physical function read as zero. At an offset that
the table does not list, and of the write-only `EVICT`, the value is free (log 27). -/
def readRegister (s : State) (f off : Nat) : Word :=
  let fn := s.function f
  let of (n : Nat) : Function := s.function n
  if f ≠ 0 && 0x1000 ≤ off then 0
  else if off % 8 ≠ 0 then Config.reservedRegister (s.tick + off)
  else if off = 0 then fn.aqBase
  else if off = 0x8 then fn.aqCtl
  else if off = 0x10 then fn.acqBase
  else if off = 0x18 then fn.htBase
  else if off = 0x20 then BitVec.ofNat 64 fn.dbDrop.toNat
  else if off = 0x28 then fnstatWord s f
  else if 0x1000 ≤ off && off < 0x1200 then
    pairWord off (of ((off - 0x1000) / 16)).allocBase (of ((off - 0x1000) / 16)).allocSize
  else if 0x1800 ≤ off && off < 0x1A00 then
    pairWord off (of ((off - 0x1800) / 16)).poolBase (of ((off - 0x1800) / 16)).poolSize
  else if off = 0x1208 then s.pwrCap
  else if off = 0x1210 then s.power
  else if off = 0x1218 then s.temp
  else if off = 0x1220 then s.errHead
  else if 0x1400 ≤ off && off < 0x1400 + 8 * 64 then (s.jet ((off - 0x1400) / 8)).controlWord
  else if 0x2000 ≤ off && off < 0x3000 then (tGet 0 s.errLog ((off - 0x2000) / 32)).extractLsb' (off % 32 * 8) 64
  else Config.reservedRegister (s.tick + off)

/-- A read of a register: that of `FNSTAT` ends LINKLOST. After a fatal error only `FNSTAT` answers, and without power
nothing does (R381, R395, R401). -/
def registerRead (s : State) (f off : Nat) : State :=
  if s.mode = .off || (s.mode = .fatal && off ≠ 0x28) then s
  else
    let s1 := { s with outbox := s.outbox ++ [.registerRead f (readRegister s f off)] }
    if off = 0x28 then s1.onFunction f fun fn => { fn with linkLost := false } else s1

/-! ### BAR4 (R394) -/

/-- Writes bytes of device memory in plaintext, line by line (R311). -/
def plainWrite (s : State) (a : Nat) (bs : List Byte) : State :=
  (linePieces a bs.length).foldl (fun s (p, l) => devWrite s 0 p ((bs.drop (p - a)).take l)) s

/-- Under a TDISP lock, a function's BAR4 takes only TDI-bound requests under IDE (R394). -/
def Function.takesBar4 (fn : Function) : Bool := !fn.tdispLocked || (fn.ideUp && fn.tdiBound)

/-- `BAR4_ACCESS` (R394): plaintext of the function's allocation. -/
def execBar4Access (f off n : Nat) (data : Option (List Byte)) (s : State) : Out :=
  let fn := s.function f
  if !s.linkUp then .next s
  else if fn.allocSize.toNat < off + n || !fn.takesBar4 then
    .next { s with outbox := s.outbox ++ [.unsupportedRequest f] }
  else
    let a := fn.allocBase.toNat + off
    match data with
    | none => .next { s with outbox := s.outbox ++ [.bar4Data f (devBytes s 0 a n)] }
    | some bs => .next (plainWrite s a (bs.take n))

/-! ### Firmware's access to a tile (R68-R71, R119) -/

/-- The tile's context is protected (R71). -/
def protectedTile (s : State) (t : Nat) : Bool :=
  ((s.ctxOf t).map fun c => ((s.imageOf c).map (·.prot)).getD false).getD false

/-- Firmware reads a doubleword. -/
def firmwareRead (s : State) (t off : Nat) : Word :=
  if protectedTile s t then 0
  else if off < scratchSize then BitVec.ofNat 64 (bytesNat ((s.tile t).scratch.readBytes off 8))
  else opmRead s t off true

/-- Firmware writes a doubleword; it alone writes `ORIGIN` (R148). -/
def firmwareWrite (s : State) (t off : Nat) (w : Word) : State :=
  if protectedTile s t then s
  else if off < scratchSize then scratchWrite s t off (natBytes 8 w.toNat) 0 true false
  else if off = 0x21E008 then s.onTile t fun tl => { tl with origin := w.setWidth 11 }
  else (opmWrite s t off w).1

/-- Why an offset is refused to firmware: no window holds it, or a window other than the scratchpad's takes whole words only
(R68, R70). -/
def opmRefusal (off : Nat) : Option Cause :=
  if !inOpmWindow off then some .RANGE
  else if off % 8 ≠ 0 && scratchSize < off + 8 then some .ALIGN
  else none

/-- `FIRMWARE_OPM_ACCESS` (R68-R71, R119): an access to a tile under clearing, or to state in use, waits. -/
def execFirmwareOpmAccess (t off : Nat) (data : Option Word) (s : State) : Out :=
  let tl := s.tile t
  let k : HeldAccess := { tile := t, offset := off, value := data }
  let s1 := { s with heldOpm := s.heldOpm.erase k }
  match opmRefusal off with
  | some c => .next { s1 with outbox := s1.outbox ++ [.opmRefused t c] }
  | none =>
    if tl.clearing || (if data.isSome then tl.opmWriteBusy off else tl.opmBusy off) then .next (if s.heldOpm.contains k then s else { s with heldOpm := s.heldOpm ++ [k] })
    else match data with
      | none => .next { s1 with outbox := s1.outbox ++ [.opmData t (firmwareRead s1 t off)] }
      | some w => .next (firmwareWrite s1 t off w)

/-! ### Memory-port requests (R114, R289, R290) -/

/-- The first byte of an access that lies in a page that is not present. -/
def absentPiece (s : State) (c : Context) (va k : Nat) (rd wr : Bool) : Option Nat :=
  (linePieces va k).findSome? fun (a, l) => match translate s c a l rd wr with
    | .error (.page q) => some q
    | _ => none

/-- A write of a request, line by line (R289, R311). -/
def portWrite (s : State) (n : Nat) (c : Context) (va : Nat) (bs : List Byte) : State :=
  (linePieces va bs.length).foldl (fun s (a, l) => match translate s c a l false true with
    | .ok r => routeWrite (portAccess s n c a l true none 0) n .outside 0 r ((bs.drop (a - va)).take l)
    | .error _ => s) s

/-- A read of a request, line by line. -/
def portRead (s : State) (n : Nat) (c : Context) (va k : Nat) : Except MStop (List Byte) × State :=
  (linePieces va k).foldl (fun (got, s) (a, l) => match got, translate s c a l true false with
    | .ok bs, .ok r => ((routeRead s r l).map (bs ++ ·), portAccess s n c a l false none 0)
    | .ok _, .error e => (.error e, s)
    | .error e, _ => (.error e, s)) (.ok [], s)

/-- A request that its context's entries translate. -/
def servePort (s : State) (port n : Nat) (c : Context) (va k : Nat) (data : Option (List Byte)) : State :=
  match data with
  | some bs =>
    let s1 := portWrite s n c va bs
    { s1 with outbox := s1.outbox ++ [.portDone port n] }
  | none => match portRead s n c va k with
    | (.error _, s1) => { s1 with outbox := s1.outbox ++ [.portRefused port n .MEMERR] }
    | (.ok bs, s1) => { s1 with outbox := s1.outbox ++ [.portData port n bs] }

/-- `MEMORY_PORT_REQUEST` (R114, R286, R289): a packet whose tag the port does not serve, or whose address goes to another
port of the context, is discarded; the others are forwarded, refused, or stopped on a page. -/
def execMemoryPortRequest (port n gen va bytes : Nat) (data : Option (List Byte)) (s : State) : Out :=
  match tFind s.ctxs n with
  | none => .next s
  | some c =>
    let k := (data.map (·.length)).getD bytes
    if c.gen ≠ BitVec.ofNat 16 gen || c.portOf va ≠ some port || !c.onModule || k = 0 then .next s
    else match translate s c va k data.isNone data.isSome, absentPiece s c va k data.isNone data.isSome with
      | .error (.refuse e), _ => .next { s with outbox := s.outbox ++ [.portRefused port n e] }
      | .error .busy, _ => .next s
      | _, some a =>
        .next { s with pageFaults := s.pageFaults ++ [{ ctx := n, gen := c.gen, va := a, who := .request port }] }
      | _, none => .next (servePort s port n c va k data)

/-! ### Identity and evidence (R402, R403) -/

/-- The device ID (R402). -/
def deviceId : BitVec 256 := sha3 Config.identityKey.toList

/-- Bytes 0 to 199 of the evidence (R403). -/
def evidenceBody (s : State) (f n : Nat) (c : Context) (im : Image) (nonce : BitVec 256) : List Byte :=
  natBytes 4 0x56455445 ++ natBytes 2 1 ++ natBytes 2 0xB0 ++ natBytes 32 deviceId.toNat ++ natBytes 32 s.fwDigest.toNat
    ++ natBytes 4 (Config.firmwareVersion s.fwDigest).toNat ++ natBytes 1 f ++ natBytes 1 n ++ natBytes 2 c.gen.toNat
    ++ natBytes 1 (if im.prot then 1 else 0) ++ natBytes 7 0 ++ natBytes 8 im.imageId.toNat
    ++ natBytes 32 im.measurement.toNat ++ natBytes 32 im.authKey.toNat ++ natBytes 32 nonce.toNat ++ natBytes 4 1
    ++ natBytes 4 0

/-- The evidence, with its signature under the identity key. -/
def evidence (s : State) (f n : Nat) (c : Context) (im : Image) (nonce : BitVec 256) : List Byte :=
  let b := evidenceBody s f n c im nonce
  b ++ (Config.identitySign b (asciiBytes "aperlia-evidence")).toList

/-- `SPDM_MEASUREMENTS` (R403): the evidence of a context of the function. -/
def execSpdmMeasurements (f n : Nat) (nonce : BitVec 256) (s : State) : Out :=
  match tFind s.ctxs n with
  | none => .next s
  | some c => match s.imageOf c with
    | none => .next s
    | some im =>
      if c.func = f && s.linkUp then .next { s with outbox := s.outbox ++ [.spdm (evidence s f n c im nonce)] } else .next s

/-- A TDISP interface report of a locked interface returns the evidence of a context of the function (R403). -/
def interfaceReport (s : State) (f n : Nat) (nonce : BitVec 256) : State :=
  match tFind s.ctxs n with
  | none => s
  | some c => match s.imageOf c with
    | none => s
    | some im =>
      if c.func = f && s.linkUp && (s.function f).tdispLocked then
        { s with outbox := s.outbox ++ [.interfaceReport f (evidence s f n c im nonce)] } else s

/-- `SPDM_GET_CERTIFICATE` (R402): certificate slot 0. -/
def execSpdmGetCertificate (slot : Nat) (s : State) : Out :=
  if slot = 0 && s.linkUp then .next { s with outbox := s.outbox ++ [.spdm Config.certificate] } else .next s

/-! ### Inputs -/

/-- Inputs that only BAR0 takes. -/
def isBar0 : Instr → Bool
  | .aqctl _ _ | .dbdrop _ _ | .evict _ _ | .pwrcap _ _ | .jpctl _ _ _ | .fnstat _ | .registerWrite _ _ _ => true
  | _ => false

/-- What the device takes in each of its modes: after a fatal error only a hot reset, with `FNSTAT` to be read; in
recovery only BAR0 and resets; without power only power (R381, R401). -/
def accepts (m : DeviceMode) (i : Instr) : Bool :=
  match m with
  | .ready => true
  | .fatal => match i with
    | .hotReset | .powerGood _ _ | .fnstat _ => true
    | _ => false
  | .recovery => isBar0 i || match i with
    | .hotReset | .powerGood _ _ => true
    | _ => false
  | .off => match i with
    | .powerGood _ _ => true
    | _ => false

/-! ### Die bridges (R115, R398, R399) -/

/-- Flits of a run on a die bridge: TAGRUN 16. -/
def bridgeTagRun : Nat := 16

/-- Changes a die bridge. -/
def State.onBridge (s : State) (k : Nat) (f : DieBridge → DieBridge) : State :=
  { s with bridges := tSet .reset s.bridges k (f (tGet .reset s.bridges k)) }

/-- The flits that wait close as one run, which is kept until it is acknowledged, and leave. -/
def DieBridge.close (b : DieBridge) : DieBridge :=
  if b.txq.isEmpty then b
  else { b with txq := b.txq.drop (bridgeTagRun + 1), unacked := b.unacked ++ [(b.seq, b.txq.take (bridgeTagRun + 1))],
                wire := b.wire ++ [b.seq], seq := b.seq + 1 }

/-- A flit comes to the sending end; the run closes when it has TAGRUN + 1 (R398). -/
def DieBridge.send (b : DieBridge) (f : BitVec 256) : DieBridge :=
  let b1 := { b with txq := b.txq ++ [f] }
  if bridgeTagRun < b1.txq.length then b1.close else b1

/-- A run whose tag verifies: it is acknowledged, and released if it is the next (R398). -/
def DieBridge.acceptRun (b : DieBridge) (seq : Nat) : DieBridge :=
  if b.expect < seq then { b with strikes := 0 }
  else
    let run := if seq = b.expect then ((tFind b.unacked seq).getD []) else []
    { b with strikes := 0, expect := max b.expect (seq + 1), released := b.released ++ run
             unacked := b.unacked.filter fun r => seq < r.1 }

/-- A run whose tag fails is discarded whole, and its replay asked for: the sender sends it and every later one again (R399). -/
def DieBridge.rejectRun (b : DieBridge) (seq : Nat) : DieBridge :=
  { b with strikes := b.strikes + 1, wire := b.wire ++ (b.unacked.filter fun r => seq ≤ r.1).map (·.1) }

/-- The tag flit of the oldest run on the wires of a die bridge (R398, R399): each failure is recorded, and the third in a row is
fatal (R381). -/
def bridgeRun (s : State) (k : Nat) (verified : Bool) : State :=
  match (tGet .reset s.bridges k).wire with
  | [] => s
  | seq :: rest =>
    if verified then s.onBridge k fun b => { b with wire := rest }.acceptRun seq
    else
      let s1 := s.onBridge k fun b => { b with wire := rest }.rejectRun seq
      if (tGet .reset s1.bridges k).strikes < 3 then logError s1 errCorrected (unitCode .dieBridge) k 0 0
      else goFatal s1 (unitCode .dieBridge) k

/-- An input other than a row of the table. -/
def takeInput (s : State) (x : Stimulus) : State :=
  match x with
  | .act _ => s
  | .hostWrite sp a bs => s.hostWrite sp a bs
  | .jetFlits p fs => if s.mode = .ready then holdFlits s p fs else s
  | .runAck p k => if s.mode = .ready then ackRuns s p k else s
  | .upset u => if s.mode = .ready then applyUpset s u else s
  | .sensors p t => { s with power := p, temp := t }
  | .bridgeFlits k fs => if s.mode = .ready then s.onBridge k fun b => fs.foldl DieBridge.send b else s
  | .bridgeIdle k => if s.mode = .ready then s.onBridge k (·.close) else s
  | .bridgeRun k ok => if s.mode = .ready then bridgeRun s k ok else s
  | .registerRead f off => registerRead s f off
  | .tdiRequests f b => s.onFunction f fun fn => { fn with tdiBound := b }
  | .interfaceReport f n nonce => if s.mode = .ready then interfaceReport s f n nonce else s

end Sys2Proof.Machine
end

