-- ==== Sys2Proof/Machine/Dispatch.lean ====
section
/-! DEFINITION. One arm per instruction and per event of the opcode table, each a call of its meaning. -/

namespace Sys2Proof.Machine

open Sys2Proof

/-- What an instruction or an event does. -/
def exec (i : Instr) (s : State) : Host.Outcome State Fault Refusal :=
  match i with
  | .add d a b => Sys2Proof.Machine.execAdd d a b s
  | .sub d a b => Sys2Proof.Machine.execSub d a b s
  | .mul d a b => Sys2Proof.Machine.execMul d a b s
  | .mulh d a b => Sys2Proof.Machine.execMulh d a b s
  | .mulhsu d a b => Sys2Proof.Machine.execMulhsu d a b s
  | .mulhx d a b => Sys2Proof.Machine.execMulhx d a b s
  | .div d a b => Sys2Proof.Machine.execDiv d a b s
  | .divx d a b => Sys2Proof.Machine.execDivx d a b s
  | .rem d a b => Sys2Proof.Machine.execRem d a b s
  | .remx d a b => Sys2Proof.Machine.execRemx d a b s
  | .and d a b => Sys2Proof.Machine.execAnd d a b s
  | .or d a b => Sys2Proof.Machine.execOr d a b s
  | .xor d a b => Sys2Proof.Machine.execXor d a b s
  | .andn d a b => Sys2Proof.Machine.execAndn d a b s
  | .orn d a b => Sys2Proof.Machine.execOrn d a b s
  | .sll d a b => Sys2Proof.Machine.execSll d a b s
  | .srl d a b => Sys2Proof.Machine.execSrl d a b s
  | .sra d a b => Sys2Proof.Machine.execSra d a b s
  | .rol d a b => Sys2Proof.Machine.execRol d a b s
  | .ror d a b => Sys2Proof.Machine.execRor d a b s
  | .min d a b => Sys2Proof.Machine.execMin d a b s
  | .max d a b => Sys2Proof.Machine.execMax d a b s
  | .minx d a b => Sys2Proof.Machine.execMinx d a b s
  | .maxx d a b => Sys2Proof.Machine.execMaxx d a b s
  | .slt d a b => Sys2Proof.Machine.execSlt d a b s
  | .sltx d a b => Sys2Proof.Machine.execSltx d a b s
  | .seq d a b => Sys2Proof.Machine.execSeq d a b s
  | .sne d a b => Sys2Proof.Machine.execSne d a b s
  | .sel d a b => Sys2Proof.Machine.execSel d a b s
  | .clz d a => Sys2Proof.Machine.execClz d a s
  | .ctz d a => Sys2Proof.Machine.execCtz d a s
  | .popc d a => Sys2Proof.Machine.execPopc d a s
  | .sextB d a => Sys2Proof.Machine.execSextB d a s
  | .sextH d a => Sys2Proof.Machine.execSextH d a s
  | .sextW d a => Sys2Proof.Machine.execSextW d a s
  | .zextB d a => Sys2Proof.Machine.execZextB d a s
  | .zextH d a => Sys2Proof.Machine.execZextH d a s
  | .zextW d a => Sys2Proof.Machine.execZextW d a s
  | .lea d a b sh => Sys2Proof.Machine.execLea d a b sh s
  | .madd d a b => Sys2Proof.Machine.execMadd d a b s
  | .bfe d a b => Sys2Proof.Machine.execBfe d a b s
  | .bfi d a b => Sys2Proof.Machine.execBfi d a b s
  | .addi d a imm => Sys2Proof.Machine.execAddi d a imm s
  | .andi d a imm => Sys2Proof.Machine.execAndi d a imm s
  | .ori d a imm => Sys2Proof.Machine.execOri d a imm s
  | .xori d a imm => Sys2Proof.Machine.execXori d a imm s
  | .slli d a sh => Sys2Proof.Machine.execSlli d a sh s
  | .srli d a sh => Sys2Proof.Machine.execSrli d a sh s
  | .srai d a sh => Sys2Proof.Machine.execSrai d a sh s
  | .slti d a imm => Sys2Proof.Machine.execSlti d a imm s
  | .sltxi d a imm => Sys2Proof.Machine.execSltxi d a imm s
  | .lui d imm => Sys2Proof.Machine.execLui d imm s
  | .auipc d imm => Sys2Proof.Machine.execAuipc d imm s
  | .ld d a oc ar scope size disp => Sys2Proof.Machine.execLd d a oc ar scope size disp s
  | .ldz d a oc ar scope size disp => Sys2Proof.Machine.execLdz d a oc ar scope size disp s
  | .st d a oc ar scope size disp => Sys2Proof.Machine.execSt d a oc ar scope size disp s
  | .amoadd d a oc ar scope dbl => Sys2Proof.Machine.execAmoadd d a oc ar scope dbl s
  | .amomin d a oc ar scope dbl => Sys2Proof.Machine.execAmomin d a oc ar scope dbl s
  | .amomax d a oc ar scope dbl => Sys2Proof.Machine.execAmomax d a oc ar scope dbl s
  | .aminx d a oc ar scope dbl => Sys2Proof.Machine.execAminx d a oc ar scope dbl s
  | .amaxx d a oc ar scope dbl => Sys2Proof.Machine.execAmaxx d a oc ar scope dbl s
  | .amoand d a oc ar scope dbl => Sys2Proof.Machine.execAmoand d a oc ar scope dbl s
  | .amoor d a oc ar scope dbl => Sys2Proof.Machine.execAmoor d a oc ar scope dbl s
  | .amoxor d a oc ar scope dbl => Sys2Proof.Machine.execAmoxor d a oc ar scope dbl s
  | .amoswp d a oc ar scope dbl => Sys2Proof.Machine.execAmoswp d a oc ar scope dbl s
  | .amocas d a oc ar scope dbl => Sys2Proof.Machine.execAmocas d a oc ar scope dbl s
  | .amotas d a oc ar scope dbl => Sys2Proof.Machine.execAmotas d a oc ar scope dbl s
  | .fence scope mask => Sys2Proof.Machine.execFence scope mask s
  | .bar scope drain gsel => Sys2Proof.Machine.execBar scope drain gsel s
  | .bart scope gsel => Sys2Proof.Machine.execBart scope gsel s
  | .tx d a b sen ren diro diri => Sys2Proof.Machine.execTx d a b sen ren diro diri s
  | .mux west south east north => Sys2Proof.Machine.execMux west south east north s
  | .waitw d a oc ar scope dbl => Sys2Proof.Machine.execWaitw d a oc ar scope dbl s
  | .waitwArm d a dbl => Sys2Proof.Machine.execWaitwArm d a dbl s
  | .acqs d a b scope => Sys2Proof.Machine.execAcqs d a b scope s
  | .rels d a b scope => Sys2Proof.Machine.execRels d a b scope s
  | .renq a b scope eng => Sys2Proof.Machine.execRenq a b scope eng s
  | .subSubscribe d a b => Sys2Proof.Machine.execSubSubscribe d a b s
  | .unsub a => Sys2Proof.Machine.execUnsub a s
  | .pflush => Sys2Proof.Machine.execPflush s
  | .resync a => Sys2Proof.Machine.execResync a s
  | .subq d a => Sys2Proof.Machine.execSubq d a s
  | .b off => Sys2Proof.Machine.execB off s
  | .beq a b off => Sys2Proof.Machine.execBeq a b off s
  | .bne a b off => Sys2Proof.Machine.execBne a b off s
  | .blt a b off => Sys2Proof.Machine.execBlt a b off s
  | .bge a b off => Sys2Proof.Machine.execBge a b off s
  | .bltx a b off => Sys2Proof.Machine.execBltx a b off s
  | .bgex a b off => Sys2Proof.Machine.execBgex a b off s
  | .call r off => Sys2Proof.Machine.execCall r off s
  | .ret r => Sys2Proof.Machine.execRet r s
  | .loop r off => Sys2Proof.Machine.execLoop r off s
  | .halt => Sys2Proof.Machine.execHalt s
  | .tlset g a fld => Sys2Proof.Machine.execTlset g a fld s
  | .tlget d g fld => Sys2Proof.Machine.execTlget d g fld s
  | .tlclr g => Sys2Proof.Machine.execTlclr g s
  | .tlmov gd gs => Sys2Proof.Machine.execTlmov gd gs s
  | .tlchkL d g => Sys2Proof.Machine.execTlchkL d g s
  | .tlchkX d g => Sys2Proof.Machine.execTlchkX d g s
  | .tlchkS d g => Sys2Proof.Machine.execTlchkS d g s
  | .tlld g a oc ar scope => Sys2Proof.Machine.execTlld g a oc ar scope s
  | .tlst g a oc ar scope => Sys2Proof.Machine.execTlst g a oc ar scope s
  | .spt d a => Sys2Proof.Machine.execSpt d a s
  | .spc d a sp => Sys2Proof.Machine.execSpc d a sp s
  | .mkpLocal d a b => Sys2Proof.Machine.execMkpLocal d a b s
  | .mkpShared d a b => Sys2Proof.Machine.execMkpShared d a b s
  | .mkpOpm d a b => Sys2Proof.Machine.execMkpOpm d a b s
  | .csrr d csr => Sys2Proof.Machine.execCsrr d csr s
  | .csrw a csr => Sys2Proof.Machine.execCsrw a csr s
  | .csrs a csr => Sys2Proof.Machine.execCsrs a csr s
  | .csrc a csr => Sys2Proof.Machine.execCsrc a csr s
  | .eret => Sys2Proof.Machine.execEret s
  | .brk => Sys2Proof.Machine.execBrk s
  | .lpoll d => Sys2Proof.Machine.execLpoll d s
  | .rep sa s2 s1 sd cnt => Sys2Proof.Machine.execRep sa s2 s1 sd cnt s
  | .trap imm => Sys2Proof.Machine.execTrap imm s
  | .ldn w gv gd gs oc acq rel scope nt gn => Sys2Proof.Machine.execLdn w gv gd gs oc acq rel scope nt gn s
  | .ldr w gv gd gs oc acq rel scope nt gn => Sys2Proof.Machine.execLdr w gv gd gs oc acq rel scope nt gn s
  | .ldh w gv gd gs oc acq rel scope nt gn => Sys2Proof.Machine.execLdh w gv gd gs oc acq rel scope nt gn s
  | .rcv w gv gd port e oc acq rel scope nt gn => Sys2Proof.Machine.execRcv w gv gd port e oc acq rel scope nt gn s
  | .gath w gv gval gi gr slot oc sc nov => Sys2Proof.Machine.execGath w gv gval gi gr slot oc sc nov s
  | .pfx w gv gs => Sys2Proof.Machine.execPfx w gv gs s
  | .lNest w gv nb off => Sys2Proof.Machine.execLNest w gv nb off s
  | .stn w gv gd gs oc acq rel scope nt gn => Sys2Proof.Machine.execStn w gv gd gs oc acq rel scope nt gn s
  | .strm w gv gd gs oc acq rel scope nt gn => Sys2Proof.Machine.execStrm w gv gd gs oc acq rel scope nt gn s
  | .sth w gv gd gs oc acq rel scope nt gn => Sys2Proof.Machine.execSth w gv gd gs oc acq rel scope nt gn s
  | .snd w gv gs port e oc acq rel scope nt gn => Sys2Proof.Machine.execSnd w gv gs port e oc acq rel scope nt gn s
  | .scat w gv gval gi slot oc sc => Sys2Proof.Machine.execScat w gv gval gi slot oc sc s
  | .eos w gv port => Sys2Proof.Machine.execEos w gv port s
  | .sNest w gv nb off => Sys2Proof.Machine.execSNest w gv nb off s
  | .mma wl ws gl gs ga gi acc af wf ix iw zs clr => Sys2Proof.Machine.execMma wl ws gl gs ga gi acc af wf ix iw zs clr s
  | .mmas wl ws gl gs ga acc af wf zs clr rb => Sys2Proof.Machine.execMmas wl ws gl gs ga acc af wf zs clr rb s
  | .mmat wl ws gl gs ga acc af wf zs clr rb => Sys2Proof.Machine.execMmat wl ws gl gs ga acc af wf zs clr rb s
  | .wld wl ws gl gs gw sf => Sys2Proof.Machine.execWld wl ws gl gs gw sf s
  | .wldPort wl ws gl gs port sf km1 => Sys2Proof.Machine.execWldPort wl ws gl gs port sf km1 s
  | .wswap wl ws gl gs => Sys2Proof.Machine.execWswap wl ws gl gs s
  | .scacc wl ws gl gs gsa gsb acc sfmt clrp => Sys2Proof.Machine.execScacc wl ws gl gs gsa gsb acc sfmt clrp s
  | .accclr wl ws gl gs mask => Sys2Proof.Machine.execAccclr wl ws gl gs mask s
  | .accst wl ws gl gs gd acc efmt rm sat sc oc => Sys2Proof.Machine.execAccst wl ws gl gs gd acc efmt rm sat sc oc s
  | .accld wl ws gl gs gd acc efmt rm sat sc oc => Sys2Proof.Machine.execAccld wl ws gl gs gd acc efmt rm sat sc oc s
  | .erow wl ws gl gs gin gout gsa gsb sam sbm nout => Sys2Proof.Machine.execErow wl ws gl gs gin gout gsa gsb sam sbm nout s
  | .ecfg wl ws gl gs off => Sys2Proof.Machine.execEcfg wl ws gl gs off s
  | .ecfgSt wl ws gl gs off => Sys2Proof.Machine.execEcfgSt wl ws gl gs off s
  | .emode wl ws gl gs off => Sys2Proof.Machine.execEmode wl ws gl gs off s
  | .emodePort wl ws gl gs port => Sys2Proof.Machine.execEmodePort wl ws gl gs port s
  | .gld wl ws gl gs nwm1 off => Sys2Proof.Machine.execGld wl ws gl gs nwm1 off s
  | .gset wl ws gl gs sel imm => Sys2Proof.Machine.execGset wl ws gl gs sel imm s
  | .gsave wl ws gl gs off => Sys2Proof.Machine.execGsave wl ws gl gs off s
  | .grest wl ws gl gs off => Sys2Proof.Machine.execGrest wl ws gl gs off s
  | .zscan wl ws gl gs zf cntm1 blk => Sys2Proof.Machine.execZscan wl ws gl gs zf cntm1 blk s
  | .zclr wl ws gl gs cntm1 blk => Sys2Proof.Machine.execZclr wl ws gl gs cntm1 blk s
  | .xNest wl ws gl gs nb off => Sys2Proof.Machine.execXNest wl ws gl gs nb off s
  | .wordIssue tile eng => Sys2Proof.Machine.execWordIssue tile eng s
  | .flowOutcomeTake tile eng => Sys2Proof.Machine.execFlowOutcomeTake tile eng s
  | .commandStart tile eng => Sys2Proof.Machine.execCommandStart tile eng s
  | .commandComplete tile eng entry => Sys2Proof.Machine.execCommandComplete tile eng entry s
  | .heldTokenPush tile eng entry => Sys2Proof.Machine.execHeldTokenPush tile eng entry s
  | .wldWritePhaseEnd tile => Sys2Proof.Machine.execWldWritePhaseEnd tile s
  | .tileDrainEnd tile => Sys2Proof.Machine.execTileDrainEnd tile s
  | .trapEscalation => Sys2Proof.Machine.execTrapEscalation s
  | .faultService => Sys2Proof.Machine.execFaultService s
  | .hostPageResponse req granted => Sys2Proof.Machine.execHostPageResponse req granted s
  | .rmwTokenApply k => Sys2Proof.Machine.execRmwTokenApply k s
  | .renqAccept tile eng => Sys2Proof.Machine.execRenqAccept tile eng s
  | .barrierComplete tile gsel => Sys2Proof.Machine.execBarrierComplete tile gsel s
  | .phaseWordArrival tile dir => Sys2Proof.Machine.execPhaseWordArrival tile dir s
  | .waitwWake tile => Sys2Proof.Machine.execWaitwWake tile s
  | .slotWaitServed tile slot => Sys2Proof.Machine.execSlotWaitServed tile slot s
  | .batchWindowExpiry tile pub => Sys2Proof.Machine.execBatchWindowExpiry tile pub s
  | .updateApply k => Sys2Proof.Machine.execUpdateApply k s
  | .spillRingAllocation tile => Sys2Proof.Machine.execSpillRingAllocation tile s
  | .doorbellWrite func offset bytes count => Sys2Proof.Machine.execDoorbellWrite func offset bytes count s
  | .packetFetch q => Sys2Proof.Machine.execPacketFetch q s
  | .queueMap => Sys2Proof.Machine.execQueueMap s
  | .queueQuiesce => Sys2Proof.Machine.execQueueQuiesce s
  | .nop src pkt => Sys2Proof.Machine.execNop src pkt s
  | .bind src pkt => Sys2Proof.Machine.execBind src pkt s
  | .token src pkt => Sys2Proof.Machine.execToken src pkt s
  | .ctxcreate src pkt => Sys2Proof.Machine.execCtxcreate src pkt s
  | .ctxdestroy src pkt => Sys2Proof.Machine.execCtxdestroy src pkt s
  | .qcreate src pkt => Sys2Proof.Machine.execQcreate src pkt s
  | .qdestroy src pkt => Sys2Proof.Machine.execQdestroy src pkt s
  | .shareset src pkt => Sys2Proof.Machine.execShareset src pkt s
  | .allowset src pkt => Sys2Proof.Machine.execAllowset src pkt s
  | .laneset src pkt => Sys2Proof.Machine.execLaneset src pkt s
  | .launchLaneMessage port source pkt => Sys2Proof.Machine.execLaunchLaneMessage port source pkt s
  | .bindingStart ctx => Sys2Proof.Machine.execBindingStart ctx s
  | .priorityAgeing ctx => Sys2Proof.Machine.execPriorityAgeing ctx s
  | .runCompletion ctx => Sys2Proof.Machine.execRunCompletion ctx s
  | .runFailure ctx => Sys2Proof.Machine.execRunFailure ctx s
  | .completionRecordWrite cq => Sys2Proof.Machine.execCompletionRecordWrite cq s
  | .placement ctx => Sys2Proof.Machine.execPlacement ctx s
  | .eviction ctx => Sys2Proof.Machine.execEviction ctx s
  | .lullMarkerArrival target => Sys2Proof.Machine.execLullMarkerArrival target s
  | .tileSeal tile => Sys2Proof.Machine.execTileSeal tile s
  | .contextSeal ctx => Sys2Proof.Machine.execContextSeal ctx s
  | .clearingToken tile => Sys2Proof.Machine.execClearingToken tile s
  | .clearingComplete ctx => Sys2Proof.Machine.execClearingComplete ctx s
  | .stageSwap ctx list => Sys2Proof.Machine.execStageSwap ctx list s
  | .swapDrainEnd ctx region => Sys2Proof.Machine.execSwapDrainEnd ctx region s
  | .swapReloadEnd ctx region => Sys2Proof.Machine.execSwapReloadEnd ctx region s
  | .swaptimeout ctx region => Sys2Proof.Machine.execSwaptimeout ctx region s
  | .scrubPass die => Sys2Proof.Machine.execScrubPass die s
  | .configError ctx region => Sys2Proof.Machine.execConfigError ctx region s
  | .configReloadDone ctx region => Sys2Proof.Machine.execConfigReloadDone ctx region s
  | .regionPortWord ctx region rport => Sys2Proof.Machine.execRegionPortWord ctx region rport s
  | .inputGeneratorWord ctx ep => Sys2Proof.Machine.execInputGeneratorWord ctx ep s
  | .outputGeneratorWord ctx ep => Sys2Proof.Machine.execOutputGeneratorWord ctx ep s
  | .queueEnqueue ctx ep => Sys2Proof.Machine.execQueueEnqueue ctx ep s
  | .queueDequeue ctx ep => Sys2Proof.Machine.execQueueDequeue ctx ep s
  | .jetOutWord ctx ep => Sys2Proof.Machine.execJetOutWord ctx ep s
  | .jetInWord port => Sys2Proof.Machine.execJetInWord port s
  | .cornerTurnWord tile slot => Sys2Proof.Machine.execCornerTurnWord tile slot s
  | .arbiterBurst tile slot => Sys2Proof.Machine.execArbiterBurst tile slot s
  | .counterNodeWord tile slot => Sys2Proof.Machine.execCounterNodeWord tile slot s
  | .mergeBurst tile slot => Sys2Proof.Machine.execMergeBurst tile slot s
  | .sliceRequest pa write noalloc => Sys2Proof.Machine.execSliceRequest pa write noalloc s
  | .sliceMissResponse slice => Sys2Proof.Machine.execSliceMissResponse slice s
  | .accountingWindow controller => Sys2Proof.Machine.execAccountingWindow controller s
  | .postedStoreAck request => Sys2Proof.Machine.execPostedStoreAck request s
  | .selfTest unit index lasting => Sys2Proof.Machine.execSelfTest unit index lasting s
  | .fatalError => Sys2Proof.Machine.execFatalError s
  | .watchdogExpiry => Sys2Proof.Machine.execWatchdogExpiry s
  | .pcieLinkDown => Sys2Proof.Machine.execPcieLinkDown s
  | .pcieLinkUp => Sys2Proof.Machine.execPcieLinkUp s
  | .hotReset => Sys2Proof.Machine.execHotReset s
  | .pfFlr => Sys2Proof.Machine.execPfFlr s
  | .vfFlr func => Sys2Proof.Machine.execVfFlr func s
  | .powerGood romOk firmware => Sys2Proof.Machine.execPowerGood romOk firmware s
  | .thermalThrottle => Sys2Proof.Machine.execThermalThrottle s
  | .thermalTrip => Sys2Proof.Machine.execThermalTrip s
  | .powerCapWindow milliwatts => Sys2Proof.Machine.execPowerCapWindow milliwatts s
  | .jetLinkUp port peer => Sys2Proof.Machine.execJetLinkUp port peer s
  | .tagRunClose port => Sys2Proof.Machine.execTagRunClose port s
  | .tagFlitReceive port seq verified => Sys2Proof.Machine.execTagFlitReceive port seq verified s
  | .replayRequest port seq => Sys2Proof.Machine.execReplayRequest port seq s
  | .keyRotation port => Sys2Proof.Machine.execKeyRotation port s
  | .spdmMeasurements func ctx nonce => Sys2Proof.Machine.execSpdmMeasurements func ctx nonce s
  | .firmwareOpmAccess tile offset data => Sys2Proof.Machine.execFirmwareOpmAccess tile offset data s
  | .bar4Access func offset bytes data => Sys2Proof.Machine.execBar4Access func offset bytes data s
  | .aqctl func value => Sys2Proof.Machine.execAqctl func value s
  | .dbdrop func value => Sys2Proof.Machine.execDbdrop func value s
  | .evict func value => Sys2Proof.Machine.execEvict func value s
  | .pwrcap func value => Sys2Proof.Machine.execPwrcap func value s
  | .jpctl func port value => Sys2Proof.Machine.execJpctl func port value s
  | .fnstat func => Sys2Proof.Machine.execFnstat func s
  | .registerWrite func offset value => Sys2Proof.Machine.execRegisterWrite func offset value s
  | .memoryPortRequest port ctx gen va bytes data => Sys2Proof.Machine.execMemoryPortRequest port ctx gen va bytes data s
  | .ideEstablishment func => Sys2Proof.Machine.execIdeEstablishment func s
  | .tdispLockInterface func => Sys2Proof.Machine.execTdispLockInterface func s
  | .spdmGetCertificate slot => Sys2Proof.Machine.execSpdmGetCertificate slot s
  | .dieTemperatureFall => Sys2Proof.Machine.execDieTemperatureFall s

end Sys2Proof.Machine
end

