-- ==== Sys2Proof/Machine/Agents.lean ====
section
/-! DEFINITION. Which steps the device's own agents may take, the choice among them, an input, and the placing of one
instruction where the device fetches it (06 R128-R144; log 1). -/

namespace Sys2Proof.Machine

open Sys2Proof

/-! ### The agents' steps -/

/-- The steps of a tile's engines. -/
def engineSteps (t : Nat) (tl : Tile) (e : Engine) : List Instr :=
  [.wordIssue t e, .flowOutcomeTake t e, .commandStart t e, .renqAccept t e]
    ++ ((tl.queue e).flatMap fun q => [.commandComplete t e q.id, .heldTokenPush t e q.id])
    ++ if e = .S then tl.notes.map fun n => .commandComplete t .S n.entry else []

/-- The step of a route element (01 R18). -/
def routeStep (t slot : Nat) (n : RouteNode) : List Instr :=
  match n.kind with
  | 0 => [.cornerTurnWord t slot]
  | 2 => [.arbiterBurst t slot]
  | 3 => [.counterNodeWord t slot]
  | 4 => [.mergeBurst t slot]
  | _ => []

/-- The steps of a tile. -/
def tileSteps (t : Nat) (tl : Tile) : List Instr :=
  [Engine.C, .L, .X, .S].flatMap (engineSteps t tl)
    ++ [.wldWritePhaseEnd t, .tileDrainEnd t, .waitwWake t, .spillRingAllocation t, .tileSeal t, .clearingToken t]
    ++ tl.arrivals.map (fun a => .barrierComplete t (BitVec.ofNat 6 a.1))
    ++ [Dir.north, .east, .south, .west].map (.phaseWordArrival t)
    ++ (List.range 8).map (.slotWaitServed t)
    ++ tl.batches.map (fun b => .batchWindowExpiry t b.1)
    ++ tl.routes.flatMap fun r => routeStep t r.1 r.2

/-- The steps of a context's generators (11 R282-R284, 16 R400). -/
def generatorSteps (s : State) (n : Nat) (c : Context) : List Instr :=
  ((s.endpointsOf c).zipIdx).flatMap fun (ep, i) => match ep.kind with
    | .memIn | .hostIn | .hostToken => [.inputGeneratorWord n i]
    | .memOut | .hostOut => [.outputGeneratorWord n i]
    | .jetOut => [.jetOutWord n i]
    | .jetIn => []
    | .queue => [.queueEnqueue n i, .queueDequeue n i]

/-- The steps of a context's regions (05 R120-R127). -/
def regionSteps (s : State) (n : Nat) (c : Context) : List Instr :=
  match s.imageOf c with
  | none => []
  | some im =>
    let ports := im.regions.flatMap fun (_, g) => g.ports.map (·.rport)
    (List.range im.stageLists.length).map (.stageSwap n)
      ++ c.regions.flatMap fun (k, _) =>
        [.swapDrainEnd n k, .swapReloadEnd n k, .swaptimeout n k, .configError n k, .configReloadDone n k]
          ++ ports.map (.regionPortWord n k)

/-- The steps for a context. -/
def contextSteps (s : State) (n : Nat) (c : Context) : List Instr :=
  [.bindingStart n, .priorityAgeing n, .runCompletion n, .runFailure n, .placement n, .eviction n, .contextSeal n,
    .clearingComplete n] ++ generatorSteps s n c ++ regionSteps s n c

/-- The step of the Front that handles a fetched packet (04 R86). -/
def packetStep (src : PktSrc) (p : BitVec 512) : Instr :=
  match pktOpc p with
  | 1 => .bind src p
  | 2 => .token src p
  | 8 => .ctxcreate src p
  | 9 => .ctxdestroy src p
  | 0x0A => .qcreate src p
  | 0x0B => .qdestroy src p
  | 0x0C => .shareset src p
  | 0x0D => .allowset src p
  | 0x0E => .laneset src p
  | _ => .nop src p

/-- The steps of the Front. -/
def frontSteps (s : State) : List Instr :=
  [.queueMap, .queueQuiesce]
    ++ s.subQs.map (fun q => .packetFetch q.1)
    ++ s.compQs.map (fun q => .completionRecordWrite q.1)
    ++ s.fetched.map (fun f => packetStep f.1 f.2)

/-- The steps of the jet-port tiles. -/
def jetSteps (s : State) : List Instr :=
  s.jets.flatMap fun (p, j) =>
    [.jetInWord p, .tagRunClose p, .keyRotation p] ++ (j.lane.head?.toList.map fun k => .launchLaneMessage p j.peer k)

/-- The unit of a code of the error log (16 R395). -/
def unitOf (code : Nat) : Option HwUnit :=
  [HwUnit.scratchpad, .cacheWay, .configFrame, .instrStore, .registerFile, .jetLink, .dieBridge].find? fun u => unitCode u = code

/-- The self-tests that are scheduled (15 R378). -/
def selfTestSteps (s : State) : List Instr :=
  s.testsDue.flatMap fun (k, _) => match unitOf (k % 8) with
    | none => []
    | some u => [.selfTest u (k / 8) false, .selfTest u (k / 8) true]

/-- Firmware's accesses that wait, for each tile the oldest first (05 R119). -/
def heldSteps (s : State) : List Instr :=
  (s.heldOpm.filter fun k => s.heldOpm.find? (fun q => decide (q.tile = k.tile)) = some k).map fun k =>
    .firmwareOpmAccess k.tile k.offset k.value

/-- The steps of messages on their way, of the policy core, of the memory system and of the scrubbers. -/
def otherSteps (s : State) : List Instr :=
  [.trapEscalation, .faultService]
    ++ (List.range s.tokens.length).map .rmwTokenApply
    ++ (List.range s.flits.length).map .updateApply
    ++ s.lulls.map (fun l => .lullMarkerArrival l.1)
    ++ ((s.slices.map (·.1) ++ (s.transit ++ s.replies).map (·.slice)).eraseDups).map .sliceMissResponse
    ++ (List.range 32).map .accountingWindow
    ++ (List.range 8).map .scrubPass

/-- Every step that an agent of the device might take; one whose condition does not hold changes nothing. -/
def agentSteps (s : State) : List Instr :=
  s.tiles.flatMap (fun t => tileSteps t.1 t.2) ++ s.ctxs.flatMap (fun c => contextSteps s c.1 c.2) ++ frontSteps s
    ++ jetSteps s ++ selfTestSteps s ++ heldSteps s ++ otherSteps s

/-- The steps that the agents offer, those that have waited longest first; each stands there once. -/
def offeredSteps (s : State) : List Instr :=
  let l := agentSteps s
  (s.turns.filter l.contains ++ l).eraseDups

/-- The step that an agent takes next, when no input says so, with the steps that wait on: at every other tick the step that
has waited longest, so that each that stays offered comes (13 R342), and at the others one that a free value picks (log 1). -/
def chooseStep (s : State) : Option (Instr × List Instr) :=
  if s.mode = .ready then
    let l := offeredSteps s
    let k := if s.tick % 2 = 0 then 0 else Config.schedule s.tick % l.length
    l[k]?.map fun i => (i, l.eraseIdx k)
  else none

/-! ### A step -/

/-- A check has passed. -/
def passed {α : Type} : Except Reject α → Bool
  | .ok _ => true
  | .error _ => false

/-- The address that an admin packet names passes order 6 (R93, R428). -/
def adminAddress (s : State) (l : Limits) (p : BitVec 512) : Bool :=
  match pktOpc p with
  | 0x08 => s.inAlloc (l.func.getD 0) (pktField p 160 64) (pktField p 128 32)
  | 0x09 => passed (checkCtx s l p false)
  | 0x0A => match l.window (pktField p 160 2) with
    | none => false
    | some w => w.holds (pktField p 96 64) 128
  | _ => true

/-- A validated admin packet is ready for the policy core: the oldest of its source, which passes the checks of R93 that a packet
of its opcode has. -/
def adminReady (s : State) (src : PktSrc) (p : BitVec 512) : Bool :=
  s.headOf src = some p && 8 ≤ pktOpc p && match s.limitsOf src with
    | none => false
    | some l => passed (checkShape s l p) && adminAddress s l p

/-- Why the policy core is out of retention (04 R79): a pending bit, a validated admin packet, an escalated trap, a page to be
serviced (R371), or a binding of a context that is resident and not placed. -/
def wakeReason (s : State) : Bool :=
  !s.pendingQs.isEmpty || (s.fetched.any fun (src, p) => adminReady s src p) || !s.reports.isEmpty
    || !s.pageFaults.isEmpty || s.ctxs.any fun (_, c) => c.phase == .resident && (c.run.isSome || !c.fifo.isEmpty)

/-- Time passes with every step (log 5); the policy core wakes for a reason that stands, and otherwise returns to retention
(R79). -/
def State.advance (s : State) : State :=
  { s with tick := s.tick + 1, cycle := s.cycle + Config.cyclesOf s.tick, awake := wakeReason s }

/-- A row of the table that is an instruction word: it runs only when a counter or a queue reaches it. -/
def isWord (i : Instr) : Bool := (encode i).isSome

/-- An event is carried out, if the device takes it in its mode. -/
def takeEvent (i : Instr) (s : State) : Out :=
  if !wellFormed i then .fault .noSuchUnit
  else if isWord i || !accepts s.mode i then .next s
  else exec i s

/-- What a step does: the first input of the agenda, or what an agent does. -/
def takeStep (s : State) : Out :=
  match s.agenda with
  | .act i :: rest => takeEvent i (s.withAgenda rest).advance
  | x :: rest => .next (takeInput (s.withAgenda rest).advance x)
  | [] => match chooseStep s with
    | none => .next s.advance
    | some (i, ts) => takeEvent i { s.advance with turns := ts }

/-! ### Placing an instruction -/

/-- Tile 0 with a word at the counter of an engine, so that the engine reaches it next. -/
def Tile.withWord (tl : Tile) (e : Engine) (w : IWord) : Tile :=
  let c := tl.counter e
  ({ tl with hasText := true, nwords := max tl.nwords (c.pc + 1), istore := tSet 0 tl.istore c.pc w,
             istoreBad := tErase tl.istoreBad c.pc, cwait := none, lull := .none, phase := none,
             escalated := false, repOn := tl.repOn && e != Engine.C }).setCounter e { c with st := .running, ended := false }

/-- Tile 0 before an engine's command: nothing is queued, and a token waits on each FIFO. -/
def Tile.freed0 (tl : Tile) (e : Engine) : Tile :=
  { tl.setQueue e [] with tokLX := max 1 tl.tokLX, tokXL := max 1 tl.tokXL, tokXS := max 1 tl.tokXS,
                          tokSX := max 1 tl.tokSX, pushL := [], pushX := [], pushS := [] }

/-- The word where tile 0 fetches it, and the step that runs it: C's word at C's counter; a word of L, X or S issued
into its engine's queue, where it starts. -/
def State.placeWord (s : State) (w : IWord) : State :=
  let e := engOf w
  let s0 := { s with mode := .ready }
  if e = .C then (s0.onTile 0 (·.withWord .C w)).withAgenda (.act (.wordIssue 0 .C) :: s.agenda)
  else
    let s1 := s0.onTile 0 fun tl => (tl.freed0 e).withWord e w
    (issueEngine s1 0 e w).withAgenda (.act (.commandStart 0 e) :: s.agenda)

end Sys2Proof.Machine
end

