-- ==== Sys2Proof/Machine/Step.lean ====
section
/-! DEFINITION. One step of the device: an input, or what one of its agents does (log 1). -/

namespace Sys2Proof.Machine

open Sys2Proof

/-- One step. -/
def step (s : State) : Host.Outcome State Fault Refusal := takeStep s

/-- The state with one instruction word where the next step runs it: in the instruction store of tile 0, with that
tile's counter at it (06 R128, R130, R138). -/
def State.withFetchWord (s : State) (nbits w : Nat) : State :=
  if nbits ≤ 32 then s.placeWord (BitVec.ofNat 32 w) else s

end Sys2Proof.Machine
end

