-- ==== Sys2Proof/Safety.lean ====
section
/-! DEFINITION. The words that claims are stated in: what an instruction of C reads and writes, its completion and that of a
command, and the legal states. -/

namespace Sys2Proof

open Sys2Proof.Machine

/-! ### Instructions of C -/

/-- The word index of the instruction that C runs. -/
def pcOf (s : State) : Nat := (s.tile s.here).cntC.pc

/-- What C reads in a register field that names a register of the file. -/
def xr (s : State) (r : BitVec 5) : Word := (s.tile s.here).xreg r.toNat

/-- Register fields that name registers of the file, not links, and whose registers hold no uncorrectable error. -/
def inFile (s : State) (rs : List (BitVec 5)) : Prop :=
  ∀ r ∈ rs, isLink r = false ∧ (s.tile s.here).badAt (opmX r.toNat) 8 = false

/-- The state with a register of the file written; `x0` discards (R146). -/
def put (s : State) (d : BitVec 5) (v : Word) : State := s.onTile s.here (·.setX d.toNat v)

/-- The instruction completes with its effect made, and C stands at the next word: `retireTo` adds single stepping and
pending traps (R368, R377). -/
def retired (s s' : State) : Out := .next (retireTo s' s.here (pcOf s + 1))

/-- C traps at the instruction, in the state before it (R4, R164, R368). -/
def traps (s : State) (c : Cause) (info : BitVec 14) : Out := .next (deliverTrap s s.here .C c info (pcOf s))

/-- C waits at its word, with what it has already done. -/
def waits (s s' : State) : Out := .next (waitC s' s.here)

/-- A flow instruction completes: its outcome is appended for L, X and S, and C goes on at the word it gives (R132). -/
def flows (s s' : State) (pc : Nat) : Out := .next (retireTo (appendOutcome s' s.here (.goto pc)) s.here pc)

/-- C goes on at a word, and neither a single step nor a pending trap follows. -/
def goOn (s : State) (t pc : Nat) : State :=
  s.onTile t fun tl => { tl with cwait := none, relSince := none, repOn := false, cntC := { tl.cntC with pc := pc, st := .running } }

/-- The values of register fields that are read one after another: a link pops a word at each reading (R163). -/
def readRegs (t : Nat) : List (BitVec 5) → State → Res (List Word × State)
  | [], s => .ok ([], s)
  | r :: rs, s =>
    match readReg t r s with
    | .error e => .error e
    | .ok (v, s1) => match readRegs t rs s1 with
      | .error e => .error e
      | .ok (vs, s2) => .ok (v :: vs, s2)

/-- The state in which an instruction with AR makes its write: with AR, its release has been made (R169, R305, R319). -/
def afterRelease (s : State) (ar : BitVec 1) (scope : BitVec 3) (s1 : State) : Prop :=
  (ar = 0 ∧ s1 = s) ∨ (ar = 1 ∧ release s s.here scope.toNat = .ok s1)

/-! ### Commands -/

/-- The command completes its accesses: the entry in focus is performed, and has still to complete (R141). -/
def performs (e : Engine) (s s' : State) : Out := .next (s'.onEntry s.here e fun q => { q with phase := .performed })

/-- The command traps, and stays in its queue (R367). -/
def trapsCmd (e : Engine) (s : State) (c : Cause) (info : BitVec 14) : Out := .next (trapCommand s s.here e c info)

/-! ### States -/

/-- The power cap stands where R395 clamps it: 2,000 to 7,500 watts. -/
def capLegal (s : State) : Prop := 2000 ≤ s.pwrCap.toNat ∧ s.pwrCap.toNat ≤ 7500

/-- Device memory, every host space and every scratchpad are in their canonical form. -/
def memoriesWf (s : State) : Bool :=
  s.devMem.wf && s.hostMem.all (fun e => e.2.wf) && s.tiles.all (fun e => e.2.scratch.wf)

/-- No byte of device memory, of a host space or of a scratchpad differs. -/
def sameMemory (s t : State) : Prop :=
  t.devMem = s.devMem ∧ t.hostMem = s.hostMem ∧ ∀ u, (t.tile u).scratch = (s.tile u).scratch

end Sys2Proof
end

