-- ==== Sys2Proof/Certificates/Slice0/Obligations.lean ====
section
/-! DEFINITION. The statements for the provers. Each docstring names the rules it rests on. -/

open Sys2Proof Sys2Proof.Machine

/-! ### Encoding and steps -/

/-- DECODE AND ENCODE AGREE: every well-formed instruction is read back from its word, with every operand (R152-R156). -/
def Obligations.RoundTrip : Prop :=
  ∀ (i : Instr) (w : IWord), wellFormed i = true → encode i = some w → decode w = .ok i

/-- A word is read only as a well-formed instruction whose word it is: no bit outside the fields is dropped, and no
reserved code is accepted (R156). -/
def Obligations.DecodeOnlyItsWord : Prop :=
  ∀ (i : Instr) (w : IWord), decode w = .ok i → encode i = some w ∧ wellFormed i = true

/-- Words that the spec writes out in its examples, one or more of each family, and words that it assigns to nothing. -/
def Obligations.DecodeWords : Prop :=
  decode 0x00184400#32 = .ok (.add 3 1 2) ∧ decode 0x0018C811#32 = .ok (.or 3 3 4) ∧
  decode 0x10183FFA#32 = .ok (.addi 3 0 0x3FFA) ∧ decode 0x2040C030#32 = .ok (.ld 8 3 0 0 0 3 0) ∧
  decode 0x2260C034#32 = .ok (.st 12 3 0 0 0 3 4) ∧ decode 0x282A8030#32 = .ok (.amoadd 5 10 0 0 0 1) ∧
  decode 0x37453FFD#32 = .ok (.loop 5 0x3FFD) ∧ decode 0x37600000#32 = .ok .halt ∧
  decode 0x3D06C803#32 = .ok (.csrw 27 3) ∧ decode 0x3E000243#32 = .ok (.rep 1 0 0 1 3) ∧
  decode 0x2F000020#32 = .ok (.mux 0 0 4 0) ∧ decode 0x48084000#32 = .ok (.ldn 0 1 2 1 0 0 0 0 0 0) ∧
  decode 0xE00C8174#32 = .ok (.stn 1 0 3 2 0 0 1 3 1 4) ∧ decode 0xC1400000#32 = .ok (.eos 0 0 0) ∧
  decode 0x80082188#32 = .ok (.mma 0 0 0 0 2 0 4 0 3 0 0 0 1) ∧ decode 0x82448D14#32 = .ok (.erow 0 0 0 0 1 2 3 4 1 1 0) ∧
  decode 0x83050080#32 = .ok (.gld 0 0 0 0 10 0x80) ∧
  (∀ i, decode 0x37800000#32 ≠ .ok i) ∧ (∀ i, decode 0xFFFFFFFF#32 ≠ .ok i)

/-- A STEP TAKES WHAT STANDS NEXT: the event at the head of the agenda, which is `exec` of it with the agenda moved on and time
passed; or, with an empty agenda, the step that an agent takes; or another input (log 1). -/
def Obligations.StepTakesEvent : Prop :=
  (∀ (s : State) (i : Instr) (rest : List Stimulus), s.agenda = .act i :: rest → wellFormed i = true → isWord i = false →
    accepts s.mode i = true → step s = exec i (s.withAgenda rest).advance) ∧
  (∀ (s : State) (i : Instr) (ts : List Instr), s.agenda = [] → chooseStep s = some (i, ts) → wellFormed i = true →
    isWord i = false → accepts s.mode i = true → step s = exec i { s.advance with turns := ts }) ∧
  (∀ s : State, s.agenda = [] → chooseStep s = none → step s = .next s.advance) ∧
  (∀ (s : State) (x : Stimulus) (rest : List Stimulus), s.agenda = x :: rest → (∀ i, x ≠ .act i) →
    step s = .next (takeInput (s.withAgenda rest).advance x))

/-- A STEP RUNS THE DECODED INSTRUCTION, for C: when the word at C's counter decodes to an instruction of C, the step that issues
it is `exec` of it in that tile (R130, R156). -/
def Obligations.IssueRunsDecoded : Prop :=
  ∀ (s : State) (t : Nat) (rest : List Stimulus) (i : Instr),
    let tl := s.tile t
    let w := tGet 0 tl.istore tl.cntC.pc
    s.agenda = .act (.wordIssue t .C) :: rest → s.mode = .ready → tileOk t = true →
    tl.cntC.st ≠ .halted → tl.lull = .none → tl.cntC.pc < tl.nwords → tGet false tl.istoreBad tl.cntC.pc = false →
    engOf w = .C → decode w = .ok i → breakpointAtC tl = none →
    (isRep w = true → tGet false tl.istoreBad (tl.cntC.pc + 1) = false) →
    step s = exec i ((s.withAgenda rest).advance.focused t 0)

/-- The same for L, X and S: when the entry that may start holds a word that decodes to an instruction other than a `nest`, the
step that starts it pops its wait tokens and is `exec` of it, for that entry (R139, R156). -/
def Parts.StartRuns : Prop :=
  ∀ (s : State) (t : Nat) (e : Engine) (rest : List Stimulus) (q : QEntry) (i : Instr),
    let s0 := (s.withAgenda rest).advance
    s.agenda = .act (.commandStart t e) :: rest → s.mode = .ready → tileOk t = true →
    startable s0 t e = some q → decode q.word = .ok i → isNest q.word = false → q.pushed = false → q.popped = false →
    breakpointOf (s.tile t) e q.index = none →
    step s = exec i (((s0.focused t q.id).onTile t (·.popWaits e (tokOf q.word))).onEntry t e
      fun k => { k with phase := .running, caps := q.caps, popped := true })

/-- COMMAND_START COMPLETES (R139, R141): the entry that may start is started, and the event answers a next state, in which what
the command does at its start is done: an `accclr` has popped its tokens, has cleared its banks and is performed. -/
def Parts.StartAnswers : Prop :=
  ∀ (s : State) (t : Nat) (e : Engine) (q : QEntry) (i : Instr),
    startable s t e = some q → decode q.word = .ok i → isNest q.word = false → q.pushed = false → q.popped = false →
    breakpointOf (s.tile t) e q.index = none →
    (∃ u, exec (.commandStart t e) s = .next u) ∧
    (∀ wl ws gl gs mask, i = .accclr wl ws gl gs mask → e = .X → mask ≠ 0 →
      ∃ u, exec (.commandStart t e) s = .next u ∧
        (u.tile t).tokLX = (s.tile t).tokLX - wl.toNat ∧ (u.tile t).tokSX = (s.tile t).tokSX - ws.toNat ∧
        (∀ k ∈ (u.tile t).qX, k.id = q.id → k.phase = .performed ∧ k.popped = true) ∧
        (u.tile t).qX.map (·.id) = (s.tile t).qX.map (·.id) ∧
        (∀ b i j, i < 64 → j < 64 → accAt (u.tile t) b i j = if b < 5 ∧ mask.getLsbD b then 0 else accAt (s.tile t) b i j) ∧
        sameMemory s u)

/-- A STEP RUNS THE DECODED INSTRUCTION, for L, X and S, and COMMAND_START completes (R139, R156). -/
def Obligations.StartRunsDecoded : Prop := Parts.StartRuns ∧ Parts.StartAnswers

/-- An L, X or S counter issues its engine's word into the queue and skips the words of the others (R130, R138): WORD_ISSUE. -/
def Obligations.WordIssueQueues : Prop :=
  ∀ (s : State) (t : Nat) (e : Engine),
    let tl := s.tile t
    let c := tl.counter e
    let w := tGet 0 tl.istore c.pc
    e ≠ .C → c.st ≠ .halted → tl.lull = .none → c.pc < tl.nwords → tGet false tl.istoreBad c.pc = false →
    isFlow w = false →
    (engOf w ≠ e → exec (.wordIssue t e) s =
      .next (s.onTile t (·.setCounter e { c with pc := c.pc + 1, st := .running }))) ∧
    (engOf w = e → isNest w = false → (tl.queue e).length < 32 → tl.pushes e = [] →
      exec (.wordIssue t e) s = .next (s.setTile t
        (({ tl with nextId := tl.nextId + 1 }.setQueue e
          (tl.queue e ++ [newEntry tl w c.pc (tl.consumed e) [] false false])).setCounter e
          { c with pc := c.pc + 1, st := .running }))) ∧
    (engOf w = e → 32 ≤ (tl.queue e).length → exec (.wordIssue t e) s = .next (waitAt s t e))

/-- WHAT RESET LEAVES: the device ready with no context (R390, R401), PWRCAP 7,500 (R395), and in every tile the CSRs at the reset
values of R148, all counters halted and no program. -/
def Obligations.ResetValues : Prop :=
  State.reset.mode = .ready ∧ State.reset.ctxs = [] ∧ State.reset.pwrCap = 7500 ∧
  (∀ f, (State.reset.function f).dbDrop = 0 ∧ (State.reset.function f).aqCtl = 0) ∧
  (∀ p, (State.reset.jet p).link = .down ∧ (State.reset.jet p).enabled = false) ∧
  ∀ t, (State.reset.tile t).allHalted = true ∧ (State.reset.tile t).hasText = false ∧
    csrRead State.reset t 0x002 = some 0 ∧ csrRead State.reset t 0x003 = some 16 ∧ csrRead State.reset t 0x008 = some 0 ∧ csrRead State.reset t 0x009 = some 0 ∧
    csrRead State.reset t 0x010 = some 64 ∧ csrRead State.reset t 0x011 = some 0 ∧ csrRead State.reset t 0x018 = some 0 ∧
    csrRead State.reset t 0x019 = some 0 ∧ csrRead State.reset t 0x01A = some 0 ∧ csrRead State.reset t 0x01C = some 0 ∧
    csrRead State.reset t 0x026 = some 0

/-! ### C: registers, arithmetic, pointers -/

/-- The results of R165 with two register sources. -/
def arith3 : List ((BitVec 5 → BitVec 5 → BitVec 5 → Instr) × (Word → Word → Word)) :=
  [(.add, fun a b => a + b), (.sub, fun a b => a - b), (.mul, fun a b => a * b),
   (.mulh, fun a b => BitVec.ofInt 64 (a.toInt * b.toInt / 2 ^ 64)),
   (.mulhsu, fun a b => BitVec.ofInt 64 (a.toInt * (b.toNat : Int) / 2 ^ 64)),
   (.mulhx, fun a b => BitVec.ofNat 64 (a.toNat * b.toNat / 2 ^ 64)),
   (.div, fun a b => if b = 0 then BitVec.allOnes 64 else BitVec.ofInt 64 (a.toInt.tdiv b.toInt)),
   (.divx, fun a b => if b = 0 then BitVec.allOnes 64 else BitVec.ofNat 64 (a.toNat / b.toNat)),
   (.rem, fun a b => if b = 0 then a else BitVec.ofInt 64 (a.toInt.tmod b.toInt)),
   (.remx, fun a b => if b = 0 then a else BitVec.ofNat 64 (a.toNat % b.toNat)),
   (.and, fun a b => a &&& b), (.or, fun a b => a ||| b), (.xor, fun a b => a ^^^ b), (.andn, fun a b => a &&& ~~~b),
   (.orn, fun a b => a ||| ~~~b), (.sll, fun a b => a <<< (b.toNat % 64)), (.srl, fun a b => a >>> (b.toNat % 64)),
   (.sra, fun a b => a.sshiftRight (b.toNat % 64)), (.rol, fun a b => a.rotateLeft (b.toNat % 64)),
   (.ror, fun a b => a.rotateRight (b.toNat % 64)),
   (.min, fun a b => if a.toInt < b.toInt then a else b), (.max, fun a b => if a.toInt < b.toInt then b else a),
   (.minx, fun a b => if a.toNat < b.toNat then a else b), (.maxx, fun a b => if a.toNat < b.toNat then b else a),
   (.slt, fun a b => if a.toInt < b.toInt then 1 else 0), (.sltx, fun a b => if a.toNat < b.toNat then 1 else 0),
   (.seq, fun a b => if a = b then 1 else 0), (.sne, fun a b => if a = b then 0 else 1)]

/-- The results of R165 with one register source, but for the counts of bits. -/
def arith2 : List ((BitVec 5 → BitVec 5 → Instr) × (Word → Word)) :=
  [(.sextB, fun a => (a.setWidth 8).signExtend 64), (.sextH, fun a => (a.setWidth 16).signExtend 64),
   (.sextW, fun a => (a.setWidth 32).signExtend 64), (.zextB, fun a => (a.setWidth 8).setWidth 64),
   (.zextH, fun a => (a.setWidth 16).setWidth 64), (.zextW, fun a => (a.setWidth 32).setWidth 64)]

/-- The results of R167 with an immediate of 14 bits, sign-extended. -/
def arithImm : List ((BitVec 5 → BitVec 5 → BitVec 14 → Instr) × (Word → Word → Word)) :=
  [(.addi, fun a i => a + i), (.andi, fun a i => a &&& i), (.ori, fun a i => a ||| i), (.xori, fun a i => a ^^^ i),
   (.slti, fun a i => if a.toInt < i.toInt then 1 else 0), (.sltxi, fun a i => if a.toNat < i.toNat then 1 else 0)]

/-- The shifts of R167. -/
def shiftI : List ((BitVec 5 → BitVec 5 → BitVec 6 → Instr) × (Word → Nat → Word)) :=
  [(.slli, fun a n => a <<< n), (.srli, fun a n => a >>> n), (.srai, fun a n => a.sshiftRight n)]

/-- ARITHMETIC OF C ON THE REGISTERS OF THE FILE (R165, R55, R146): the result goes to rd, and no trap is raised. A link operand is
the matter of `LinkOperands`. -/
def Parts.RegisterResults : Prop :=
  (∀ p ∈ arith3, ∀ (d a b : BitVec 5) (s : State), inFile s [a, b] → isLink d = false →
    exec (p.1 d a b) s = retired s (put s d (p.2 (xr s a) (xr s b)))) ∧
  (∀ p ∈ arith2, ∀ (d a : BitVec 5) (s : State), inFile s [a] → isLink d = false →
    exec (p.1 d a) s = retired s (put s d (p.2 (xr s a)))) ∧
  (∀ (d a b : BitVec 5) (s : State), inFile s [a, b, d] →
    exec (.sel d a b) s = retired s (put s d (if xr s d = 0 then xr s b else xr s a)))

/-- COUNTS OF BITS (R165): `clz` and `ctz` give the number of zero bits above the highest and below the lowest set bit, 64 for
zero; `popc` the number of set bits. -/
def Parts.BitCounts : Prop :=
  ∀ (d a : BitVec 5) (s : State), inFile s [a] → isLink d = false →
    (∃ n, exec (.clz d a) s = retired s (put s d (BitVec.ofNat 64 n)) ∧ n ≤ 64 ∧ (xr s a).toNat < 2 ^ (64 - n) ∧
      (n < 64 → 2 ^ (63 - n) ≤ (xr s a).toNat)) ∧
    (∃ n, exec (.ctz d a) s = retired s (put s d (BitVec.ofNat 64 n)) ∧ n ≤ 64 ∧ 2 ^ n ∣ (xr s a).toNat ∧
      (n < 64 → (xr s a).getLsbD n = true) ∧ (xr s a = 0 → n = 64)) ∧
    exec (.popc d a) s =
      retired s (put s d (BitVec.ofNat 64 ((List.range 64).filter fun k => (xr s a).getLsbD k).length))

/-- The parts above, together. -/
def Obligations.RegisterArithmetic : Prop := Parts.RegisterResults ∧ Parts.BitCounts

/-- IMMEDIATES (R167): the instructions of format I, `lui`, and `auipc`, which adds to its own word index. -/
def Parts.Immediates : Prop :=
  (∀ p ∈ arithImm, ∀ (d a : BitVec 5) (imm : BitVec 14) (s : State), inFile s [a] → isLink d = false →
    exec (p.1 d a imm) s = retired s (put s d (p.2 (xr s a) (imm.signExtend 64)))) ∧
  (∀ p ∈ shiftI, ∀ (d a : BitVec 5) (sh : BitVec 6) (s : State), inFile s [a] → isLink d = false →
    exec (p.1 d a sh) s = retired s (put s d (p.2 (xr s a) sh.toNat))) ∧
  (∀ (d : BitVec 5) (imm : BitVec 19) (s : State), isLink d = false →
    exec (.lui d imm) s = retired s (put s d (imm.signExtend 64 <<< 14)) ∧
    exec (.auipc d imm) s = retired s (put s d (BitVec.ofNat 64 (pcOf s) + imm.signExtend 64)))

/-- ADDRESS ARITHMETIC AND BIT FIELDS (R166): a field's position is bits [5:0] of x[rs2] and its width bits [11:6] plus one, cut at
bit 63. -/
def Parts.AddressArithmetic : Prop :=
  ∀ (d a b : BitVec 5) (s : State), inFile s [a, b, d] →
    let pos := (xr s b).toNat % 64
    let width := min ((xr s b).toNat / 64 % 64 + 1) (64 - pos)
    (∀ sh : BitVec 3, exec (.lea d a b sh) s = retired s (put s d (xr s a + (xr s b <<< sh.toNat)))) ∧
    exec (.madd d a b) s = retired s (put s d (xr s d + xr s a * xr s b)) ∧
    exec (.bfe d a b) s = retired s (put s d (BitVec.ofNat 64 ((xr s a).toNat / 2 ^ pos % 2 ^ width))) ∧
    exec (.bfi d a b) s = retired s (put s d (BitVec.ofNat 64
      ((xr s d).toNat % 2 ^ pos + (xr s a).toNat % 2 ^ width * 2 ^ pos
        + (xr s d).toNat / 2 ^ (pos + width) * 2 ^ (pos + width))))

/-- An instruction with a result in rd: the instruction, the register fields that it reads, in the order of R163, and the result
from their values and from its own word index. -/
abbrev RegForm := Instr × List (BitVec 5) × (List Word → Nat → Word)

/-- The forms of R165-R167 that stand in none of the tables above. -/
def otherForms (d a b : BitVec 5) (high : BitVec 19) (by3 : BitVec 3) : List RegForm :=
  [(.sel d a b, [a, b, d], fun v _ => if v.getD 2 0 = 0 then v.getD 1 0 else v.getD 0 0),
   (.lea d a b by3, [a, b], fun v _ => v.getD 0 0 + (v.getD 1 0 <<< by3.toNat)),
   (.madd d a b, [a, b, d], fun v _ => v.getD 2 0 + v.getD 0 0 * v.getD 1 0),
   (.bfe d a b, [a, b], fun v _ => extractField (v.getD 0 0) (v.getD 1 0)),
   (.bfi d a b, [a, b, d], fun v _ => insertField (v.getD 0 0) (v.getD 1 0) (v.getD 2 0)),
   (.clz d a, [a], fun v _ => BitVec.ofNat 64 (leadingZeros (v.getD 0 0))),
   (.ctz d a, [a], fun v _ => BitVec.ofNat 64 (trailingZeros (v.getD 0 0))),
   (.popc d a, [a], fun v _ => BitVec.ofNat 64 (popCount (v.getD 0 0))),
   (.lui d high, [], fun _ _ => high.signExtend 64 <<< 14),
   (.auipc d high, [], fun _ pc => BitVec.ofNat 64 pc + high.signExtend 64)]

/-- The instructions of R165-R167. -/
def regForms (d a b : BitVec 5) (imm : BitVec 14) (high : BitVec 19) (sh : BitVec 6) (by3 : BitVec 3) : List RegForm :=
  (arith3.map fun p => (p.1 d a b, [a, b], fun v _ => p.2 (v.getD 0 0) (v.getD 1 0))) ++
  ((arith2.map fun p => (p.1 d a, [a], fun v _ => p.2 (v.getD 0 0))) ++
  ((arithImm.map fun p => (p.1 d a imm, [a], fun v _ => p.2 (v.getD 0 0) (imm.signExtend 64))) ++
  ((shiftI.map fun p => (p.1 d a sh, [a], fun v _ => p.2 (v.getD 0 0) sh.toNat)) ++ otherForms d a b high by3)))

/-- LINK OPERANDS of the instructions of R165-R167 (R146, R163, R328): the checks of every link come before the first pop; the sources are
read in order, a link source pops the oldest word of its input, and C waits, with nothing popped, while one is empty; a
destination in the file is written, and a link destination sends, or C waits while the input it feeds is full. -/
def Parts.RegisterLinks : Prop :=
  ∀ (d a b : BitVec 5) (imm : BitVec 14) (high : BitVec 19) (sh : BitVec 6) (by3 : BitVec 3) (s : State),
    ∀ f ∈ regForms d a b imm high sh by3,
      (∀ c info, checkLinks s.here f.2.1 [d] s = .error (.trap c info) → exec f.1 s = traps s c info) ∧
      (checkLinks s.here f.2.1 [d] s = .ok () →
        (readRegs s.here f.2.1 s = .error .stall → exec f.1 s = waits s s) ∧
        (∀ c info, readRegs s.here f.2.1 s = .error (.trap c info) → exec f.1 s = traps s c info) ∧
        ∀ vs s1, readRegs s.here f.2.1 s = .ok (vs, s1) →
          (isLink d = false → exec f.1 s = retired s (s1.onTile s.here (·.setX d.toNat (f.2.2 vs (pcOf s))))) ∧
          (isLink d = true → s1.linkFill s.here (d.toNat - 28) < 8 →
            exec f.1 s = retired s (s1.onTile s.here fun tl =>
              { tl with linkOut := tSet [] tl.linkOut (d.toNat - 28) (tGet [] tl.linkOut (d.toNat - 28) ++ [f.2.2 vs (pcOf s)]) })) ∧
          (isLink d = true → 8 ≤ s1.linkFill s.here (d.toNat - 28) → exec f.1 s = waits s s))

/-- Reading register fields one after another (R146, R163): a register of the file gives its value, a link the oldest word of its input,
which leaves it; an empty input stops the reading, the first source's or a later one's. -/
def Parts.ReadInOrder : Prop :=
  ∀ (t : Nat) (r : BitVec 5) (rs : List (BitVec 5)) (s : State),
    (isLink r = true → tGet [] (s.tile t).linkIn (r.toNat - 28) = [] → readRegs t (r :: rs) s = .error .stall) ∧
    (∀ v s1 v2 s2 w ws, readReg t r s = .ok (v, s1) → readRegs t rs s1 = .ok (v2, s2) →
      readRegs t (r :: rs) s = .ok (v :: v2, s2) ∧
      (isLink r = false → v = (s.tile t).xreg r.toNat ∧ s1 = s) ∧
      (isLink r = true → tGet [] (s.tile t).linkIn (r.toNat - 28) = w :: ws → v = w ∧
        tGet [] (s1.tile t).linkIn (r.toNat - 28) = ws)) ∧
    (∀ v s1 e, readReg t r s = .ok (v, s1) → readRegs t rs s1 = .error e → readRegs t (r :: rs) s = .error e)

/-- THE REGISTERS OF C (R146): `x0` reads as zero and discards writes; a write of `x1`-`x27` changes that register alone; a link
read takes the oldest word of its input and leaves the rest, a link write sends a word; a link used outside a phase is LINKPH. -/
def Obligations.RegisterFile : Prop :=
  ∀ (s : State) (t : Nat) (r : BitVec 5) (v : Word),
    (r = 0 → (s.tile t).badAt (opmX 0) 8 = false → readReg t r s = .ok (0, s)) ∧
    (isLink r = false → ∃ s', writeReg t r v s = .ok s' ∧
      (s'.tile t).xreg 0 = 0 ∧ (∀ k, (s'.tile t).xreg k = if k = r.toNat ∧ r ≠ 0 then v else (s.tile t).xreg k) ∧
      sameMemory s s' ∧ (∀ u, u ≠ t → s'.tile u = s.tile u) ∧ (s'.tile t).linkIn = (s.tile t).linkIn) ∧
    (isLink r = true → ∀ w ws, tGet [] (s.tile t).linkIn (r.toNat - 28) = w :: ws → ∃ s', readReg t r s = .ok (w, s') ∧
      tGet [] (s'.tile t).linkIn (r.toNat - 28) = ws) ∧
    (isLink r = true → s.linkFill t (r.toNat - 28) < 8 → ∃ s', writeReg t r v s = .ok s' ∧
      tGet [] (s'.tile t).linkOut (r.toNat - 28) = tGet [] (s.tile t).linkOut (r.toNat - 28) ++ [v] ∧
      (s'.tile t).x = (s.tile t).x ∧ sameMemory s s') ∧
    (isLink r = true → (s.tile s.here).phase = none → ∀ d a b imm high sh by3, ∀ f ∈ regForms d a b imm high sh by3,
      r = d ∨ r ∈ f.2.1 → exec f.1 s = traps s .LINKPH 0)

/-- THE END OF AN INSTRUCTION OF C (R368, R377): C stands at the next word; with DBGCTL.STEP set outside the handler, STEP is raised
there; otherwise the pending trap of the highest priority is delivered, if there is one and C is not in its handler. -/
def Obligations.Retirement : Prop :=
  ∀ (s : State) (t pc : Nat),
    let tl := s.tile t
    (tl.dbgCtl.getLsbD 0 = false → (tl.pending = [] ∨ tl.inHandler = true) → retireTo s t pc = goOn s t pc) ∧
    (tl.dbgCtl.getLsbD 0 = true → tl.inHandler = false → retireTo s t pc = deliverTrap (goOn s t pc) t .C .STEP 0 pc) ∧
    (∀ p, tl.dbgCtl.getLsbD 0 = false → tl.inHandler = false → tl.lull = .none → tl.escalated = false →
      2 ^ 14 ≤ tl.trapVec.toNat → tl.dbgCtl.getLsbD 2 = false → nextPending tl.pending = some p →
      retireTo s t pc = enterHandler ((goOn s t pc).onTile t fun tl =>
        { tl with pending := tl.pending.erase p }) t p.eng p.cause p.info p.index p.saved p.entry)

/-- An address is canonical (R61): its space is 0x0, 0x8, 0x9, 0xA or 0xB, and the fields that the space shows as zero are zero. -/
def canonicalAddr (a : Word) : Prop :=
  a.extractLsb' 60 4 = 0#4 ∨ (a.extractLsb' 60 4 = 8#4 ∧ a.extractLsb' 21 28 = 0#28) ∨
  (a.extractLsb' 60 4 = 9#4 ∧ a.extractLsb' 56 4 = 0#4 ∧ a.extractLsb' 21 27 = 0#27) ∨
  (a.extractLsb' 60 4 = 10#4 ∧ a.extractLsb' 21 39 = 0#39) ∨ (a.extractLsb' 60 4 = 11#4 ∧ a.extractLsb' 24 25 = 0#25)

/-- The value of a conversion that fails (R174). -/
def noPointer : Word := 0xFFFFFFFFFFFFFFFF#64

/-- `spc` (R174), from the value of rs1, the code of the target space and the result: the table, row by row. -/
def spcTable (s : State) (p : Word) (sp : BitVec 4) (v : Word) : Prop :=
  let own := (s.tile s.here).tileId
  let from_ := p.extractLsb' 60 4
  let off := p.toNat % 2 ^ 21
  let row := (p.extractLsb' 52 4).toNat
  let col := (p.extractLsb' 48 4).toNat
  let mine := row = rowOf s.here % 16 ∧ col = colOf s.here % 16
  (¬ canonicalAddr p → v = noPointer) ∧
  (canonicalAddr p →
    (from_ = sp → v = p) ∧
    (from_ = 8#4 → sp = 9#4 → v = if p.extractLsb' 49 11 = own
      then sharedAddr (rowOf s.here % 16) (colOf s.here % 16) off else noPointer) ∧
    (from_ = 9#4 → sp = 8#4 → v = if mine then localAddr own.toNat off else noPointer) ∧
    (from_ = 8#4 → sp = 11#4 → v = opmAddr (p.extractLsb' 49 11).toNat off) ∧
    (from_ = 9#4 → sp = 11#4 →
      (s.tileAtPos s.here row col = none → v = noPointer) ∧
      (∀ u, s.tileAtPos s.here row col = some u → v = opmAddr (s.tile u).tileId.toNat off)) ∧
    (from_ = 10#4 → sp = 11#4 → v = opmAddr own.toNat (0x1F0000 + off)) ∧
    (from_ ≠ sp → (from_, sp) ∉ [(8#4, 9#4), (9#4, 8#4), (8#4, 11#4), (9#4, 11#4), (10#4, 11#4)] → v = noPointer))

/-- POINTERS (R173-R175): `spt` and `spc` never trap; `mkp` gives the address of an offset in a tile of the rectangle, and traps in the
order of its checks. -/
def Parts.Pointers : Prop :=
  ∀ (d a b : BitVec 5) (s : State), inFile s [a, b] → isLink d = false →
    exec (.spt d a) s = retired s (put s d (BitVec.ofNat 64 (spaceOf (xr s a) + (if canonical (xr s a) then 256 else 0)
      + (if cUsable s s.here (xr s a) then 512 else 0)))) ∧
    (canonical (xr s a) = true ↔ canonicalAddr (xr s a)) ∧
    (∀ sp : BitVec 4, ∃ v, exec (.spc d a sp) s = retired s (put s d v) ∧ spcTable s (xr s a) sp v) ∧
    (∀ u, (xr s a).toNat < 2 ^ 11 → s.tileOfRel s.here (xr s a).toNat = some u → (xr s b).toNat < 2 ^ 21 →
      exec (.mkpLocal d a b) s = retired s (put s d (localAddr (xr s a).toNat (xr s b).toNat)) ∧
      (dieOf u = dieOf s.here → exec (.mkpShared d a b) s =
        retired s (put s d (sharedAddr (rowOf u % 16) (colOf u % 16) (xr s b).toNat))) ∧
      (dieOf u ≠ dieOf s.here → exec (.mkpShared d a b) s = traps s .ASPACE 0)) ∧
    (∀ u, (xr s a).toNat < 2 ^ 11 → s.tileOfRel s.here (xr s a).toNat = some u → (xr s b).toNat < 2 ^ 24 →
      exec (.mkpOpm d a b) s = retired s (put s d (opmAddr (xr s a).toNat (xr s b).toNat))) ∧
    ((2 ^ 11 ≤ (xr s a).toNat ∨ 2 ^ 21 ≤ (xr s b).toNat) →
      exec (.mkpLocal d a b) s = traps s .RANGE 0 ∧ exec (.mkpShared d a b) s = traps s .RANGE 0) ∧
    ((2 ^ 11 ≤ (xr s a).toNat ∨ 2 ^ 24 ≤ (xr s b).toNat) → exec (.mkpOpm d a b) s = traps s .RANGE 0) ∧
    ((xr s a).toNat < 2 ^ 11 → s.tileOfRel s.here (xr s a).toNat = none →
      ((xr s b).toNat < 2 ^ 21 → exec (.mkpLocal d a b) s = traps s .PERM 0 ∧ exec (.mkpShared d a b) s = traps s .PERM 0) ∧
      ((xr s b).toNat < 2 ^ 24 → exec (.mkpOpm d a b) s = traps s .PERM 0))

/-- The fields of R176: the code, the width, and whether `tlget` extends by the sign. -/
def recordFields : List (BitVec 6 × Nat × Bool) :=
  [(0x00, 64, false), (0x01, 4, false), (0x02, 3, false), (0x03, 4, false), (0x04, 4, false), (0x05, 32, false),
   (0x06, 8, false), (0x07, 4, false), (0x08, 16, false)] ++
  (List.range 6).map (fun k => (BitVec.ofNat 6 (0x10 + k), 24, false)) ++
  (List.range 6).map (fun k => (BitVec.ofNat 6 (0x18 + k), 32, true)) ++
  (List.range 6).map (fun k => (BitVec.ofNat 6 (0x20 + k), 24, true)) ++
  (List.range 6).map (fun k => (BitVec.ofNat 6 (0x28 + k), 16, false))

/-- READ AFTER WRITE of record fields (R176, R177): the low bits written are read back, extended as the field's row says, and every
other field reads as before. -/
def Parts.RecordFields : Prop :=
  ∀ (r : Tlr) (v : Word), ∀ f ∈ recordFields,
    Tlr.getField (Tlr.setField r f.1 v) f.1 =
      (if f.2.2 then (v.setWidth f.2.1).signExtend 64 else (v.setWidth f.2.1).setWidth 64) ∧
    ∀ g ∈ recordFields, g.1 ≠ f.1 → Tlr.getField (Tlr.setField r f.1 v) g.1 = Tlr.getField r g.1

/-- LAYOUT RECORDS (R177, R178): a field written or read, a record cleared or copied, and the check of a record, which writes a code
and never traps. -/
def Parts.LayoutRecords : Prop :=
  ∀ (d a : BitVec 5) (g h : BitVec 4) (fld : BitVec 6) (s : State), inFile s [a] → isLink d = false →
    (s.tile s.here).badAt (opmG g.toNat) 96 = false →
    let r := tGet 0 (s.tile s.here).g g.toNat
    exec (.tlset g a fld) s = retired s (s.onTile s.here (·.setField g fld (xr s a))) ∧
    ((s.tile s.here).setField g fld (xr s a)).desc g = Tlr.setField r fld (xr s a) ∧
    exec (.tlget d g fld) s = retired s (put s d (Tlr.getField r fld)) ∧
    exec (.tlclr h) s = retired s (s.onTile s.here (·.setRec h 0)) ∧
    exec (.tlmov h g) s = retired s (s.onTile s.here (·.setRec h r)) ∧
    exec (.tlchkL d g) s = retired s (put s d (tlchkValue s s.here .L r)) ∧
    exec (.tlchkX d g) s = retired s (put s d (tlchkValue s s.here .X r)) ∧
    exec (.tlchkS d g) s = retired s (put s d (tlchkValue s s.here .S r))

/-- IMMEDIATES, ADDRESS ARITHMETIC AND BIT FIELDS of C (R166, R167). -/
def Obligations.ImmediatesAndFields : Prop := Parts.Immediates ∧ Parts.AddressArithmetic

/-- POINTERS AND LAYOUT RECORDS of C (R172-R178). -/
def Obligations.PointersAndRecords : Prop := Parts.Pointers ∧ Parts.RecordFields ∧ Parts.LayoutRecords

/-! ### C: memory -/

/-- An access of C passes the checks of R169 and has this home: no watch hits it and no lapsed region of the tile meets it. -/
def accessOk (s : State) (ea : Word) (n : Nat) (rd wr : Bool) (h : Home) : Prop :=
  scalarHome s s.here .C ea n n = .ok h ∧ watchOf (s.tile s.here) ea n rd wr = none ∧ checkLapsed s s.here h n = .ok ()

/-- The address of a scalar access (R169): the base plus the displacement in units of the access size. -/
def eaOf (s : State) (a : BitVec 5) (size : BitVec 2) (disp : BitVec 4) : Word :=
  xr s a + disp.signExtend 64 * BitVec.ofNat 64 (2 ^ size.toNat)

/-- SCALAR LOADS (R168-R171): the bytes at the access's home, sign- or zero-extended, go to rd; with AR the load acquires. The access
passes the context's port, which changes no value (R286). -/
def Parts.Loads : Prop :=
  ∀ (d a : BitVec 5) (oc : BitVec 4) (ar : BitVec 1) (scope : BitVec 3) (size : BitVec 2) (disp : BitVec 4) (s : State)
    (h : Home) (v : Nat),
    let n := 2 ^ size.toNat
    let s0 := s.viaPort s.here h n false oc
    let s1 := if ar = 1 then acquire s0 s.here else s0
    inFile s [a] → isLink d = false → accessOk s (eaOf s a size disp) n true false h → cRead s s.here h n = .ok v →
    exec (.ld d a oc ar scope size disp) s =
      retired s (s1.onTile s.here (·.setX d.toNat (BitVec.ofInt 64 (BitVec.ofNat (8 * n) v).toInt))) ∧
    exec (.ldz d a oc ar scope size disp) s =
      retired s (s1.onTile s.here (·.setX d.toNat (BitVec.ofNat 64 v))) ∧
    (∀ u off, h = .scratch u off → s0 = s)

/-- MEMORY INSTRUCTIONS WITH LINK OPERANDS (R146, R163, R169): the link checks come first; a link base or datum is popped, or C waits;
what a load reads goes out on a link destination, or C waits and pops nothing. -/
def Parts.MemoryLinks : Prop :=
  ∀ (d a : BitVec 5) (oc : BitVec 4) (ar : BitVec 1) (scope : BitVec 3) (size : BitVec 2) (disp : BitVec 4) (s : State),
    let n := 2 ^ size.toNat
    let ea (va : Word) : Word := va + disp.signExtend 64 * BitVec.ofNat 64 (2 ^ size.toNat)
    (∀ c info, checkLinks s.here [a] [d] s = .error (.trap c info) →
      exec (.ld d a oc ar scope size disp) s = traps s c info ∧ exec (.ldz d a oc ar scope size disp) s = traps s c info) ∧
    (∀ c info, checkLinks s.here [a, d] [] s = .error (.trap c info) →
      exec (.st d a oc ar scope size disp) s = traps s c info) ∧
    (checkLinks s.here [a] [d] s = .ok () →
      (readReg s.here a s = .error .stall →
        exec (.ld d a oc ar scope size disp) s = waits s s ∧ exec (.ldz d a oc ar scope size disp) s = waits s s) ∧
      (∀ va s1 h v, readReg s.here a s = .ok (va, s1) → accessOk s1 (ea va) n true false h → cRead s1 s.here h n = .ok v →
        let s2 := s1.viaPort s.here h n false oc
        let s3 := if ar = 1 then acquire s2 s.here else s2
        (∀ t, writeReg s.here d (BitVec.ofInt 64 (BitVec.ofNat (8 * n) v).toInt) s3 = .ok t →
          exec (.ld d a oc ar scope size disp) s = retired s t) ∧
        (∀ t, writeReg s.here d (BitVec.ofNat 64 v) s3 = .ok t → exec (.ldz d a oc ar scope size disp) s = retired s t) ∧
        (isLink d = true → 8 ≤ s3.linkFill s.here (d.toNat - 28) →
          exec (.ld d a oc ar scope size disp) s = waits s s ∧ exec (.ldz d a oc ar scope size disp) s = waits s s))) ∧
    (checkLinks s.here [a, d] [] s = .ok () →
      (readRegs s.here [a, d] s = .error .stall → exec (.st d a oc ar scope size disp) s = waits s s) ∧
      (∀ va vd s1 u off, readRegs s.here [a, d] s = .ok ([va, vd], s1) → accessOk s1 (ea va) n false true (.scratch u off) →
        (s1.tile u).pubsBad = false →
        exec (.st d a oc 0 scope size disp) s = retired s (scratchWrite s1 u off (natBytes n vd.toNat) oc true false)))

/-- WHAT A HOME HOLDS FOR C (R171, R289, R311): the bytes of a scratchpad, the least significant first, unless a line is poisoned;
the bytes of device memory under the key that the translation names; a refused translation traps. -/
def Parts.HomeReads : Prop :=
  ∀ (s : State) (t n : Nat),
    (∀ u off, poisoned (s.tile u).poison off n 64 = false → dieOf t = dieOf u →
      cRead s t (.scratch u off) n = .ok ((s.tile u).scratch.readNat off n)) ∧
    (∀ u off, poisoned (s.tile u).poison off n 64 = true → cRead s t (.scratch u off) n = .error (.trap .MEMERR 0)) ∧
    (∀ va pa key, translateFor s t va n true false = .ok (.device pa key) → poisoned s.devPoison pa n 64 = false →
      cRead s t (.global va) n = .ok (bytesNat (devBytes s key pa n))) ∧
    (∀ va c, translateFor s t va n true false = .error (.refuse c) → cRead s t (.global va) n = .error (.trap c 0))

/-- SCALAR STORES (R168-R171): the low bytes of the rd field go to the access's home; with AR the tile's release comes first: the
store waits for it, and is made once it is complete (R305). A store to a scratchpad reads its tile's publisher table, in which an error is
MEMERR (R354, R380). -/
def Obligations.Stores : Prop :=
  ∀ (d a : BitVec 5) (oc : BitVec 4) (ar : BitVec 1) (scope : BitVec 3) (size : BitVec 2) (disp : BitVec 4) (s : State) (h : Home),
    let n := 2 ^ size.toNat
    let bytes := natBytes n (xr s d).toNat
    inFile s [a, d] → accessOk s (eaOf s a size disp) n false true h →
    (∀ s1, afterRelease s ar scope s1 →
      (∀ u off, h = .scratch u off → (s.tile u).pubsBad = false → exec (.st d a oc ar scope size disp) s =
        retired s (scratchWrite s1 u off bytes oc true false)) ∧
      (∀ u off, h = .scratch u off → (s.tile u).pubsBad = true → exec (.st d a oc ar scope size disp) s = traps s .MEMERR 0) ∧
      (∀ va r, h = .global va → translateFor s s.here va n false true = .ok r → exec (.st d a oc ar scope size disp) s =
        retired s (routeWrite (s1.viaPort s.here h n true oc) ((s.tile s.here).owner.getD 0) (.engine s.here .C 0) oc r bytes))) ∧
    (∀ s1, ar = 1 → release s s.here scope.toNat = .error (.wait s1) →
      exec (.st d a oc ar scope size disp) s = waits s s1)

/-- WHAT A SCRATCHPAD WRITE CHANGES (R309, R258, R311): its bytes, and no other byte of any memory; the zero flags of its blocks are
cleared, and those of other blocks kept; the memory keeps its canonical form. Beside them only poison, the bytes kept for other
dies (R312), monitors, and the updates that it forms change: every register, counter, queue, token, latch and CSR stays. -/
def Obligations.ScratchWrite : Prop :=
  ∀ (s : State) (u off : Nat) (bytes : List Byte) (cls : BitVec 4) (fwd byX : Bool),
    let s' := scratchWrite s u off bytes cls fwd byX
    (∀ v x, (s'.tile v).scratch.byte x =
      if v = u ∧ off ≤ x ∧ x < off + bytes.length then bytes.getD (x - off) 0 else (s.tile v).scratch.byte x) ∧
    ((s.tile u).scratch.wf = true → (s'.tile u).scratch.wf = true) ∧
    (∀ k, bytes ≠ [] → off / 512 ≤ k → k ≤ (off + bytes.length - 1) / 512 → tGet false (s'.tile u).zflags k = false) ∧
    (∀ v k, (v ≠ u ∨ k < off / 512 ∨ (off + bytes.length - 1) / 512 < k) →
      tGet false (s'.tile v).zflags k = tGet false (s.tile v).zflags k) ∧
    { s' with tiles := s.tiles, stamp := s.stamp, flits := s.flits } = s ∧
    (∀ v, { s'.tile v with scratch := (s.tile v).scratch, zflags := (s.tile v).zflags, poison := (s.tile v).poison,
                           xOld := (s.tile v).xOld, mon := (s.tile v).mon, fired := (s.tile v).fired,
                           batches := (s.tile v).batches } = s.tile v)

/-- WHAT A DEVICE-MEMORY WRITE CHANGES (R291): read under the key of the write, its bytes and no other; no scratchpad, no host memory,
and of the tiles only monitors. A write beyond the 768 GB changes nothing (the model's choice, log 6). -/
def Obligations.DeviceWrite : Prop :=
  ∀ (s : State) (key pa : Nat) (bytes : List Byte), bytes ≠ [] → pa / 128 = (pa + bytes.length - 1) / 128 →
    let s' := devWrite s key pa bytes
    (pa < hbmBytes → ∀ x, devByte s' key x =
      if pa ≤ x ∧ x < pa + bytes.length then bytes.getD (x - pa) 0 else devByte s key x) ∧
    (hbmBytes ≤ pa → s' = s) ∧
    (s.devMem.wf = true → s'.devMem.wf = true) ∧
    { s' with tiles := s.tiles, devMem := s.devMem, devKey := s.devKey, devPoison := s.devPoison } = s ∧
    (∀ v, { s'.tile v with mon := (s.tile v).mon, fired := (s.tile v).fired } = s.tile v)

/-- What a store, or an atomic, of C leaves unchanged whatever follows it: of every memory all but the `n` bytes stored at its home, which hold
the low bytes of the value, and of the device's own memories nothing where the home is a peer's; and in every tile FFLAGS, accumulators, descriptors, TRAPVEC and DRIFT. -/
def storedOnly (s t : State) (h : Home) (n : Nat) (v : Word) : Prop :=
  t.hostMem = s.hostMem ∧
  (∀ u, (t.tile u).fflags = (s.tile u).fflags ∧ (t.tile u).acc = (s.tile u).acc ∧ (t.tile u).g = (s.tile u).g ∧
    (t.tile u).trapVec = (s.tile u).trapVec ∧ (t.tile u).drift = (s.tile u).drift) ∧
  (∀ u off, h = .scratch u off → t.devMem = s.devMem ∧ ∀ w x, (t.tile w).scratch.byte x =
    if w = u ∧ off ≤ x ∧ x < off + n then v.extractLsb' (8 * (x - off)) 8 else (s.tile w).scratch.byte x) ∧
  (∀ va pa key, h = .global va → translateFor s s.here va n false true = .ok (.device pa key) → pa < hbmBytes →
    pa / 128 = (pa + n - 1) / 128 → (∀ w, (t.tile w).scratch = (s.tile w).scratch) ∧ ∀ x, devByte t key x =
      if pa ≤ x ∧ x < pa + n then v.extractLsb' (8 * (x - pa)) 8 else devByte s key x) ∧
  (∀ va id pa vb posted, h = .global va → translateFor s s.here va n false true = .ok (.peer id pa vb posted) → sameMemory s t)

/-- THE FRAME OF A STORE (R168-R171): to a scratchpad or to device memory, with AR or without; the bytes stored are those of `st`'s own address
function, and no register of C changes. -/
def Parts.StoreFrame : Prop :=
  ∀ (d a : BitVec 5) (oc : BitVec 4) (ar : BitVec 1) (scope : BitVec 3) (size : BitVec 2) (disp : BitVec 4) (s s1 t : State) (h : Home),
    inFile s [a, d] → accessOk s (eaOf s a size disp) (2 ^ size.toNat) false true h → afterRelease s ar scope s1 →
    (∀ u off, h = .scratch u off → (s.tile u).pubsBad = false) →
    exec (.st d a oc ar scope size disp) s = .next t →
    storedOnly s t h (2 ^ size.toNat) (xr s d) ∧ ∀ v, (t.tile v).x = (s.tile v).x

/-- What an instruction of C that writes rd leaves unchanged, whatever follows it: every other register, the registers of other tiles, FFLAGS,
accumulators, descriptors, TRAPVEC and DRIFT. -/
def destOnly (s t : State) (d : BitVec 5) : Prop :=
  (∀ k, k ≠ d.toNat → (t.tile s.here).xreg k = (s.tile s.here).xreg k) ∧ (∀ u, u ≠ s.here → (t.tile u).x = (s.tile u).x) ∧
  ∀ u, (t.tile u).fflags = (s.tile u).fflags ∧ (t.tile u).acc = (s.tile u).acc ∧ (t.tile u).g = (s.tile u).g ∧
    (t.tile u).trapVec = (s.tile u).trapVec ∧ (t.tile u).drift = (s.tile u).drift

/-- THE FRAME OF ARITHMETIC (R165-R167): of every instruction of these rules, selection, counts, extensions and immediates among them; no memory
changes, and no register but rd. -/
def Parts.ArithmeticFrame : Prop :=
  ∀ (d a b : BitVec 5) (imm : BitVec 14) (high : BitVec 19) (sh : BitVec 6) (by3 : BitVec 3) (s t : State),
    ∀ f ∈ regForms d a b imm high sh by3, inFile s f.2.1 → isLink d = false → exec f.1 s = .next t →
      sameMemory s t ∧ destOnly s t d

/-- The new values of R319 for the atomics with one operand: from the operand width in bits, the old value and the operand. -/
def atomics : List ((BitVec 5 → BitVec 5 → BitVec 4 → BitVec 1 → BitVec 3 → BitVec 1 → Instr) × (Nat → Nat → Nat → Nat)) :=
  [(.amoadd, fun _ m v => m + v),
   (.amomin, fun w m v => if (BitVec.ofNat w m).toInt < (BitVec.ofNat w v).toInt then m else v),
   (.amomax, fun w m v => if (BitVec.ofNat w m).toInt < (BitVec.ofNat w v).toInt then v else m),
   (.aminx, fun _ m v => if m < v then m else v), (.amaxx, fun _ m v => if m < v then v else m),
   (.amoand, fun _ m v => m &&& v), (.amoor, fun _ m v => m ||| v), (.amoxor, fun _ m v => m ^^^ v),
   (.amoswp, fun _ _ v => v)]

/-- ATOMICS OF C (R310, R318, R319): the old value, sign-extended, goes to rd, and the new value to the home, a scratchpad or device
memory, in one indivisible step; `amocas` writes the second register of its pair if the old value equals the operand, and
`amotas` writes 1 and ignores its operand. With AR the release comes first, and the atomic waits for it (R305). -/
def Obligations.Atomics : Prop :=
  ∀ (d a : BitVec 5) (oc : BitVec 4) (ar : BitVec 1) (scope : BitVec 3) (dbl : BitVec 1) (s s1 : State) (h : Home),
    let n := if dbl = 1 then 8 else 4
    let v := (xr s d).toNat % 2 ^ (8 * n)
    let pair := ((s.tile s.here).xreg (d.toNat + 1)).toNat % 2 ^ (8 * n)
    let old (m : Nat) : Word := BitVec.ofInt 64 (BitVec.ofNat (8 * n) m).toInt
    inFile s [a] → isLink d = false → accessOk s (xr s a) n true true h →
    (afterRelease s ar scope s1 →
      (∀ u off, h = .scratch u off → poisoned (s.tile u).poison off n 64 = false → (s.tile u).pubsBad = false →
        let m := (s.tile u).scratch.readNat off n
        let result (new : Nat) : Out := retired s ((scratchWrite s1 u off (natBytes n new) oc true false).onTile s.here
          (·.setX d.toNat (old m)))
        (inFile s [d] → ∀ p ∈ atomics, exec (p.1 d a oc ar scope dbl) s = result (p.2 (8 * n) m v)) ∧
        (inFile s [d, d + 1] → d.toNat % 2 = 0 → d.toNat ≤ 26 → exec (.amocas d a oc ar scope dbl) s =
          result (if m = v then pair else m)) ∧
        exec (.amotas d a oc ar scope dbl) s = result 1) ∧
      (∀ va r bs, h = .global va → translateFor s s.here va n true true = .ok r → routeRead s r n = .ok bs →
        let m := bytesNat bs
        let s2 := (s1.viaPort s.here h n false oc).viaPort s.here h n true oc
        let result (new : Nat) : Out := retired s ((routeWrite s2 ((s.tile s.here).owner.getD 0) (.engine s.here .C 0) oc r
          (natBytes n new)).onTile s.here (·.setX d.toNat (old m)))
        (inFile s [d] → ∀ p ∈ atomics, exec (p.1 d a oc ar scope dbl) s = result (p.2 (8 * n) m v)) ∧
        (inFile s [d, d + 1] → d.toNat % 2 = 0 → d.toNat ≤ 26 → exec (.amocas d a oc ar scope dbl) s =
          result (if m = v then pair else m)) ∧
        exec (.amotas d a oc ar scope dbl) s = result 1)) ∧
    (ar = 1 → release s s.here scope.toNat = .error (.wait s1) →
      (inFile s [d] → ∀ p ∈ atomics, exec (p.1 d a oc ar scope dbl) s = waits s s1) ∧
      exec (.amotas d a oc ar scope dbl) s = waits s s1)

/-- THE FRAME OF ATOMICS (R310, R318, R319): of every form that writes a new value, with AR or without, to a scratchpad or to device memory: the
operand's bytes at its address take the new value, and no register but rd changes. -/
def Parts.AtomicFrame : Prop :=
  ∀ (d a : BitVec 5) (oc : BitVec 4) (ar : BitVec 1) (scope : BitVec 3) (dbl : BitVec 1) (s s1 t : State) (h : Home),
    let n := if dbl = 1 then 8 else 4
    inFile s [a] → isLink d = false → accessOk s (xr s a) n true true h → afterRelease s ar scope s1 →
    (∀ u off, h = .scratch u off → (s.tile u).pubsBad = false ∧ poisoned (s.tile u).poison off n 64 = false) →
    (∀ va, h = .global va → ∃ pa key, translateFor s s.here va n true true = .ok (.device pa key) ∧
      translateFor s s.here va n false true = .ok (.device pa key) ∧ poisoned s.devPoison pa n 64 = false) →
    (inFile s [d] → ∀ p ∈ atomics, exec (p.1 d a oc ar scope dbl) s = .next t →
      ∃ m, storedOnly s t h n (BitVec.ofNat 64 (p.2 (8 * n) m ((xr s d).toNat % 2 ^ (8 * n)))) ∧ destOnly s t d) ∧
    (inFile s [d, d + 1] → d.toNat % 2 = 0 → d.toNat ≤ 26 → exec (.amocas d a oc ar scope dbl) s = .next t →
      ∃ v, storedOnly s t h n v ∧ destOnly s t d) ∧
    (exec (.amotas d a oc ar scope dbl) s = .next t → storedOnly s t h n 1 ∧ destOnly s t d)

/-- The address runs beyond what its space holds (R66, R67, R169). -/
def leavesSpace (ea : Word) (n : Nat) : Prop :=
  (ea.extractLsb' 60 4 = 0#4 ∧ 2 ^ 60 < ea.toNat + n) ∨ (ea.extractLsb' 60 4 = 10#4 ∧ 2 ^ 14 < ea.toNat % 2 ^ 21 + n) ∨
  ((ea.extractLsb' 60 4 = 8#4 ∨ ea.extractLsb' 60 4 = 9#4) ∧ 2 ^ 21 < ea.toNat % 2 ^ 21 + n)

/-- The access touches the private band, or a tile outside the context (R64, R65, R169). -/
def forbidden (s : State) (t : Nat) (ea : Word) (n : Nat) : Prop :=
  ((ea.extractLsb' 60 4 = 8#4 ∨ ea.extractLsb' 60 4 = 9#4) ∧ 0x1F0000 < ea.toNat % 2 ^ 21 + n) ∨
  (ea.extractLsb' 60 4 = 9#4 ∧ s.tileAtPos t (ea.extractLsb' 52 4).toNat (ea.extractLsb' 48 4).toNat = none)

/-- THE CHECKS OF AN ADDRESS, in order (R61-R67, R169): ASPACE, SPOWN, ALIGN, RANGE, PERM; and the home of an address that passes them. -/
def Parts.AddressChecks : Prop :=
  ∀ (s : State) (t n al : Nat) (ea : Word),
    let sp := ea.extractLsb' 60 4
    let aspace := ¬ canonicalAddr ea ∨ sp = 11#4
    let spown := sp = 8#4 ∧ ea.extractLsb' 49 11 ≠ (s.tile t).tileId
    let align := ea.toNat % al ≠ 0
    (aspace → scalarHome s t .C ea n al = .error .ASPACE) ∧
    (¬ aspace → spown → scalarHome s t .C ea n al = .error .SPOWN) ∧
    (¬ aspace → ¬ spown → align → scalarHome s t .C ea n al = .error .ALIGN) ∧
    (¬ aspace → ¬ spown → ¬ align → leavesSpace ea n → scalarHome s t .C ea n al = .error .RANGE) ∧
    (¬ aspace → ¬ spown → ¬ align → ¬ leavesSpace ea n → forbidden s t ea n → scalarHome s t .C ea n al = .error .PERM) ∧
    (¬ aspace → ¬ spown → ¬ align → ¬ leavesSpace ea n → ¬ forbidden s t ea n →
      (sp = 0#4 → scalarHome s t .C ea n al = .ok (.global ea.toNat)) ∧
      (sp = 8#4 → scalarHome s t .C ea n al = .ok (.scratch t (ea.toNat % 2 ^ 21))) ∧
      (sp = 10#4 → scalarHome s t .C ea n al = .ok (.scratch t (0x1F0000 + ea.toNat % 2 ^ 21))) ∧
      (sp = 9#4 → ∃ u, s.tileAtPos t (ea.extractLsb' 52 4).toNat (ea.extractLsb' 48 4).toNat = some u ∧
        scalarHome s t .C ea n al = .ok (.scratch u (ea.toNat % 2 ^ 21))))

/-- WHEN AN ACCESS OF C TRAPS (R168-R171, R367): a failing check of R169 raises its cause at the instruction, and nothing of the
instruction is done. -/
def Parts.AccessTraps : Prop :=
  ∀ (d a : BitVec 5) (oc : BitVec 4) (ar : BitVec 1) (scope : BitVec 3) (size : BitVec 2) (disp : BitVec 4) (s : State) (c : Cause),
    inFile s [a, d] → scalarHome s s.here .C (eaOf s a size disp) (2 ^ size.toNat) (2 ^ size.toNat) = .error c →
    exec (.ld d a oc ar scope size disp) s = traps s c 0 ∧ exec (.ldz d a oc ar scope size disp) s = traps s c 0 ∧
    exec (.st d a oc ar scope size disp) s = traps s c 0

/-- WHEN AN ACCESS OF C TRAPS, and which addresses its checks refuse, in which order (R61-R67, R168-R171, R367). -/
def Obligations.AccessTraps : Prop := Parts.AccessTraps ∧ Parts.AddressChecks

/-- RECORDS IN MEMORY (R179): `tlld` loads 96 bytes, bit 0 at the lowest, after its acquire; `tlst` stores them, after its release; on
the own scratchpad, and in twelve doublewords of device memory. -/
def Obligations.RecordMoves : Prop :=
  ∀ (g : BitVec 4) (a : BitVec 5) (oc : BitVec 4) (ar : BitVec 1) (scope : BitVec 3) (s : State) (h : Home),
    let r := tGet 0 (s.tile s.here).g g.toNat
    let s0 := if ar = 1 then acquire s s.here else s
    inFile s [a] → scalarHome s s.here .C (xr s a) 96 8 = .ok h →
    (∀ rd wr, watchOf (s.tile s.here) (xr s a) 96 rd wr = none) → checkLapsed s s.here h 96 = .ok () →
    let sound := (s.tile s.here).badAt (opmG g.toNat) 96 = false
    (∀ off, h = .scratch s.here off →
      (poisoned (s.tile s.here).poison off 96 64 = false → exec (.tlld g a oc ar scope) s =
        retired s (s0.onTile s.here (·.setRec g (BitVec.ofNat 768 ((s.tile s.here).scratch.readNat off 96))))) ∧
      (∀ s1, sound → (s.tile s.here).pubsBad = false → afterRelease s ar scope s1 →
        ∃ t, exec (.tlst g a oc ar scope) s = retired s t ∧ t.devMem = s.devMem ∧
          ∀ v x, (t.tile v).scratch.byte x = if v = s.here ∧ off ≤ x ∧ x < off + 96
            then (r.extractLsb' (8 * (x - off)) 8) else (s.tile v).scratch.byte x)) ∧
    (∀ va (f : Nat → Nat), h = .global va → (∀ k, k < 12 → cRead s0 s.here (.global (va + 8 * k)) 8 = .ok (f k)) →
      exec (.tlld g a oc ar scope) s = retired s ((viaDoubles s0 s.here h oc 12).onTile s.here
        (·.setRec g (BitVec.ofNat 768 ((List.range 12).map fun k => f k * 2 ^ (64 * k)).sum)))) ∧
    (∀ va s1 (w : Nat → State), sound → h = .global va → afterRelease s ar scope s1 → w 0 = s1 →
      (∀ k, k < 12 → cWrite (w k) s.here (.global (va + 8 * k)) 8 (r.toNat / 2 ^ (64 * k) % 2 ^ 64) oc = .ok (w (k + 1))) →
      exec (.tlst g a oc ar scope) s = retired s (w 12)) ∧
    (∀ s1, sound → ar = 1 → release s s.here scope.toNat = .error (.wait s1) → exec (.tlst g a oc ar scope) s = waits s s1)

/-- LOADS of C: what a load does with what its home holds, and what a home holds (R168-R171, R289, R311). -/
def Obligations.Loads : Prop := Parts.Loads ∧ Parts.HomeReads

/-- LINK OPERANDS of C (R146, R163, R169, R328): of arithmetic, selection, immediates and bit fields, and of loads and stores. -/
def Obligations.LinkOperands : Prop := Parts.RegisterLinks ∧ Parts.ReadInOrder ∧ Parts.MemoryLinks

/-- THE FRAMES of stores, of atomics and of arithmetic: what they leave unchanged (R165-R171, R310, R318, R319). -/
def Obligations.Frames : Prop := Parts.StoreFrame ∧ Parts.AtomicFrame ∧ Parts.ArithmeticFrame

/-! ### C: synchronisation -/

/-- FENCES (R307, R315, R321, R342, R357): the batches of the tile leave, and those of its context at a scope above T; C goes on once no update
of the fence's classes that stood then is unsettled within the scope and every posted store that C had made in them has been
acknowledged, and waits until then, for no later one. Every other access is performed when it is made (log 7). -/
def Obligations.Fences : Prop :=
  ∀ (scope : BitVec 3) (mask : BitVec 16) (s : State),
    let s1 := closeBatches s s.here
    let s2 := closeContext s1 s.here
    let done (s : State) (n k : Nat) := settledWithin s s.here scope.toNat mask n = true ∧ postedWithin s s.here scope.toNat [.C] mask k = true
    let marked (s : State) (n k : Nat) : State := s.onTile s.here fun tl => { tl with relSince := some (n, k) }
    (scope = 0 → exec (.fence scope mask) s = retired s s1) ∧
    (scope ≠ 0 → (s.tile s.here).relSince = none →
      (done s2 s2.stamp s2.nextRequest → exec (.fence scope mask) s = retired s s2) ∧
      (¬ done s2 s2.stamp s2.nextRequest → exec (.fence scope mask) s = waits s (marked s2 s2.stamp s2.nextRequest))) ∧
    (∀ n k, scope ≠ 0 → (s.tile s.here).relSince = some (n, k) →
      (done s n k → exec (.fence scope mask) s = retired s s) ∧
      (¬ done s n k → exec (.fence scope mask) s = waits s (marked s n k))) ∧
    (∀ n, settledWithin s s.here scope.toNat mask n = true ↔ ∀ f ∈ s.flits, f.flit.stamp < n → mask.getLsbD f.flit.cls.toNat = true →
      s.inScope s.here 2 f.pubTile = true → s.inScope s.here scope.toNat f.subTile = false) ∧
    (∀ k, scope.toNat < 4 → postedWithin s s.here scope.toNat [.C] mask k = true) ∧
    (∀ k, 4 ≤ scope.toNat → (postedWithin s s.here scope.toNat [.C] mask k = true ↔ ∀ p ∈ s.posted, p.number < k →
      ∀ id, p.author = .engine s.here .C id → mask.getLsbD p.cls.toNat = false))

/-- BARRIERS (R323-R327): C arrives at any scope and waits, once its release is made, and once L, X and S have drained where the word
asks for it; when its instance has completed, C passes; a reserved selector, and a phase's barrier with another selector, are
ILLOP, and a group that leaves the rectangle
RANGE. That C passes an instance that is done in any phase is the model's reading (log 19). -/
def Parts.BarrierWords : Prop :=
  ∀ (scope : BitVec 3) (drain : BitVec 1) (g : BitVec 6) (s : State),
    let tl := s.tile s.here
    let a := tl.arrival g
    let engines : List Engine := if drain = 1 then [.C, .L, .X, .S] else [.C]
    (gselReserved g = false → s.groupFits s.here g = true →
      (a.waiting = false → a.done = true → exec (.bar scope drain g) s = retired s (passBarrier s s.here g) ∧
        exec (.bart scope g) s = retired s (passBarrier s s.here g)) ∧
      (a.waiting = false → a.done = false → (tl.phase = none ∨ tl.phase = some g ∧ tl.wiresEmpty = true) →
        (drain = 0 ∨ tl.drainedToC = true) →
        (∀ s1, releaseC s s.here engines allClasses scope.toNat = .ok s1 → exec (.bar scope drain g) s =
          waits s (arrive (if drain = 1 then showX s1 s.here scope.toNat else s1) s.here g scope false)) ∧
        (∀ s1, releaseC s s.here engines allClasses scope.toNat = .error (.wait s1) →
          exec (.bar scope drain g) s = waits s s1)) ∧
      (a.waiting = false → a.done = false → tl.phase = none → tl.drainedToC = true → tl.noneInFlight = true →
        (∀ s1, releaseC s s.here [.C, .L, .X, .S] allClasses scope.toNat = .ok s1 →
          exec (.bart scope g) s = waits s (arrive (showX s1 s.here scope.toNat) s.here g scope true)) ∧
        (∀ s1, releaseC s s.here [.C, .L, .X, .S] allClasses scope.toNat = .error (.wait s1) →
          exec (.bart scope g) s = waits s s1)) ∧
      (a.waiting = false → a.done = false → (tl.phase = none ∨ tl.phase = some g) →
        (tl.drainedToC = false → exec (.bar scope 1 g) s = waits s s) ∧
        (tl.phase = some g → tl.wiresEmpty = false → exec (.bar scope drain g) s = waits s s)) ∧
      (a.waiting = false → a.done = false → tl.phase = none → (tl.drainedToC = false ∨ tl.noneInFlight = false) →
        exec (.bart scope g) s = waits s s) ∧
      (a.waiting = true → (tl.phase = none ∨ tl.phase = some g) →
        exec (.bar scope drain g) s = waits s (s.onTile s.here fun tl => { tl with cwait := some (.barrier g) }))) ∧
    (gselReserved g = true → exec (.bar scope drain g) s = traps s .ILLOP 0 ∧ exec (.bart scope g) s = traps s .ILLOP 0) ∧
    (gselReserved g = false → s.groupFits s.here g = false → (a.done = false ∨ a.waiting = true) →
      ((tl.phase = none ∨ tl.phase = some g) → exec (.bar scope drain g) s = traps s .RANGE 0) ∧
      (tl.phase = none → exec (.bart scope g) s = traps s .RANGE 0)) ∧
    (∀ h, tl.phase = some h → gselReserved g = false → (a.done = false ∨ a.waiting = true) → (h ≠ g → exec (.bar scope drain g) s = traps s .ILLOP 0) ∧
      exec (.bart scope g) s = traps s .ILLOP 0)

/-- AN INSTANCE COMPLETES (R324, R327, R331): in every member at once, when all wait at it and the updates that R359 counts are
settled. A phase opens in every member if all arrived by `bart`, and closes where one was open, with what its links still
held dropped: the words of its outputs with those of its inputs by the model's reading (log 19). No other tile changes. -/
def Parts.BarrierCompletes : Prop :=
  ∀ (t : Nat) (g : BitVec 6) (s : State), gselReserved g = false → s.groupFits t g = true → barrierReady s t g = true →
    (s.members t g).Nodup → ∃ s', exec (.barrierComplete t g) s = .next s' ∧
    (∀ u, u ∉ s.members t g → s'.tile u = s.tile u) ∧ sameMemory s s' ∧
    ∀ u ∈ s.members t g,
      ((s'.tile u).arrival g).waiting = false ∧ ((s'.tile u).arrival g).done = true ∧
      ((s'.tile u).arrival g).count = ((s.tile u).arrival g).count ∧
      (s.tile u).x = (s'.tile u).x ∧ (s.tile u).cntC = (s'.tile u).cntC ∧
      ((s.tile u).phase ≠ none → (s'.tile u).phase = none ∧ (s'.tile u).linkIn = [] ∧ (s'.tile u).linkOut = [] ∧
        (s'.tile u).phDrop = ((s.tile u).phDrop || wordsLeft s u)) ∧
      ((s.tile u).phase = none → (s'.tile u).phase =
        if (s.members t g).all (fun v => ((s.tile v).arrival g).bart) then some g else none)

/-- TRANSFER PHASES (R188, R328-R330): `mux` sets the source of each output; `lpoll` reads which inputs hold a word; `tx` sends
doublewords of the own scratchpad, and stores received ones; outside a phase each raises LINKPH. -/
def Obligations.TransferPhases : Prop :=
  ∀ (s : State) (d a b : BitVec 5) (w so e n : BitVec 3) (dir dir' : BitVec 2) (g : BitVec 6),
    let tl := s.tile s.here
    (tl.phase = none → exec (.mux w so e n) s = traps s .LINKPH 0 ∧ exec (.lpoll d) s = traps s .LINKPH 0 ∧
      (tl.cwait = none → exec (.tx d a b 1 0 dir dir') s = traps s .LINKPH 0)) ∧
    (tl.phase = some g →
      ((n = 0 ∨ (s.phaseNeighbour s.here g 0).isSome) → (e = 0 ∨ (s.phaseNeighbour s.here g 1).isSome) →
        (so = 0 ∨ (s.phaseNeighbour s.here g 2).isSome) → (w = 0 ∨ (s.phaseNeighbour s.here g 3).isSome) →
        ∃ s1, exec (.mux w so e n) s = retired s (forwardInputs s1 s.here) ∧ (s1.tile s.here).linkIn = tl.linkIn ∧
          (s1.tile s.here).source 0 = n.toNat ∧ (s1.tile s.here).source 1 = e.toNat ∧
          (s1.tile s.here).source 2 = so.toNat ∧ (s1.tile s.here).source 3 = w.toNat) ∧
      (isLink d = false → ∃ v : Word, exec (.lpoll d) s = retired s (put s d v) ∧
        ∀ k, v.getLsbD k = (decide (k < 4) && !(tGet [] tl.linkIn k).isEmpty)) ∧
      (inFile s [a, b, d] → tl.cwait = none →
        (4096 < (xr s b).toNat → exec (.tx d a b 1 0 dir dir') s = traps s .RANGE 0) ∧
        (∀ off, (xr s b).toNat ≤ 4096 → txHome s s.here (xr s a) (8 * (xr s b).toNat) = .ok off →
          (s.phaseNeighbour s.here g dir.toNat).isSome → tl.source dir.toNat = 0 →
          poisoned tl.poison off (8 * (xr s b).toNat) 64 = false → lapsedAt tl off (8 * (xr s b).toNat) = none →
          (xr s b = 0 ∨ tl.subsBad = false) → s.linkFill s.here dir.toNat + (xr s b).toNat ≤ 8 →
          ∃ t, exec (.tx d a b 1 0 dir dir') s = retired s t ∧ sameMemory s t ∧
            tGet [] (t.tile s.here).linkOut dir.toNat =
              tGet [] tl.linkOut dir.toNat ++ txWords tl.scratch off (xr s b).toNat) ∧
        (∀ off ws, (xr s b).toNat ≤ 4096 → txHome s s.here (xr s d) (8 * (xr s b).toNat) = .ok off →
          (s.phaseNeighbour s.here g dir.toNat).isSome → tl.forwarded dir.toNat = false →
          lapsedAt tl off (8 * (xr s b).toNat) = none → (xr s b = 0 ∨ tl.subsBad = false ∧ tl.pubsBad = false) →
          tGet [] tl.linkIn dir.toNat = ws → (xr s b).toNat ≤ ws.length →
          ∃ t, exec (.tx d a b 0 1 dir' dir) s = retired s t ∧
            tGet [] (t.tile s.here).linkIn dir.toNat = ws.drop (xr s b).toNat ∧
            ∀ u x, (t.tile u).scratch.byte x = if u = s.here ∧ off ≤ x ∧ x < off + 8 * (xr s b).toNat
              then (ws.getD ((x - off) / 8) 0).extractLsb' (8 * ((x - off) % 8)) 8 else (s.tile u).scratch.byte x)))

/-- WAITING ON AN ADDRESS (R333): `waitw` completes with the value it reads if that differs from the expected one, or if no entry is
free, or if one has fired already; otherwise C sleeps with the line armed, in the entry that watches it already if one does. -/
def Parts.Waitw : Prop :=
  ∀ (d a : BitVec 5) (oc : BitVec 4) (ar : BitVec 1) (scope : BitVec 3) (dbl : BitVec 1) (s : State) (h : Home) (v : Nat),
    let tl := s.tile s.here
    let n := if dbl = 1 then 8 else 4
    let s0 := s.viaPort s.here h n false oc
    let s1 := if ar = 1 then acquire s0 s.here else s0
    let out : Word := BitVec.ofInt 64 (BitVec.ofNat (8 * n) v).toInt
    let line := (lineOf s h).1
    let wide := (lineOf s h).2
    inFile s [a, d] → tl.cwait = none → accessOk s (xr s a) n true false h → cRead s s.here h n = .ok v →
    (v ≠ (xr s d).toNat % 2 ^ (8 * n) → exec (.waitw d a oc ar scope dbl) s = retired s (put s1 d out)) ∧
    (v = (xr s d).toNat % 2 ^ (8 * n) → tl.badAt (opmMon 0) (16 * monBytes) = false →
      (tl.watcher line wide = none → tl.freeMon = none →
        exec (.waitw d a oc ar scope dbl) s = retired s (put (s1.onTile s.here fun tl => { tl with monFull := true }) d out)) ∧
      (∀ k, tl.watcher line wide = none → tl.freeMon = some k →
        (tl.fired ≠ 0 → exec (.waitw d a oc ar scope dbl) s = retired s (put (s1.onTile s.here (·.arm k line wide)) d out)) ∧
        (tl.fired = 0 → exec (.waitw d a oc ar scope dbl) s =
          waits s (s.onTile s.here fun tl => { tl.arm k line wide with cwait := some .asleep }))) ∧
      (∀ k, tl.watcher line wide = some k →
        (tl.fired ≠ 0 → exec (.waitw d a oc ar scope dbl) s = retired s (put s1 d out)) ∧
        (tl.fired = 0 → exec (.waitw d a oc ar scope dbl) s =
          waits s (s.onTile s.here fun tl => { tl with cwait := some .asleep })))) ∧
    (v = (xr s d).toNat % 2 ^ (8 * n) → tl.badAt (opmMon 0) (16 * monBytes) = true →
      exec (.waitw d a oc ar scope dbl) s = traps s .MEMERR 0)

/-- ARMING (R332, R333): `waitw` with ARM gives the entry that watches the line, a free one that it arms, or all ones with FULL set,
whatever stands in memory; it makes the checks of a read, and reads nothing. -/
def Parts.Arming : Prop :=
  ∀ (d a : BitVec 5) (dbl : BitVec 1) (s : State),
    let tl := s.tile s.here
    let n := if dbl = 1 then 8 else 4
    inFile s [a] → isLink d = false →
    (∀ c, scalarHome s s.here .C (xr s a) n n = .error c → exec (.waitwArm d a dbl) s = traps s c 0) ∧
    (∀ h, scalarHome s s.here .C (xr s a) n n = .ok h →
      (∀ va c, h = .global va → translateFor s s.here va n true false = .error (.refuse c) →
        exec (.waitwArm d a dbl) s = traps s c 0) ∧
      (((∃ u off, h = .scratch u off) ∨ ∃ va r, h = .global va ∧ translateFor s s.here va n true false = .ok r) →
        tl.badAt (opmMon 0) (16 * monBytes) = false →
        let line := (lineOf s h).1
        let wide := (lineOf s h).2
        (∀ k, tl.watcher line wide = some k → exec (.waitwArm d a dbl) s = retired s (put s d (BitVec.ofNat 64 k))) ∧
        (tl.watcher line wide = none → tl.freeMon = none → exec (.waitwArm d a dbl) s =
          retired s (put (s.onTile s.here fun tl => { tl with monFull := true }) d (BitVec.allOnes 64))) ∧
        (∀ k, tl.watcher line wide = none → tl.freeMon = some k → exec (.waitwArm d a dbl) s =
          retired s (put (s.onTile s.here (·.arm k line wide)) d (BitVec.ofNat 64 k)))))

/-- A SLEEPING `waitw` WAKES once an entry has fired (R333): it reads again and completes with what it reads. -/
def Parts.WakesUp : Prop :=
  ∀ (t : Nat) (d a : BitVec 5) (oc : BitVec 4) (ar : BitVec 1) (scope : BitVec 3) (dbl : BitVec 1) (s0 : State) (h : Home) (v : Nat),
    let s := s0.focused t 0
    let n := if dbl = 1 then 8 else 4
    let sp := s.viaPort t h n false oc
    let s1 := if ar = 1 then acquire sp t else sp
    (s.tile t).cwait = some .asleep → (s.tile t).instrAtC = some (.waitw d a oc ar scope dbl) →
    inFile s [a, d] → accessOk s (xr s a) n true false h → cRead s t h n = .ok v →
    ((s.tile t).fired ≠ 0 → exec (.waitwWake t) s0 =
      retired s (put s1 d (BitVec.ofInt 64 (BitVec.ofNat (8 * n) v).toInt))) ∧
    ((s.tile t).fired = 0 → exec (.waitwWake t) s0 = .next s0)

/-- THE STAGE RING (R337, R338, R380): `acqs` takes the payload of a full slot of its role and empties it; `rels`, after its release,
fills an empty slot for its role; a request that finds its slot not ready, or ready for another that waits on it (log 16), waits
at the slot's tile; a slot with an uncorrectable error raises MEMERR. -/
def Parts.SlotRequests : Prop :=
  ∀ (d a b : BitVec 5) (scope : BitVec 3) (s : State) (u : Nat),
    let k := (xr s b).toNat % 8
    let role : BitVec 4 := (xr s b).extractLsb' 8 4
    let sl := tGet Slot.zero (s.tile u).ring k
    let quiet := ∀ q ∈ (s.tile u).slotWaits, q.slot = k → q.tile = s.here ∨ slotReady sl q.acquire q.role = false
    let sound := (s.tile u).badAt (opmSlot k) slotBytes = false
    inFile s [a, b] → (s.tile s.here).cwait = none → (xr s a).toNat < 2 ^ 11 → s.tileOfRel s.here (xr s a).toNat = some u →
    (isLink d = false → sound → sl.full = true → sl.owner = role → quiet → exec (.acqs d a b scope) s =
      retired s (put (acquire (s.onTile u fun tl =>
        { tl with ring := tSet Slot.zero tl.ring k { sl with full := false } }) s.here) d sl.data)) ∧
    (isLink d = false → sound → (sl.full = false ∨ sl.owner ≠ role ∨ ¬ quiet) → exec (.acqs d a b scope) s =
      waits s (waitSlot s s.here u { tile := s.here, slot := k, acquire := true, role := role, data := 0 })) ∧
    (isLink d = false → ¬ sound → exec (.acqs d a b scope) s = traps s .MEMERR 0) ∧
    (inFile s [d] → ∀ s0, release s s.here scope.toNat = .ok s0 →
      (sound → sl.full = false → quiet → exec (.rels d a b scope) s = retired s (s0.onTile u fun tl =>
        { tl with ring := tSet Slot.zero tl.ring k { data := xr s d, full := true, owner := role } })) ∧
      (sound → (sl.full = true ∨ ¬ quiet) → exec (.rels d a b scope) s =
        waits s (waitSlot s0 s.here u { tile := s.here, slot := k, acquire := false, role := role, data := xr s d })) ∧
      (¬ sound → exec (.rels d a b scope) s = traps s .MEMERR 0)) ∧
    (inFile s [d] → ∀ s0, release s s.here scope.toNat = .error (.wait s0) → exec (.rels d a b scope) s = waits s s0)

/-- A WAITING SLOT REQUEST IS SERVED (R338): the oldest that the slot is ready for (log 16); its instruction completes with the
payload. -/
def Parts.SlotServed : Prop :=
  ∀ (u k : Nat) (s : State) (r : SlotRequest) (d a b : BitVec 5) (scope : BitVec 3) (v w : Nat) (role : BitVec 4),
    let sl := tGet Slot.zero (s.tile u).ring k
    let cleared (x : Slot) := s.setTile u { s.tile u with ring := tSet .zero (s.tile u).ring k x,
                                                          slotWaits := (s.tile u).slotWaits.erase r }
    (s.tile u).slotWaits.find? (fun q => q.slot = k && slotReady sl q.acquire q.role) = some r →
    (s.tile u).badAt (opmSlot k) slotBytes = false →
    (r.acquire = true → sl.full = true → sl.owner = r.role → isLink d = false →
      let s1 := cleared { sl with full := false }
      (s1.tile r.tile).instrAtC = some (.acqs d a b scope) → acqsSource a b r.tile s1 = .ok (v, w, role, s1) →
      exec (.slotWaitServed u k) s = .next (completeC (acquire (s1.onTile r.tile (·.setX d.toNat sl.data)) r.tile) r.tile)) ∧
    (r.acquire = false → sl.full = false →
      let s1 := cleared { data := r.data, full := true, owner := r.role }
      (s1.tile r.tile).instrAtC = some (.rels d a b scope) → (∃ x, relsSource d a b r.tile s1 = .ok (v, w, role, x, s1)) →
      exec (.slotWaitServed u k) s = .next (completeC s1 r.tile))

/-- `renq` (R339): after its release, the words of its block are pushed towards the queue that it names, and C waits; the push enters
that queue whole, once there is room, and the `renq` completes. A header with reserved bits is RSVD, and one of no word RANGE. -/
def Obligations.Renq : Prop :=
  (∀ (a b : BitVec 5) (scope : BitVec 3) (eng : BitVec 2) (s : State) (u off : Nat),
    let hdr := (s.tile s.here).scratch.readNat off 4
    inFile s [a, b] → (s.tile s.here).cwait = none → (xr s a).toNat < 2 ^ 11 →
    s.tileOfRel s.here (xr s a).toNat = some u → ∀ s0, release s s.here scope.toNat = .ok s0 →
    (spaceOf (xr s b) = 8 ∨ spaceOf (xr s b) = 10) → scalarHome s s.here .C (xr s b) 64 64 = .ok (.scratch s.here off) →
    poisoned (s.tile s.here).poison off 64 64 = false → lapsedAt (s.tile s.here) off 64 = none →
    (s.tile s.here).subsBad = false →
    (hdr / 16 ≠ 0 → exec (.renq a b scope eng) s = traps s .RSVD 0) ∧
    (hdr = 0 → exec (.renq a b scope eng) s = traps s .RANGE 0) ∧
    (hdr / 16 = 0 → hdr ≠ 0 → exec (.renq a b scope eng) s = waits s
      ((s0.onTile u fun tl => tl.setPushes (engOfCode eng) (tl.pushes (engOfCode eng) ++
        [{ tile := s.here, words := blockWords (s.tile s.here).scratch off hdr }])).onTile s.here fun tl =>
          { tl with cwait := some (.renq u (engOfCode eng)) }))) ∧
  (∀ (t : Nat) (e : Engine) (s : State) (p : Push) (rest : List Push),
    e ≠ .C → (s.tile t).pushes e = p :: rest → (s.tile t).lull = .none → ((s.tile t).queue e).length + p.words.length ≤ 32 →
    ∃ s1, exec (.renqAccept t e) s = .next (completeC (renqTaken s1 p.tile) p.tile) ∧ (s1.tile t).pushes e = rest ∧
      ((s1.tile t).queue e).map (·.word) = ((s.tile t).queue e).map (·.word) ++ p.words ∧
      ((s1.tile t).queue e).take ((s.tile t).queue e).length = (s.tile t).queue e ∧ sameMemory s s1 ∧
      ∀ v, v ≠ t → s1.tile v = s.tile v)

/-- SUBSCRIPTIONS (R344-R349): `sub` installs the two entries and gives the subscriber's index, or all ones if that table is full, or
-2 if the publisher's is; with a spill ring it first asks for one, and gives -3 if the context can have no more; `unsub` removes
both entries with every update under way; `pflush` waits for the tile's updates; `subq` reads an entry. -/
def Parts.SubscriptionWords : Prop :=
  ∀ (d a b : BitVec 5) (s : State),
    let tl := s.tile s.here
    (inFile s [a, b] → isLink d = false → ∀ g, subChecks s s.here (xr s a) (xr s b) = .ok g →
      tl.badAt (opmSub 0) (32 * subBytes) = false → (s.tile g.pub).badAt (opmPub 0) (32 * pubBytes) = false →
      let si := lowestFree fun k => (tGet SubEntry.zero tl.subs k).state ≠ 0
      let pi := lowestFree fun k => (tGet PubEntry.zero (s.tile g.pub).pubs k).valid
      (∀ i e, si = some i → pi = some e →
        (g.spillK = 0 → exec (.subSubscribe d a b) s = retired s (put (installSub s s.here g i e) d (BitVec.ofNat 64 i))) ∧
        (g.spillK ≠ 0 → tl.cwait = none → exec (.subSubscribe d a b) s = waits s
          { s.onTile s.here (fun tl => { tl with cwait := some (.spill g.spillK.toNat none) }) with
            spillAsks := s.spillAsks ++ [s.here] }) ∧
        (∀ n, g.spillK ≠ 0 → tl.cwait = some (.spill n (some true)) →
          exec (.subSubscribe d a b) s = retired s (put (installSub s s.here g i e) d (BitVec.ofNat 64 i))) ∧
        (∀ n, g.spillK ≠ 0 → tl.cwait = some (.spill n (some false)) →
          exec (.subSubscribe d a b) s = retired s (put s d (BitVec.ofInt 64 (-3))))) ∧
      (si = none → exec (.subSubscribe d a b) s = retired s (put s d (BitVec.ofInt 64 (-1)))) ∧
      (∀ i, si = some i → pi = none → exec (.subSubscribe d a b) s = retired s (put s d (BitVec.ofInt 64 (-2))))) ∧
    (inFile s [a, b] → isLink d = false → ∀ c, subChecks s s.here (xr s a) (xr s b) = .error (.trap c 0) →
      exec (.subSubscribe d a b) s = traps s c 0) ∧
    (inFile s [a] → isLink d = false → (xr s a).toNat < 32 → tl.badAt (opmSub (xr s a).toNat) subBytes = false →
      let e := tGet SubEntry.zero tl.subs (xr s a).toNat
      exec (.subq d a) s = retired s (put s d (if e.state = 0 then 0 else BitVec.ofNat 64
        (e.soff.toNat * 2 ^ 32 + e.lines.toNat * 2 ^ 19 + e.pub.toNat * 2 ^ 8 + e.state.toNat)))) ∧
    (inFile s [a] → isLink d = false → 32 ≤ (xr s a).toNat → exec (.subq d a) s = traps s .RANGE 0 ∧
      exec (.unsub a) s = traps s .RANGE 0 ∧ (tl.cwait = none → exec (.resync a) s = traps s .RANGE 0)) ∧
    (inFile s [a] → (xr s a).toNat < 32 → tl.badAt (opmSub (xr s a).toNat) subBytes = false → ∀ u,
      let i := (xr s a).toNat
      let e := tGet SubEntry.zero tl.subs i
      e.state ≠ 0 → s.tileOfRel s.here e.pub.toNat = some u → ∃ t, exec (.unsub a) s = retired s t ∧
        tGet SubEntry.zero (t.tile s.here).subs i = .zero ∧ tGet PubEntry.zero (t.tile u).pubs e.pubIdx.toNat = .zero ∧
        (∀ f ∈ t.flits, ¬ (f.subTile = s.here ∧ f.subIdx = i)) ∧ sameMemory s t ∧ ∀ v, (t.tile v).x = (s.tile v).x) ∧
    (tl.cwait = none → tl.badAt (opmPub 0) (32 * pubBytes) = false →
      let s1 := closeBatches s s.here
      (unsettledBefore s1 s.here s1.stamp = false → exec .pflush s = retired s s1) ∧
      (unsettledBefore s1 s.here s1.stamp = true →
        exec .pflush s = waits s (s1.onTile s.here fun tl => { tl with cwait := some (.flush s1.stamp) })))

/-- `resync` (R348, R364): it discards every update under way, then copies line after line, each with its poison, while the updates
of that line that are under way are discarded; no byte but the line's changes; after the last the subscription is LIVE. -/
def Parts.Resync : Prop :=
  ∀ (a : BitVec 5) (s : State) (u i : Nat),
    let tl := s.tile s.here
    let e := tGet SubEntry.zero tl.subs i
    inFile s [a] →
    ((xr s a).toNat = i → i < 32 → e.state ≠ 0 → tl.badAt (opmSub i) subBytes = false → tl.cwait = none →
      ∃ t, exec (.resync a) s = waits s t ∧ (t.tile s.here).cwait = some (.resync i 0) ∧
        (∀ f ∈ t.flits, ¬ (f.subTile = s.here ∧ f.subIdx = i)) ∧
        (tGet SubEntry.zero (t.tile s.here).subs i).spillCnt = 0 ∧ sameMemory s t) ∧
    (∀ k, tl.cwait = some (.resync i k) → k < e.lines.toNat → s.tileOfRel s.here e.pub.toNat = some u →
      ∃ t, exec (.resync a) s = waits s t ∧ (t.tile s.here).cwait = some (.resync i (k + 1)) ∧
        (∀ f ∈ t.flits, ¬ (f.subTile = s.here ∧ f.subIdx = i ∧ f.flit.line = k)) ∧
        t.devMem = s.devMem ∧ t.hostMem = s.hostMem ∧
        (e.soff.toNat % 64 = 0 → poisoned (t.tile s.here).poison (e.soff.toNat + 64 * k) 64 64 =
          poisoned (s.tile u).poison (e.poff.toNat + 64 * k) 64 64) ∧
        ∀ v x, (t.tile v).scratch.byte x =
          if v = s.here ∧ e.soff.toNat + 64 * k ≤ x ∧ x < e.soff.toNat + 64 * k + 64
          then (s.tile u).scratch.byte (e.poff.toNat + (x - e.soff.toNat)) else (s.tile v).scratch.byte x) ∧
    (∀ k, tl.cwait = some (.resync i k) → e.lines.toNat ≤ k → exec (.resync a) s = retired s (s.onTile s.here fun tl =>
      { tl with subs := tSet .zero tl.subs i { e with state := 1, spillCnt := 0 } }))

/-- BARRIERS: the words and the completion of an instance (R323-R331, R359). -/
def Obligations.Barriers : Prop := Parts.BarrierWords ∧ Parts.BarrierCompletes

/-- WAITING ON AN ADDRESS: the word, and the wake of a sleeping one (R332-R334). -/
def Obligations.AddressWaits : Prop := Parts.Waitw ∧ Parts.Arming ∧ Parts.WakesUp

/-- THE STAGE RING: requests, and a request that has waited (R336-R338). -/
def Obligations.StageRing : Prop := Parts.SlotRequests ∧ Parts.SlotServed

/-- SUBSCRIPTIONS of C (R344-R349). -/
def Obligations.Subscriptions : Prop := Parts.SubscriptionWords ∧ Parts.Resync

/-! ### C: control flow, CSRs, traps, `rep` -/

/-- The conditions of R180. -/
def branches : List ((BitVec 5 → BitVec 5 → BitVec 14 → Instr) × (Word → Word → Bool)) :=
  [(.beq, fun a b => decide (a = b)), (.bne, fun a b => decide (a ≠ b)), (.blt, fun a b => decide (a.toInt < b.toInt)),
   (.bge, fun a b => decide (b.toInt ≤ a.toInt)), (.bltx, fun a b => decide (a.toNat < b.toNat)),
   (.bgex, fun a b => decide (b.toNat ≤ a.toNat))]

/-- BRANCHES (R131-R133, R135, R163, R180): a taken branch goes to its own index plus its offset, any other to the next word; the
outcome is appended; a target outside the text is RANGE, a link operand ILLOP, and C waits while OUTSTANDING has reached DRIFT. Their
words are of format B, with OP6 0x30 to 0x36. -/
def Obligations.Branches : Prop :=
  ∀ (off : BitVec 14) (s : State),
    let tl := s.tile s.here
    let tgt : Int := pcOf s + off.toInt
    (tl.driftHolds = true → ∀ p ∈ branches, ∀ a b, exec (p.1 a b off) s = waits s s ∧ exec (.b off) s = waits s s) ∧
    (tl.driftHolds = false → (∀ n : Nat, tgt = n → n < tl.nwords → exec (.b off) s = flows s s n) ∧
      ((tgt < 0 ∨ (tl.nwords : Int) ≤ tgt) → exec (.b off) s = traps s .RANGE 0) ∧
      ∀ p ∈ branches, ∀ a b,
        (inFile s [a, b] → (p.2 (xr s a) (xr s b) = false → exec (p.1 a b off) s = flows s s (pcOf s + 1)) ∧
          (p.2 (xr s a) (xr s b) = true →
            (∀ n : Nat, tgt = n → n < tl.nwords → exec (p.1 a b off) s = flows s s n) ∧
            ((tgt < 0 ∨ (tl.nwords : Int) ≤ tgt) → exec (p.1 a b off) s = traps s .RANGE 0))) ∧
        (isLink a = true → exec (p.1 a b off) s = traps s .ILLOP 0) ∧
        (inFile s [a] → isLink b = true → exec (p.1 a b off) s = traps s .ILLOP 0)) ∧
    encode (.b off) = some (0#2 ++ 0x30#6 ++ 0#10 ++ off) ∧
    ∀ k p a b, branches[k]? = some p → encode (p.1 a b off) = some (0#2 ++ BitVec.ofNat 6 (0x31 + k) ++ a ++ b ++ off)

/-- `call`, `ret` AND `loop` (R181): a call leaves the index of the next word in its register; a `ret` goes to the index in its
register; a `loop` counts its register down and goes back while it is not 0. A failing one leaves its register. -/
def Parts.CallsAndLoops : Prop :=
  ∀ (r : BitVec 5) (off : BitVec 14) (s : State),
    let tl := s.tile s.here
    let tgt : Int := pcOf s + off.toInt
    tl.driftHolds = false → inFile s [r] →
    (∀ n : Nat, tgt = n → n < tl.nwords →
      exec (.call r off) s = flows s (put s r (BitVec.ofNat 64 (pcOf s + 1))) n ∧
      (2 ≤ (xr s r).toNat → exec (.loop r off) s = flows s (put s r (xr s r - 1)) n)) ∧
    ((tgt < 0 ∨ (tl.nwords : Int) ≤ tgt) → exec (.call r off) s = traps s .RANGE 0 ∧
      (2 ≤ (xr s r).toNat → exec (.loop r off) s = traps s .RANGE 0)) ∧
    ((xr s r).toNat = 0 → exec (.loop r off) s = flows s s (pcOf s + 1)) ∧
    ((xr s r).toNat = 1 → exec (.loop r off) s = flows s (put s r 0) (pcOf s + 1)) ∧
    ((xr s r).toNat < tl.nwords → exec (.ret r) s = flows s s (xr s r).toNat) ∧
    (tl.nwords ≤ (xr s r).toNat → exec (.ret r) s = traps s .RANGE 0)

/-- `halt` (R136, R182): C halts and keeps its place; the halt mark is appended while another counter runs; ILLOP in a handler. -/
def Parts.Halt : Prop :=
  ∀ s : State,
    let tl := s.tile s.here
    (tl.inHandler = true → exec .halt s = traps s .ILLOP 0) ∧
    (tl.inHandler = false → tl.driftHolds = true → exec .halt s = waits s s) ∧
    (tl.inHandler = false → tl.driftHolds = false → ∃ t, exec .halt s = .next t ∧
      (t.tile s.here).cntC.st = .halted ∧ (t.tile s.here).haltedAt = some (pcOf s) ∧ (t.tile s.here).x = tl.x ∧
      ((t.tile s.here).outcomes =
        if tl.cntL.st = .halted ∧ tl.cntX.st = .halted ∧ tl.cntS.st = .halted then tl.outcomes else tl.outcomes ++ [.halt]) ∧
      sameMemory s t ∧ ∀ v, v ≠ s.here → t.tile v = s.tile v)

/-- CSRs that a context writes as plain values: their number, the values that they take, and the bits that are fields. -/
def plainCsrs : List (Nat × (Word → Bool) × Word) :=
  [(0x003, fun v => decide (1 ≤ v.toNat ∧ v.toNat ≤ 64), BitVec.allOnes 64), (0x008, fun v => decide (v.toNat < 2 ^ 15), BitVec.allOnes 64),
   (0x00A, fun v => decide (v.toNat < 2 ^ 15), BitVec.allOnes 64), (0x010, fun v => decide (v.toNat < 2 ^ 16), BitVec.allOnes 64),
   (0x020, fun _ => true, 0x800000000000FFFF), (0x021, fun _ => true, 0x800000000000FFFF),
   (0x022, fun _ => true, 0x800000000000FFFF), (0x023, fun _ => true, 0x800000000000FFFF),
   (0x024, fun _ => true, BitVec.allOnes 64), (0x025, fun _ => true, BitVec.allOnes 64),
   (0x026, fun v => decide (v.toNat < 8), BitVec.allOnes 64)]

/-- CSR ACCESSES (R148-R151, R186, R322, R353, R375-R377): `csrr` reads a CSR; `csrw` writes, `csrs` sets and `csrc` clears; a value that the CSR does
not take is RANGE and changes nothing; a number that is not assigned, or a write of a read-only CSR, is ILLOP. That a write of BKPT0 to BKPT3 drops
their reserved bits is the model's reading (log 13). -/
def Parts.PlainCsrs : Prop :=
  ∀ (a d : BitVec 5) (n : BitVec 11) (s : State),
    let tl := s.tile s.here
    let traps0 (c : Cause) := exec (.csrw a n) s = traps s c 0 ∧ exec (.csrs a n) s = traps s c 0 ∧ exec (.csrc a n) s = traps s c 0
    (csrRead s s.here n.toNat = none → exec (.csrr d n) s = traps s .ILLOP 0 ∧ traps0 .ILLOP) ∧
    (n.toNat ∈ [0x000, 0x001, 0x002, 0x018] → traps0 .ILLOP) ∧
    (∀ v, csrRead s s.here n.toNat = some v → csrStalls tl n.toNat = false → tl.badAt (opmCsr n.toNat) 8 = false →
      (isLink d = false → exec (.csrr d n) s = retired s (put s d v)) ∧
      (inFile s [a] → ∀ p ∈ plainCsrs, p.1 = n.toNat → ∀ (i : Instr) (w : Word),
        (i, w) ∈ [(.csrw a n, xr s a), (.csrs a n, v ||| xr s a), (.csrc a n, v &&& ~~~(xr s a))] →
        (p.2.1 w = false → exec i s = traps s .RANGE 0) ∧
        (p.2.1 w = true → ∃ t, exec i s = retired s t ∧ csrRead t s.here n.toNat = some (w &&& p.2.2) ∧
          (∀ m, m ≠ n.toNat → csrRead t s.here m = csrRead s s.here m) ∧ (t.tile s.here).x = tl.x ∧ sameMemory s t ∧
          ∀ u, u ≠ s.here → t.tile u = s.tile u)))

/-- The writes of a CSR by a register (R186): the instruction, the value that it forms from the CSR's and the register's, the sticky bits
that it keeps, and whether it writes a 1 to MONSTAT.DISARM. -/
def csrForms (a : BitVec 5) (n : BitVec 11) (v x : Word) : List (Instr × Word × Word × Bool) :=
  [(.csrw a n, x, x, x.getLsbD 2), (.csrs a n, v ||| x, BitVec.allOnes 64, x.getLsbD 2),
   (.csrc a n, v &&& ~~~x, ~~~x, false)]

/-- A state after a CSR write: of the tile, what `f` gives changes, beside errors that the write has ended (R380), and nothing else. -/
def csrWritten (s t : State) (f : Tile → Tile) : Prop :=
  { t with tiles := s.tiles } = s ∧ (∀ v, v ≠ s.here → t.tile v = s.tile v) ∧
  { t.tile s.here with badRegs := (s.tile s.here).badRegs } = f (s.tile s.here)

/-- STICKY FLAGS (R54, R150, R186): `FFLAGS` is read and written once X has drained; a write of 0 clears a bit, a 1 leaves it, `csrs`
leaves all, `csrc` clears those it names. -/
def Parts.StickyFlags : Prop :=
  ∀ (a : BitVec 5) (s : State),
    let tl := s.tile s.here
    inFile s [a] → tl.badAt (opmCsr 0x019) 8 = false →
    (tl.retiredToC .X = false → exec (.csrw a 0x019) s = waits s s) ∧
    (tl.retiredToC .X = true → ∀ f ∈ csrForms a 0x019 (tl.fflags.setWidth 64) (xr s a),
      ∃ t, exec f.1 s = retired s t ∧ csrWritten s t fun tl => { tl with fflags := tl.fflags &&& f.2.2.1.setWidth 6 })

/-- `GROUPMASK`, `TRAPCAUSE` AND `REPIDX` (R322, R366, R184): a group selector that is reserved or leaves the rectangle, or a reserved
bit, is RANGE; `TRAPCAUSE` ignores its reserved bits, and RES code 3 leaves RES; `REPIDX` takes the low six bits. -/
def Parts.ControlCsrs : Prop :=
  ∀ (a : BitVec 5) (n : BitVec 11) (s : State) (v : Word),
    let tl := s.tile s.here
    inFile s [a] → csrRead s s.here n.toNat = some v → tl.badAt (opmCsr n.toNat) 8 = false →
    ∀ f ∈ csrForms a n v (xr s a),
      (n = 0x011 →
        (f.2.1.toNat < 64 ∧ gselReserved (f.2.1.setWidth 6) = false ∧ s.groupFits s.here (f.2.1.setWidth 6) = true →
          ∃ t, exec f.1 s = retired s t ∧ csrWritten s t fun tl => { tl with groupMask := f.2.1.setWidth 6 }) ∧
        (64 ≤ f.2.1.toNat ∨ gselReserved (f.2.1.setWidth 6) = true ∨ s.groupFits s.here (f.2.1.setWidth 6) = false →
          exec f.1 s = traps s .RANGE 0)) ∧
      (n = 0x009 → ∃ t w, exec f.1 s = retired s t ∧ csrWritten s t (fun tl => { tl with trapCause := w }) ∧
        w.extractLsb' 0 10 = f.2.1.extractLsb' 0 10 ∧ w.extractLsb' 12 4 = 0 ∧
        w.extractLsb' 16 16 = f.2.1.extractLsb' 16 16 ∧ w.extractLsb' 32 18 = 0 ∧
        w.extractLsb' 50 14 = f.2.1.extractLsb' 50 14 ∧
        w.extractLsb' 10 2 = if f.2.1.extractLsb' 10 2 = 3#2 then tl.trapCause.extractLsb' 10 2 else f.2.1.extractLsb' 10 2) ∧
      (n = 0x00B → ∃ t, exec f.1 s = retired s t ∧ csrWritten s t fun tl => { tl with repIdx := f.2.1.setWidth 6 })

/-- `LSTAT`, `SSTAT` AND `MONSTAT` (R186, R281, R335): their sticky fields keep the bits that the write keeps, their live fields ignore it,
and a 1 written to MONSTAT.DISARM frees every armed entry. -/
def Parts.StatusCsrs : Prop :=
  ∀ (a : BitVec 5) (n : BitVec 11) (s : State) (v : Word),
    let tl := s.tile s.here
    inFile s [a] → csrRead s s.here n.toNat = some v → tl.badAt (opmCsr n.toNat) 8 = false →
    ∀ f ∈ csrForms a n v (xr s a),
      let kept (st : EngineStatus) : EngineStatus :=
        { fpage := st.fpage &&& f.2.2.1.extractLsb' 12 52, eos := st.eos &&& f.2.2.1.extractLsb' 8 4,
          opmBusy := st.opmBusy && f.2.2.1.getLsbD 4, hfail := st.hfail && f.2.2.1.getLsbD 3 }
      (n = 0x01A → ∃ t, exec f.1 s = retired s t ∧ csrWritten s t fun tl => { tl with lstat := kept tl.lstat }) ∧
      (n = 0x01B → ∃ t, exec f.1 s = retired s t ∧ csrWritten s t fun tl => { tl with sstat := kept tl.sstat }) ∧
      (n = 0x01C → ∃ t m, exec f.1 s = retired s t ∧
        csrWritten s t (fun tl => { tl with fired := tl.fired &&& f.2.2.1.extractLsb' 16 16, phDrop := tl.phDrop && f.2.2.1.getLsbD 1,
                                            monFull := tl.monFull && f.2.2.1.getLsbD 0, mon := m }) ∧
        (f.2.2.2 = false → m = tl.mon) ∧ (f.2.2.2 = true → ∀ k, (tGet MonEntry.zero m k).armed = false))

/-- TAKING A TRAP OF C (R366, R368, R370): TRAPCAUSE and TRAPPC are written, C enters handler state at TRAPVEC.VEC, and no register and
no memory changes. With TRAPVEC.EN clear, or inside the handler, the trap escalates: the four counters halt and a report goes
to the Front. -/
def Parts.TrapEntry : Prop :=
  ∀ (s : State) (t : Nat) (c : Cause) (info : BitVec 14) (i : Nat),
    let tl := s.tile t
    let u := (deliverTrap s t .C c info i).tile t
    (tl.inHandler = false → 2 ^ 14 ≤ tl.trapVec.toNat → (c.isDebug = false ∨ tl.dbgCtl.getLsbD 2 = false) → tl.lull = .none →
      tl.cwait = none →
      u.trapCause = trapCauseWord 0 .C info (!tl.pending.isEmpty) false c ∧ u.trapPc = BitVec.ofNat 15 i ∧ u.inHandler = true ∧
      u.cntC.pc = tl.trapVec.toNat % 2 ^ 14 ∧ u.cntC.st = .running ∧ u.x = tl.x ∧ u.fflags = tl.fflags ∧ u.g = tl.g ∧
      u.acc = tl.acc ∧ u.trapVec = tl.trapVec ∧ u.outcomes = tl.outcomes ∧ u.pending = tl.pending ∧
      sameMemory s (deliverTrap s t .C c info i) ∧ ∀ v, v ≠ t → (deliverTrap s t .C c info i).tile v = s.tile v) ∧
    ((tl.inHandler = true ∨ tl.trapVec.toNat < 2 ^ 14) →
      u.cntC.st = .halted ∧ u.cntL.st = .halted ∧ u.cntX.st = .halted ∧ u.cntS.st = .halted ∧ u.trapCause = tl.trapCause ∧
      (deliverTrap s t .C c info i).reports = s.reports ++
        [{ tile := t, rel := tl.tileId, ctx := tl.owner, gen := ((s.ctxOf t).map (·.gen)).getD 0,
           cause := if tl.inHandler then .PRIVSTK else c, eng := .C, index := i }])

/-- THE FIELDS OF TRAPCAUSE (R365, R366) as a trap of C writes them: the code, the engine, INFO and PEND; CPC and RES are 0. -/
def Parts.TrapCauseFields : Prop :=
  ∀ (c : Cause) (info : BitVec 14) (pend : Bool),
    let w := trapCauseWord 0 .C info pend false c
    w.toNat % 2 ^ 8 = c.code ∧ w.getLsbD 9 = pend ∧ w.extractLsb' 10 2 = 0 ∧ w.extractLsb' 16 14 = info ∧
    w.extractLsb' 30 2 = 0 ∧ w.extractLsb' 50 14 = 0

/-- `brk` AND `trap` (R187, R189): both trap at themselves. -/
def Parts.TrapWords : Prop :=
  ∀ (imm : BitVec 14) (s : State),
    exec .brk s = traps s .BRKPT 0 ∧ exec (.trap imm) s = traps s .SYSCALL imm ∧
    encode (.trap imm) = some (0#2 ++ 0x3F#6 ++ 0#10 ++ imm) ∧
    ((s.tile s.here).inHandler = false → 2 ^ 14 ≤ (s.tile s.here).trapVec.toNat → (s.tile s.here).lull = .none →
      pcOf s < 2 ^ 15 → ∃ t, exec (.trap imm) s = .next t ∧ (t.tile s.here).trapPc.toNat = pcOf s ∧
        (t.tile s.here).trapCause.extractLsb' 0 8 = 0x10 ∧ (t.tile s.here).trapCause.extractLsb' 16 14 = imm ∧
        (t.tile s.here).x = (s.tile s.here).x ∧ sameMemory s t)

/-- `eret` (R187, R369, R380): ILLOP outside handler state; MEMERR where TRAPCAUSE or TRAPPC holds an error; else C goes on at TRAPPC,
outside handler state. -/
def Parts.Return : Prop :=
  ∀ s : State,
    let tl := s.tile s.here
    (tl.inHandler = false → exec .eret s = traps s .ILLOP 0) ∧
    (tl.inHandler = true → tl.badAt (opmCsr 0x009) 16 = true → exec .eret s = traps s .MEMERR 0) ∧
    (tl.inHandler = true → tl.badAt (opmCsr 0x009) 16 = false → tl.pending = [] → ∃ t, exec .eret s = .next t ∧
      (t.tile s.here).inHandler = false ∧ (t.tile s.here).cntC.pc = tl.trapPc.toNat % 2 ^ 14 ∧
      (t.tile s.here).cntC.st = .running ∧ (t.tile s.here).x = tl.x ∧ sameMemory s t ∧
      ∀ v, v ≠ s.here → t.tile v = s.tile v)

/-- What RES does at an `eret` (R130, R369): the engine that ENG names retries (0), drops (1) or keeps stopped (2) the command that its
trap stopped, and one that an earlier `eret` kept stopped; the other engines' queues stay, and after the ILLOP of a counter at
NWORDS every queue stays (log 13). -/
def Parts.ReturnActs : Prop :=
  ∀ (s : State) (e : Engine),
    let tl := s.tile s.here
    tl.inHandler = true → tl.badAt (opmCsr 0x009) 16 = false → tl.pending = [] → tl.trapCause.toNat / 2 ^ 30 % 4 = engCode e →
    ∃ t, exec .eret s = .next t ∧
      (∀ f, f ≠ e ∨ tl.trapAtEnd = true → (t.tile s.here).queue f = tl.queue f) ∧
      (e ≠ .C → tl.trapAtEnd = false →
        let acts (q : QEntry) : Prop := q.phase = .trapped ∧ (q.stopped = true ∨ tl.trapEntry = some q.id)
        let res := tl.trapCause.toNat / 2 ^ 10 % 4
        (∀ q ∈ tl.queue e, ¬ acts q → q ∈ (t.tile s.here).queue e) ∧
        (res = 1 → ∀ q ∈ (t.tile s.here).queue e, q ∈ tl.queue e ∧ ¬ acts q) ∧
        (∀ q ∈ tl.queue e, acts q → q.pushed = false →
          (res = 0 → ∃ k ∈ (t.tile s.here).queue e, k.id = q.id ∧ k.word = q.word ∧ k.phase = .queued ∧ k.stopped = false ∧
            k.popped = q.popped ∧ k.prog = .start ∧ k.nest = q.nest.map NestState.again ∧
            k.caps = if isNest q.word && q.nest.isSome then q.caps else tl.captureAll) ∧
          (res = 2 → { q with stopped := true } ∈ (t.tile s.here).queue e)) ∧
        (∀ k ∈ (t.tile s.here).queue e, k.pushed = true → k ∈ tl.queue e ∧ ¬ acts k))

/-- `brk`, `trap` AND `eret` (R130, R187, R189, R369, R380). -/
def Obligations.TrapInstructions : Prop := Parts.TrapWords ∧ Parts.Return ∧ Parts.ReturnActs

/-- The word `w` behind a `rep`, read as `i`, is one that R183 lets it prefix, and REPIDX can be read and has not passed the last
repetition. -/
def repeats (s : State) (sa s2 s1 sd : BitVec 1) (cnt : BitVec 6) (w : IWord) (i : Instr) : Prop :=
  let tl := s.tile s.here
  prefixedWord tl = some w ∧ decode w = .ok i ∧ repOk i w sa s2 s1 sd cnt.toNat = true ∧ (repBodyOf 0 i).isSome = true ∧
    tl.badAt (opmCsr 0x00B) 8 = false ∧ tl.repIdx.toNat ≤ cnt.toNat

/-- No breakpoint stops C at the prefixed word: none hits it at a repetition not begun, or SKIP lets the hit pass and is cleared
(R375, R377). -/
def passesBreak (s s0 : State) : Prop :=
  let tl := s.tile s.here
  ((tl.cntC.st = .waiting ∨ breakpointOf tl .C (pcOf s + 1) = none) ∧ s0 = s) ∨
    (tl.cntC.st ≠ .waiting ∧ (breakpointOf tl .C (pcOf s + 1)).isSome = true ∧ tl.dbgCtl.getLsbD 1 = true ∧
      s0 = s.onTile s.here fun tl => { tl with dbgCtl := tl.dbgCtl &&& 5#3 })

/-- After the repetition that REPIDX counts, which left `s'` (R184): REPIDX counts on, and a trap that waits is taken before the next; or,
after the last, C stands behind the prefixed word with REPIDX 0. -/
def repeated (s s' : State) (cnt : BitVec 6) : Out :=
  let k := (s.tile s.here).repIdx.toNat
  if k < cnt.toNat then
    .next (deliverPending (s'.onTile s.here fun tl =>
      { tl with repIdx := BitVec.ofNat 6 (k + 1), cwait := none, relSince := none, repOn := true,
                cntC := { tl.cntC with st := .running } }) s.here)
  else .next (retireTo (s'.onTile s.here fun tl => { tl with repIdx := 0 }) s.here (pcOf s + 2))

/-- `rep` ON THE ARITHMETIC OF R165 (R183, R184): one repetition runs the prefixed word with its stepped fields. -/
def Parts.RepeatArithmetic : Prop :=
  ∀ (sa s2 s1 sd : BitVec 1) (cnt : BitVec 6) (s s0 : State) (w : IWord) (i : Instr),
    repeats s sa s2 s1 sd cnt w i → passesBreak s s0 → ∀ p ∈ arith3, ∀ d a b,
      decode (stepWord w s2 s1 sd (s.tile s.here).repIdx.toNat) = .ok (p.1 d a b) → inFile s [a, b] → isLink d = false →
      exec (.rep sa s2 s1 sd cnt) s = repeated s (put s0 d (p.2 (xr s a) (xr s b))) cnt

/-- `rep` ON LOADS AND STORES (R168-R171, R183, R184): as for the arithmetic; with SA the address counts up by the access size from one
repetition to the next. -/
def Parts.RepeatMemory : Prop :=
  ∀ (sa s2 s1 sd : BitVec 1) (cnt : BitVec 6) (s s0 : State) (w : IWord) (i : Instr) (d a : BitVec 5) (oc : BitVec 4) (ar : BitVec 1)
    (scope : BitVec 3) (size : BitVec 2) (disp : BitVec 4) (h : Home),
    let k := (s.tile s.here).repIdx.toNat
    let n := 2 ^ size.toNat
    let ea := eaOf s a size disp + BitVec.ofNat 64 (if sa = 1 then k * n else 0)
    let run (j : Instr) : Prop := repeats s sa s2 s1 sd cnt w i ∧ passesBreak s s0 ∧ decode (stepWord w s2 s1 sd k) = .ok j
    (∀ v, inFile s [a] → isLink d = false → accessOk s ea n true false h → cRead s s.here h n = .ok v →
      let u := s0.viaPort s.here h n false oc
      let u := if ar = 1 then acquire u s.here else u
      (run (.ld d a oc ar scope size disp) → exec (.rep sa s2 s1 sd cnt) s =
        repeated s (u.onTile s.here (·.setX d.toNat (BitVec.ofInt 64 (BitVec.ofNat (8 * n) v).toInt))) cnt) ∧
      (run (.ldz d a oc ar scope size disp) → exec (.rep sa s2 s1 sd cnt) s =
        repeated s (u.onTile s.here (·.setX d.toNat (BitVec.ofNat 64 v))) cnt)) ∧
    (∀ u off, inFile s [a, d] → accessOk s ea n false true h → h = .scratch u off → (s.tile u).pubsBad = false →
      run (.st d a oc 0 scope size disp) → exec (.rep sa s2 s1 sd cnt) s =
        repeated s (scratchWrite s0 u off (natBytes n (xr s d).toNat) oc true false) cnt)

/-- WHERE A `rep` TRAPS (R183, R184, R375, R380): ILLOP for a word that it may not prefix; MEMERR for an error in REPIDX; RANGE for a
REPIDX past the last repetition; and BRKPT where a breakpoint hits the prefixed word at a repetition that C has not begun (of the
repetition's own trap, log 13). -/
def Parts.RepeatTraps : Prop :=
  ∀ (sa s2 s1 sd : BitVec 1) (cnt : BitVec 6) (s : State),
    let tl := s.tile s.here
    (prefixedWord tl = none → exec (.rep sa s2 s1 sd cnt) s = traps s .ILLOP 0) ∧
    (∀ w i, prefixedWord tl = some w → decode w = .ok i →
      (repBodyOf 0 i).isSome = false ∨ repOk i w sa s2 s1 sd cnt.toNat = false →
      exec (.rep sa s2 s1 sd cnt) s = traps s .ILLOP 0) ∧
    (∀ w i j, prefixedWord tl = some w → decode w = .ok i → repOk i w sa s2 s1 sd cnt.toNat = true → (repBodyOf 0 i).isSome = true →
      decode (stepWord w s2 s1 sd (min tl.repIdx.toNat cnt.toNat)) = .ok j → (repBodyOf 0 j).isSome = true →
      (tl.badAt (opmCsr 0x00B) 8 = true → exec (.rep sa s2 s1 sd cnt) s = traps s .MEMERR 0) ∧
      (tl.badAt (opmCsr 0x00B) 8 = false → cnt.toNat < tl.repIdx.toNat → exec (.rep sa s2 s1 sd cnt) s = traps s .RANGE 0) ∧
      (∀ b, tl.badAt (opmCsr 0x00B) 8 = false → tl.repIdx.toNat ≤ cnt.toNat → tl.cntC.st ≠ .waiting →
        breakpointOf tl .C (pcOf s + 1) = some b → tl.dbgCtl.getLsbD 1 = false →
        exec (.rep sa s2 s1 sd cnt) s = traps s .BRKPT (BitVec.ofNat 14 b)))

/-- THE STEPPED FIELDS (R183): the word as repetition `k` runs it names the registers `k` further on where SD, S1 and S2 say so. -/
def Parts.SteppedFields : Prop :=
  ∀ (s2 s1 sd : BitVec 1) (k : Nat),
    (∀ p ∈ arith3, ∀ d a b w, encode (p.1 d a b) = some w → (sd = 0 ∨ d.toNat + k < 32) → (s1 = 0 ∨ a.toNat + k < 32) →
      (s2 = 0 ∨ b.toNat + k < 32) → decode (stepWord w s2 s1 sd k) =
        .ok (p.1 (if sd = 1 then d + BitVec.ofNat 5 k else d) (if s1 = 1 then a + BitVec.ofNat 5 k else a)
          (if s2 = 1 then b + BitVec.ofNat 5 k else b))) ∧
    ∀ d a oc ar scope size disp w, wellFormed (.ld d a oc ar scope size disp) = true → encode (.ld d a oc ar scope size disp) = some w →
      (sd = 0 ∨ d.toNat + k < 32) →
      (s1 = 0 ∨ a.toNat + k < 32) → decode (stepWord w 0 s1 sd k) =
        .ok (.ld (if sd = 1 then d + BitVec.ofNat 5 k else d) (if s1 = 1 then a + BitVec.ofNat 5 k else a) oc ar scope size disp)

/-- `rep` (R168-R171, R183-R185). -/
def Obligations.Repeat : Prop :=
  Parts.RepeatArithmetic ∧ Parts.RepeatMemory ∧ Parts.RepeatTraps ∧ Parts.SteppedFields

/-- CALLS, LOOPS AND `halt` (R136, R181, R182). -/
def Obligations.CallsLoopsHalt : Prop := Parts.CallsAndLoops ∧ Parts.Halt

/-- CSR ACCESSES (R148-R151, R186). -/
def Obligations.CsrAccess : Prop :=
  Parts.PlainCsrs ∧ Parts.StickyFlags ∧ Parts.ControlCsrs ∧ Parts.StatusCsrs ∧ ∀ t, (State.reset.tile t).drift = 16

/-- TAKING A TRAP OF C, and what TRAPCAUSE then holds (R365-R370). -/
def Obligations.TakingATrap : Prop := Parts.TrapEntry ∧ Parts.TrapCauseFields

/-! ### Commands of L and S -/

/-- The six copies (R262): their kinds and words. -/
def copies : List (CopyKind ×
    (BitVec 1 → BitVec 1 → BitVec 4 → BitVec 4 → BitVec 4 → BitVec 1 → BitVec 1 → BitVec 3 → BitVec 1 → BitVec 4 → Instr)) :=
  [(ldnKind, .ldn), (ldrKind, .ldr), (ldhKind, .ldh), (stnKind, .stn), (strmKind, .strm), (sthKind, .sth)]

/-- The phase of a command that waits for accesses of an earlier one of its engine: under a lull sequence it goes back to its queue where
that one has gone back and none before it runs (R372; log 7). -/
def heldPhase (s : State) (t : Nat) (e : Engine) : CmdPhase :=
  if (s.tile t).lull ≠ .none ∧ (s.earlier t e).any (·.phase == .queued) = true ∧ (s.earlier t e).any (·.phase == .running) = false
    then .queued else .running

/-- COPIES (R262-R268, R300): a copy that passes the checks of R265 copies as many elements as its shorter window has, in walk order (the
order in which they are performed is the model's, log 7), then makes its release and its note; a check that fails traps, an
element that its home refuses traps after the earlier ones, one on an absent page stops the command, and a command whose class an
earlier one of its engine holds back waits. A stopped copy of S reads on, as far as it can (R268, log 7). -/
def Parts.Copies : Prop :=
  ∀ p ∈ copies, ∀ (w gv : BitVec 1) (gd gs oc : BitVec 4) (acq rel : BitVec 1) (scope : BitVec 3) (nt : BitVec 1) (gn : BitVec 4) (s : State),
    let e := p.1.eng
    let i := p.2 w gv gd gs oc acq rel scope nt gn
    s.progOf s.here e = .start →
    (∀ c info, copyPlan s s.here p.1 gd gs nt gn = .error (.trap c info) → exec i s = trapsCmd e s c info) ∧
    (∀ d sr n spans, copyPlan s s.here p.1 gd gs nt gn = .ok (d, sr, n, spans) → guards s s.here spans = .ok s →
      let s1 := (if acq = 1 then acquire s s.here else s).onProg s.here e fun q => { q with begun := true }
      let total := min (Tlr.count sr.r) (Tlr.count d.r)
      (total ≠ 0 → s1.classHeld s.here e oc = true →
        exec i s = .next (s1.onEntry s.here e fun q => { q with phase := heldPhase s1 s.here e })) ∧
      (total = 0 ∨ s1.classHeld s.here e oc = false → ∀ s2 m x, copyFrom s1 s.here e d sr oc 0 total = (s2, m, x) →
        let s3 := s2.onProg s.here e fun q => { q with count := m }
        let s4 := if e = .S then readAhead s3 s.here e sr m (total - m) else s3
        (x = none → m = total ∧
          (∀ t, finishCommand s3 s.here e
              { rel := decide (rel = 1), scope := scope.toNat, note := n, cls := oc, count := false }
              (if e = .S then farTile s3 s.here e d else none) = .ok t → exec i s = performs e s t) ∧
          (∀ t, finishCommand s3 s.here e
              { rel := decide (rel = 1), scope := scope.toNat, note := n, cls := oc, count := false }
              (if e = .S then farTile s3 s.here e d else none) = .error (.wait t) →
            exec i s = .next (t.onEntry s.here e fun q => { q with phase := .running })) ∧
          (∀ t, finishCommand s3 s.here e
              { rel := decide (rel = 1), scope := scope.toNat, note := n, cls := oc, count := false }
              (if e = .S then farTile s3 s.here e d else none) = .error (.back t) →
            exec i s = .next (t.onEntry s.here e fun q => { q with phase := .queued }))) ∧
        (∀ c a, x = some (.mem (.refuse c) a) →
          exec i s = .next (trapCommand (if c = .MEMERR then s4 else setFpage s4 s.here e a.toNat) s.here e c 0)) ∧
        (∀ va a, x = some (.mem (.page va) a) →
          exec i s = .next ((pageStop s4 s.here e va).onEntry s.here e fun q => { q with phase := .running })) ∧
        (∀ a, x = some (.mem .busy a) → exec i s = .next (s4.onEntry s.here e fun q => { q with phase := .running }))))

/-- AN ELEMENT OF A COPY between scratchpads (R266): its bytes, bit for bit, and no other byte of any memory; one that was read ahead is
written as it was read (R268). -/
def Parts.CopyElement : Prop :=
  ∀ (s : State) (t : Nat) (e : Engine) (d sr : Side) (cls : BitVec 4) (k n so dofs us uo ud uo' : Nat) (i j : Nat),
    n ∈ [1, 2, 4, 8] → elemBits (Tlr.fmt sr.r) = 8 * n → elemBits (Tlr.fmt d.r) = 8 * n → d.host = none → sr.host = none →
    Tlr.elem sr.r k false = .place so i → Tlr.elem d.r k true = .place dofs j →
    homeOfOffset s t e (Tlr.base sr.r) so = .scratch us uo → homeOfOffset s t e (Tlr.base d.r) dofs = .scratch ud uo' →
    poisoned (s.tile us).poison uo n 64 = false → s.ownToken t e us uo n = false → (s.tile ud).pubsBad = false →
    ((s.progOf t e).ahead = [] → ∃ s', copyElem s t e d sr cls k = .ok s' ∧ s'.devMem = s.devMem ∧ s'.hostMem = s.hostMem ∧
      ∀ v x, (s'.tile v).scratch.byte x =
        if v = ud ∧ uo' ≤ x ∧ x < uo' + n then scratchByte s t us (uo + (x - uo')) else (s.tile v).scratch.byte x) ∧
    (∀ w ws, (s.progOf t e).ahead = w :: ws → ∃ s', copyElem s t e d sr cls k = .ok s' ∧ s'.devMem = s.devMem ∧ s'.hostMem = s.hostMem ∧
      ∀ v x, (s'.tile v).scratch.byte x =
        if v = ud ∧ uo' ≤ x ∧ x < uo' + n then BitVec.ofNat 8 (w / 2 ^ (8 * (x - uo'))) else (s.tile v).scratch.byte x)

/-- A COMMAND'S END (R267): with neither release nor note it changes no memory. -/
def Parts.CommandEnd : Prop :=
  ∀ (s : State) (t : Nat) (e : Engine) (scope : Nat) (cls : BitVec 4) (count : Bool) (far : Option Nat),
    ∃ s', finishCommand s t e { rel := false, scope := scope, note := none, cls := cls, count := count } far = .ok s' ∧
      sameMemory s s' ∧ s'.flits = s.flits ∧ (∀ v, (s'.tile v).x = (s.tile v).x ∧ (s'.tile v).batches = (s.tile v).batches)

/-- The bytes of a note (R75, R267): FILL under the fill rule of GN's format plus the number of words taken, modulo the element size. -/
def noteByte (r : Tlr) (n words k : Nat) : Byte :=
  BitVec.ofNat 8 (((if Tlr.fmt r = 14 then (signedOf 32 (Tlr.fill r) % 2 ^ 64).toNat else Tlr.fill r % 2 ^ (8 * n)) + words) % 2 ^ (8 * n) /
    2 ^ (8 * k))

/-- GN names one element of `n` bytes, at this place of a scratchpad whose publisher table can be read. -/
def noteAt (s : State) (t : Nat) (e : Engine) (r : Tlr) (n u off : Nat) : Prop :=
  n ∈ [1, 2, 4, 8] ∧ elemBits (Tlr.fmt r) = 8 * n ∧
    homeOfOffset s t e (Tlr.base r) (spaceOffset (Tlr.base r)) = .scratch u off ∧ (s.tile u).pubsBad = false

/-- A COMPLETION NOTE (R75, R267): once the command's writes are performed at their scope, one element of GN's format at GN's BASE takes FILL
under the fill rule, and for an `rcv` FILL plus the number of words taken, modulo the element size; no other byte changes.
While a write to another tile is unsettled, or a posted store unacknowledged, a command of L waits; one of S is complete, and owes the note. -/
def Parts.NoteValue : Prop :=
  ∀ (s : State) (t : Nat) (e : Engine) (scope n u off : Nat) (cls : BitVec 4) (count : Bool) (far : Option Nat) (r : Tlr),
    noteAt s t e r n u off → s.classHeld t e cls = false →
    let tail : Tail := { rel := false, scope := scope, note := some r, cls := cls, count := count }
    let pr := s.progOf t e
    ((far = none ∨ ∃ v, far = some v ∧ pr.done = true ∧ settledBefore s v pr.stamp = true) → s.ownPosted t e = false →
      ∃ s', finishCommand s t e tail far = .ok s' ∧ s'.devMem = s.devMem ∧ s'.hostMem = s.hostMem ∧
        ∀ v x, (s'.tile v).scratch.byte x = if v = u ∧ off ≤ x ∧ x < off + n
          then noteByte r n (if count then pr.taken else 0) (x - off) else (s.tile v).scratch.byte x) ∧
    (pr.done = true → (s.ownPosted t e = true ∨ ∃ v, far = some v ∧ settledBefore s v pr.stamp = false) →
      (e ≠ .S → finishCommand s t e tail far = .error (.wait s)) ∧
      (e = .S → finishCommand s t e tail far = .ok (s.onTile t fun tl => { tl with notes := tl.notes ++
        [{ entry := s.focus.entry, index := s.indexOf t e, record := r, cls := cls, far := far, stamp := pr.stamp }] })))

/-- A NOTE THAT AN S COMMAND OWES (R267): the event that completes commands writes it once its writes are performed, and leaves it owed until then. -/
def Parts.OwedNote : Prop :=
  ∀ (s : State) (t : Nat) (k : PendingNote) (n u off : Nat),
    let tl := s.tile t
    let s0 := s.focused t k.entry
    tl.notes.find? (·.entry = k.entry) = some k → (∀ q ∈ tl.qS, q.id ≠ k.entry) → noteAt s t .S k.record n u off →
    ((tl.qS.any fun q => q.id < k.entry && q.holds s t k.cls) = false → tl.noteOwed .S k.entry k.cls = false →
      (∀ v, k.far = some v → settledBefore s v k.stamp = true) → s0.ownPosted t .S = false →
      ∃ s', exec (.commandComplete t .S k.entry) s = .next s' ∧ (s'.tile t).notes = tl.notes.erase k ∧
        s'.devMem = s.devMem ∧ s'.hostMem = s.hostMem ∧
        ∀ v x, (s'.tile v).scratch.byte x =
          if v = u ∧ off ≤ x ∧ x < off + n then noteByte k.record n 0 (x - off) else (s.tile v).scratch.byte x) ∧
    ((s0.ownPosted t .S = true ∨ ∃ v, k.far = some v ∧ settledBefore s v k.stamp = false) →
      exec (.commandComplete t .S k.entry) s = .next s)

/-- COPIES BY L AND S (R262-R268). -/
def Obligations.Copies : Prop := Parts.Copies ∧ Parts.CopyElement ∧ Parts.CommandEnd ∧ Parts.NoteValue ∧ Parts.OwedNote

/-- `eos` (R126, R274): one word of kind 2, noted in SSTAT; while the FIFO is full it waits. -/
def Parts.EndOfStream : Prop :=
  ∀ (w gv : BitVec 1) (port : BitVec 2) (s : State),
    let tl := s.tile s.here
    tGet 0 tl.cfgErr port.toNat = 0 → (s.progOf s.here .S).begun = false →
    ((tl.outFifo port.toNat).length < portDepth → ∃ t, exec (.eos w gv port) s = performs .S s t ∧ sameMemory s t ∧
        (t.tile s.here).outFifo port.toNat = tl.outFifo port.toNat ++ [{ data := 0, kind := 2 }] ∧
        (t.tile s.here).sstat.eos.getLsbD port.toNat = true) ∧
    (portDepth ≤ (tl.outFifo port.toNat).length →
      exec (.eos w gv port) s = .next ((s.onProg s.here .S fun q => { q with begun := true }).onEntry s.here .S
        fun q => { q with phase := .running }))

/-- `snd` (R190, R273): the words of its window go out, each of kind 0 but the last, of kind 1 under E; then its release and its note. -/
def Parts.SentWords : Prop :=
  ∀ (w gv : BitVec 1) (g oc : BitVec 4) (port : BitVec 2) (eb acq rel : BitVec 1) (scope : BitVec 3) (nt : BitVec 1) (gn : BitVec 4) (s : State)
    (r : Tlr) (n : Option Tlr) (spans : List Span) (d : Nat → Line),
    let tl := s.tile s.here
    let s1 := (if acq = 1 then acquire s s.here else s).onProg s.here .S fun q => { q with begun := true }
    let out := tl.outFifo port.toNat ++ (List.range (Tlr.words r)).map fun i =>
      { data := d i, kind := if eb = 1 ∧ i + 1 = Tlr.words r then 1 else 0 }
    let i := Instr.snd w gv g port eb oc acq rel scope nt gn
    tGet 0 tl.cfgErr port.toNat = 0 → s.progOf s.here .S = .start → portPlan s s.here .S g true nt gn = .ok (r, n, spans) →
    guards s s.here spans = .ok s → (tl.outFifo port.toNat).length + Tlr.words r ≤ portDepth →
    (∀ i, i < Tlr.words r → windowWord s1 s.here .S r i = .ok (d i)) → s1.readHeld s.here .S oc = false →
    ∃ s2, (s2.tile s.here).outFifo port.toNat = out ∧ sameMemory s s2 ∧
      (∀ t, finishCommand s2 s.here .S { rel := decide (rel = 1), scope := scope.toNat, note := n, cls := oc, count := false } none
        = .ok t → exec i s = performs .S s t) ∧
      (rel = 0 → nt = 0 → ∃ t, exec i s = performs .S s t ∧ (t.tile s.here).outFifo port.toNat = out ∧ sameMemory s t)

/-- `rcv` (R272): an `rcv` whose words stand in its FIFO takes them to its window, and ends; then its release and its note. -/
def Parts.ReceivedWords : Prop :=
  ∀ (w gv : BitVec 1) (g oc : BitVec 4) (port : BitVec 2) (eb acq rel : BitVec 1) (scope : BitVec 3) (nt : BitVec 1) (gn : BitVec 4) (s s2 : State)
    (r : Tlr) (n : Option Tlr) (spans : List Span),
    let s1 := (if acq = 1 then acquire s s.here else s).onProg s.here .L fun q => { q with begun := true }
    let i := Instr.rcv w gv g port eb oc acq rel scope nt gn
    tGet 0 (s.tile s.here).cfgErr port.toNat = 0 → s.progOf s.here .L = .start →
    portPlan s s.here .L g false nt gn = .ok (r, n, spans) → guards s s.here spans = .ok s → s1.classHeld s.here .L oc = false →
    rcvLoop s1 s.here r port.toNat (decide (eb = 1)) oc (((s1.tile s.here).inFifo port.toNat).length + 1) = .ok (s2, .done) →
    (∀ t, finishCommand s2 s.here .L { rel := decide (rel = 1), scope := scope.toNat, note := n, cls := oc, count := true } none
      = .ok t → exec i s = performs .L s t) ∧
    (rel = 0 → nt = 0 → ∃ t, exec i s = performs .L s t ∧ sameMemory s2 t ∧
      (t.tile s.here).inFifo port.toNat = (s2.tile s.here).inFifo port.toNat)

/-- THE WORDS AN `rcv` TAKES (R190, R272), one by one: a data word's bytes go to the elements from the next on, those beyond the window nowhere,
and the FIFO holds the words behind it; kind 1 ends the `rcv`, whatever E says. An EOS ends it, is noted in LSTAT, and is taken under E alone. -/
def Parts.ReceivedWord : Prop :=
  ∀ (s : State) (t port : Nat) (r : Tlr) (eFlag : Bool) (cls : BitVec 4) (fuel : Nat) (h : StreamWord) (rest : List StreamWord),
    let k := (s.progOf t .L).count
    (s.entryOf t .L).isSome = true → k < Tlr.count r → (s.tile t).inFifo port = h :: rest → port < 4 →
    (h.kind = 2 → ∃ s1, rcvLoop s t r port eFlag cls (fuel + 1) = .ok (s1, .done) ∧ sameMemory s s1 ∧
        (s1.tile t).lstat.eos.getLsbD port = true ∧
        (eFlag = false → (s1.tile t).inFifo port = h :: rest) ∧ (eFlag = true → (s1.tile t).inFifo port = rest)) ∧
    (∀ n so u off, h.kind.toNat < 2 → n ∈ [1, 2, 4, 8] → elemBits (Tlr.fmt r) = 8 * n →
      let m := min (64 / n) (Tlr.count r - k)
      (∀ j, j < m → Tlr.elem r (k + j) true = .place (so + n * j) 0 ∧
        homeOfOffset s t .L (Tlr.base r) (so + n * j) = .scratch u (off + n * j)) → (s.tile u).pubsBad = false →
      ∃ s1, (s1.tile t).inFifo port = rest ∧ (s1.progOf t .L).count = k + 64 / n ∧ (s1.progOf t .L).taken = (s.progOf t .L).taken + 1 ∧
        s1.devMem = s.devMem ∧ s1.hostMem = s.hostMem ∧
        (∀ v x, (s1.tile v).scratch.byte x =
          if v = u ∧ off ≤ x ∧ x < off + n * m then h.data.extractLsb' (8 * (x - off)) 8 else (s.tile v).scratch.byte x) ∧
        rcvLoop s t r port eFlag cls (fuel + 1) = if h.kind = 1 then .ok (s1, .done) else rcvLoop s1 t r port eFlag cls fuel)

/-- STREAM PORTS (R126, R190, R271-R274). -/
def Obligations.StreamPorts : Prop := Parts.EndOfStream ∧ Parts.SentWords ∧ Parts.ReceivedWords ∧ Parts.ReceivedWord

/-- A `gath` or a `scat`, and what its tokens share (R275, R276). -/
def rmwWords (w gv : BitVec 1) (gval gi gr oc : BitVec 4) (slot sc : BitVec 2) (nov : BitVec 1) :
    List (Instr × Engine × Option (BitVec 4) × Option (BitVec 4) × Bool) :=
  [(.gath w gv gval gi gr slot oc sc nov, .L, if nov = 1 then none else some gval, some gr, true),
   (.scat w gv gval gi slot oc sc, .S, some gval, none, false)]

/-- THE FIRST STEP of a gather or a scatter (R275, R276): it sends one token for each element, in walk order, with the element's
home and operand, and runs on until they are applied. -/
def Parts.TokensSent : Prop :=
  ∀ (w gv : BitVec 1) (gval gi gr oc : BitVec 4) (slot sc : BitVec 2) (nov : BitVec 1) (s : State),
    ∀ f ∈ rmwWords w gv gval gi gr oc slot sc nov, ∀ (v : Option Tlr) (x : Tlr) (r : Option Tlr) (spans : List Span)
      (home : Nat → Nat × Nat) (val : Nat → Nat),
      let e := f.2.1
      let s1 := (if e = .L ∧ sc ≠ 0 then acquire s s.here else s).onProg s.here e fun p => { p with begun := true }
      let n := match v with
        | none => Tlr.count x
        | some v => min (Tlr.count x) (Tlr.count v)
      let size := elemBytes (Tlr.fmt (if e = .L then r.getD x else v.getD x))
      s.progOf s.here e = .start → rmwPlan s s.here e f.2.2.1 gi f.2.2.2.1 = .ok (v, x, r, spans) →
      guards s s.here spans = .ok s → s1.classHeld s.here e oc = false → 0 < n →
      (∀ k, k < n → ∃ a, readSide s1 s.here e { r := x, host := none } k = .ok a ∧
        (v = none → val k = 0) ∧ (∀ vr, v = some vr → readSide s1 s.here e { r := vr, host := none } k = .ok (val k)) ∧
        tokenHome s1 s.here (BitVec.ofNat 64 a) size = .ok (home k) ∧
        ((home k).1 = s.here → (s1.tile s.here).subsBad = false ∧ lapsedAt (s1.tile s.here) (home k).2 size = none)) →
      ∃ t, exec f.1 s = .next t ∧ sameMemory s t ∧ t.tokens = s.tokens ++ (List.range n).map fun k =>
        { src := s.here, eng := e, entry := s.focus.entry, home := (home k).1, offset := (home k).2, slot := slot.toNat,
          cls := oc, size := size, operand := val k, gather := f.2.2.2.2, elem := k }

/-- THE LATER STEPS (R268, R278): once all tokens are sent, the command waits until they are applied; then it is complete, a `scat`
with SC after its release, or it raises the refusal that a token met. -/
def Parts.TokensDone : Prop :=
  ∀ (w gv : BitVec 1) (gval gi gr oc : BitVec 4) (slot sc : BitVec 2) (nov : BitVec 1) (s : State),
    ∀ f ∈ rmwWords w gv gval gi gr oc slot sc nov, ∀ (v : Option Tlr) (x : Tlr) (r : Option Tlr) (spans : List Span),
      let e := f.2.1
      let pr := s.progOf s.here e
      let n := match v with
        | none => Tlr.count x
        | some v => min (Tlr.count x) (Tlr.count v)
      rmwPlan s s.here e f.2.2.1 gi f.2.2.2.1 = .ok (v, x, r, spans) → pr.begun = true →
      ((pr.tokErr.isSome = true ∨ n ≤ pr.tokens) → tokensOut s s.here e = true →
        exec f.1 s = .next (s.onEntry s.here e fun q => { q with phase := .running })) ∧
      (∀ c info, pr.tokErr = some (c, info) → tokensOut s s.here e = false → exec f.1 s = trapsCmd e s c info) ∧
      (pr.tokErr = none → n ≤ pr.tokens → tokensOut s s.here e = false →
        (e = .L ∨ sc = 0 → ∃ t, exec f.1 s = performs e s t ∧ sameMemory s t) ∧
        (e = .S → sc ≠ 0 →
          let s0 := if pr.done then s else
            (s.onProg s.here .S fun p => { p with done := true, stamp := s.stamp }).onTile s.here fun tl => { tl with sStamp := s.stamp }
          (∀ s1, releaseCmd s0 s.here .S sc.toNat = .ok s1 → exec f.1 s = performs .S s s1) ∧
          (∀ s1, releaseCmd s0 s.here .S sc.toNat = .error (.wait s1) →
            exec f.1 s = .next (s1.onEntry s.here .S fun q => { q with phase := .running })) ∧
          (∀ s1, releaseCmd s0 s.here .S sc.toNat = .error (.back s1) →
            exec f.1 s = .next (s1.onEntry s.here .S fun q => { q with phase := .queued }))))

/-- A TOKEN IS APPLIED at its home in one step (R276-R278, R311): the element takes the value that the RMW node's operation gives, or
without a node the operand of a `scat` and its old value for a `gath`; the result of a `gath` goes to its element of GR, and one
beyond GR's window nowhere; with a poisoned line, or an error in the home's publisher table, nothing is written and the command raises MEMERR. -/
def Parts.TokenApplied : Prop :=
  ∀ (s : State) (i : Nat) (k : RmwToken), s.tokens[i]? = some k → tokenFirst s.tokens i = true → k.size ∈ [1, 2, 4, 8] →
    let old := (s.tile k.home).scratch.readNat k.offset k.size
    let new := rmwOp (tokenOp (s.tile k.home) k).1 (tokenOp (s.tile k.home) k).2 k.gather old k.operand
    let stored (v x : Nat) : Byte := if v = k.home ∧ k.offset ≤ x ∧ x < k.offset + k.size
      then BitVec.ofNat 8 (new / 2 ^ (8 * (x - k.offset))) else (s.tile v).scratch.byte x
    let s0 := s.focused k.src k.entry
    ((s.tile k.home).rmwNode k.slot = none → new = if k.gather then old else k.operand) ∧
    (poisoned (s.tile k.home).poison k.offset k.size 64 = false → (s.tile k.home).pubsBad = false →
      (k.gather = false → ∃ t, exec (.rmwTokenApply i) s = .next t ∧ t.tokens = s.tokens.eraseIdx i ∧ t.devMem = s.devMem ∧
        ∀ v x, (t.tile v).scratch.byte x = stored v x) ∧
      (k.gather = true → ∀ (q : QEntry) (w gv : BitVec 1) (gval gi gr oc : BitVec 4) (slot sc : BitVec 2) (nov : BitVec 1) (r : Tlr),
        s0.entryOf k.src k.eng = some q → q.nest = none → decode q.word = .ok (.gath w gv gval gi gr slot oc sc nov) →
        cmdDesc s0 k.src k.eng gr = .ok r → elemBits (Tlr.fmt r) = 8 * k.size →
        (Tlr.count r ≤ k.elem → ∃ t, exec (.rmwTokenApply i) s = .next t ∧ t.tokens = s.tokens.eraseIdx i ∧
          ∀ v x, (t.tile v).scratch.byte x = stored v x) ∧
        (∀ so nib ug og, k.elem < Tlr.count r → Tlr.elem r k.elem true = .place so nib →
          homeOfOffset s k.src k.eng (Tlr.base r) so = .scratch ug og →
          (s.tile ug).pubsBad = false → ∃ t, exec (.rmwTokenApply i) s = .next t ∧ t.tokens = s.tokens.eraseIdx i ∧ t.devMem = s.devMem ∧
            ∀ v x, (t.tile v).scratch.byte x = if v = ug ∧ og ≤ x ∧ x < og + k.size
              then BitVec.ofNat 8 (old / 2 ^ (8 * (x - og))) else stored v x))) ∧
    (poisoned (s.tile k.home).poison k.offset k.size 64 = true ∨ (s.tile k.home).pubsBad = true →
      ∃ t, exec (.rmwTokenApply i) s = .next t ∧ t.tokens = s.tokens.eraseIdx i ∧ sameMemory s t ∧
        (∀ q, s0.entryOf k.src k.eng = some q → q.prog.tokErr = none →
          ((t.focused k.src k.entry).progOf k.src k.eng).tokErr = some (.MEMERR, 0)))

/-- ONE TOKEN IS SENT (R276, R363): for its element's home, with the operand; one for a byte of the tile's own lapsed region is refused
with LAPSED, and with an error in the tile's subscriber table any for its own bytes with MEMERR (R380). -/
def Parts.OneToken : Prop :=
  ∀ (s : State) (t : Nat) (c : RmwCmd) (k a u off v : Nat) (r : Tlr), c.value = some r →
    readSide s t c.eng { r := c.index, host := none } k = .ok a → readSide s t c.eng { r := r, host := none } k = .ok v →
    tokenHome s t (BitVec.ofNat 64 a) c.size = .ok (u, off) →
    ((u = t → (s.tile t).subsBad = false ∧ lapsedAt (s.tile t) off c.size = none) →
      ∃ s', sendToken s t c k = .ok s' ∧ sameMemory s s' ∧ s'.tokens = s.tokens ++
        [{ src := t, eng := c.eng, entry := s.focus.entry, home := u, offset := off, slot := c.slot, cls := c.cls,
           size := c.size, operand := v, gather := c.gather, elem := k }]) ∧
    (u = t → (s.tile t).subsBad = true → sendToken s t c k = .error (.mem (.refuse .MEMERR) (BitVec.ofNat 64 a))) ∧
    (∀ j, u = t → (s.tile t).subsBad = false → lapsedAt (s.tile t) off c.size = some j →
      sendToken s t c k = .ok (s.onProg t c.eng fun p => { p with tokErr := some (.LAPSED, BitVec.ofNat 14 j) }))

/-- `pfx` (R279): its checks, and no memory changes. -/
def Parts.Prefetch : Prop :=
  ∀ (w gv : BitVec 1) (g : BitVec 4) (s : State) (r : Tlr), cmdDesc s s.here .L g = .ok r →
    (Tlr.legal r = false → exec (.pfx w gv g) s = trapsCmd .L s .RSVD 0) ∧
    (Tlr.legal r = true → (canonical (Tlr.base r) = false ∨ spaceOf (Tlr.base r) ≠ 0) →
      exec (.pfx w gv g) s = trapsCmd .L s .ASPACE 0) ∧
    (Tlr.legal r = true → canonical (Tlr.base r) = true → spaceOf (Tlr.base r) = 0 →
      ∃ t, exec (.pfx w gv g) s = performs .L s t ∧ sameMemory s t)

/-- ROUTED GATHER AND SCATTER, AND PREFETCH (R275-R279). -/
def Obligations.GatherScatter : Prop :=
  Parts.TokensSent ∧ Parts.TokensDone ∧ Parts.TokenApplied ∧ Parts.OneToken ∧ Parts.Prefetch

/-- The three `nest` words. -/
def nestWord (e : Engine) (w : BitVec 4) (nb : BitVec 4) (off : BitVec 15) : Option Instr :=
  match e with
  | .C => none
  | .L => if w.getLsbD 2 = false ∧ w.getLsbD 0 = false
      then some (.lNest (w.extractLsb' 3 1) (w.extractLsb' 1 1) nb off) else none
  | .X => some (.xNest (w.extractLsb' 3 1) (w.extractLsb' 2 1) (w.extractLsb' 1 1) (w.extractLsb' 0 1) nb off)
  | .S => if w.getLsbD 2 = false ∧ w.getLsbD 0 = false
      then some (.sNest (w.extractLsb' 3 1) (w.extractLsb' 1 1) nb off) else none

/-- A NEST BEGINS (R144, R234, R235, R280, R299): a body that R144 refuses is ILLOP; its block is read, behind a token of its engine that is
still to write it, and checked; the wait tokens are popped, and the descriptors captured once, of which one that the body names and
that holds an error is MEMERR (R380). -/
def Parts.NestBegins : Prop :=
  ∀ (e : Engine) (w nb : BitVec 4) (off : BitVec 15) (i : Instr) (s : State) (q : QEntry),
    nestWord e w nb off = some i → s.entryOf s.here e = some q →
    (q.badNest = true → exec i s = trapsCmd e s .ILLOP 0) ∧
    (q.badNest = false → q.nest = none →
      let a := 64 * off.toNat
      let block : Line := BitVec.ofNat 512 ((s.tile s.here).scratch.readNat a 64)
      let caps := if q.caps.isEmpty then (s.tile s.here).captureAll else q.caps
      (bandStart < a + 64 → exec i s = trapsCmd e s .PERM 0) ∧
      (a + 64 ≤ bandStart → s.ownToken s.here e s.here a 64 = true →
        exec i s = .next (s.onEntry s.here e fun k => { k with phase := .running })) ∧
      (a + 64 ≤ bandStart → s.ownToken s.here e s.here a 64 = false →
        (poisoned (s.tile s.here).poison a 64 64 = true → exec i s = trapsCmd e s .MEMERR 0) ∧
        (poisoned (s.tile s.here).poison a 64 64 = false →
          (blockLegal block = false → exec i s = trapsCmd e s .RSVD 0) ∧
          (blockLegal block = true → guards s s.here [ownSpan s s.here a 64 true false] = .ok s →
            let s1 := (if q.popped then s else s.onTile s.here (·.popWaits e w)).onEntry s.here e fun k => { k with popped := true }
            (bodyCaptured q caps = false → exec i s = .next (trapCommand s1 s.here e .MEMERR 0)) ∧
            (bodyCaptured q caps = true → exec i s = .next ((s1.onEntry s.here e fun k =>
                { k with caps := caps, prog := .start,
                         nest := some { block := block, point := 0, body := 0, started := false, popped := false, wgive := none } }).onEntry
                  s.here e fun k => { k with phase := .running }))))))

/-- A NEST GOES ON (R141, R144, R226, R235, R280, R369): one replay at each step, in the order of the points, its wait tokens popped but for a
retry; none while the nest holds a give push, but under a lull sequence; after the last, and the write phase of a replayed `wld`, it is
performed. -/
def Parts.NestReplays : Prop :=
  ∀ (e : Engine) (w nb : BitVec 4) (off : BitVec 15) (i : Instr) (s : State) (q : QEntry) (n : NestState),
    nestWord e w nb off = some i → s.entryOf s.here e = some q → q.badNest = false → q.nest = some n →
    (blockPoints n.block ≤ n.point → (n.wgive = none → exec i s = performs e s s) ∧ (n.wgive.isSome = true → exec i s = .next s)) ∧
    (∀ word j, n.point < blockPoints n.block → q.body[n.body]? = some word → decode word = .ok j → isNest word = false →
      (n.started = true → ∀ s2, exec j s = .next s2 → exec i s = .next (afterReplay s2 s.here e n word)) ∧
      (n.started = false →
        (q.owed ≠ 0 → (s.tile s.here).lull = .none → exec i s = .next s) ∧
        (q.owed = 0 ∨ (s.tile s.here).lull ≠ .none →
          (mayStart s s.here e q word n.popped = false → exec i s = .next s) ∧
          (mayStart s s.here e q word n.popped = true → replayBreak s s.here e q n = none →
            let n1 := { n with started := true, popped := true }
            let s1 := (if n.popped then s else s.onTile s.here (·.popWaits e (tokOf word))).onEntry s.here e fun q =>
              { q with phase := .running, nest := some n1, prog := .start }
            ∀ s2, exec j s1 = .next s2 → exec i s = .next (afterReplay s2 s.here e n1 word)))))

/-- NESTS (R141, R144, R226, R234, R235, R280, R299, R369). -/
def Obligations.Nests : Prop := Parts.NestBegins ∧ Parts.NestReplays

/-! ### Commands of X -/

/-- What a command of X that computes leaves alone: every memory, every register of C, every descriptor, the weight latch and the token
FIFOs. -/
def xFrame (s t : State) : Prop :=
  sameMemory s t ∧ ∀ v, (t.tile v).x = (s.tile v).x ∧ (t.tile v).g = (s.tile v).g ∧ (t.tile v).latch = (s.tile v).latch ∧
    (t.tile v).actW = (s.tile v).actW ∧ (t.tile v).tokLX = (s.tile v).tokLX ∧ (t.tile v).tokSX = (s.tile v).tokSX ∧
    (t.tile v).rowCfg = (s.tile v).rowCfg ∧ (t.tile v).zflags = (s.tile v).zflags

/-- Every element of an operand that X reads in `bits` bits can be read: none lies in a poisoned line. -/
def readsAll (s : State) (r : Tlr) (bits : Nat) : Prop :=
  ∀ k i : Int, ∃ v, readElem s s.here .X r bits (Tlr.resolveAt r (Tlr.coordsAt r k i) false) = .ok v

/-- MATRIX PRODUCTS (R216-R221, R254-R256): a reserved pairing is ILLOP, a weight matrix beyond the latch's lines RANGE; otherwise the
products are added row by row to a copy of the bank, which is committed with the flags, and nothing else changes. They complete
where the tile holds no error and their operands can be read. -/
def Parts.Products : Prop :=
  ∀ (wl ws gl gs : BitVec 1) (ga gi : BitVec 4) (acc : BitVec 3) (af wf : BitVec 2) (ix iw zs clr : BitVec 1) (rb : BitVec 2) (s : State),
    let tl := s.tile s.here
    ((4 < acc.toNat ∨ pairing af wf = none) →
      exec (.mma wl ws gl gs ga gi acc af wf ix iw zs clr) s = trapsCmd .X s .ILLOP 0 ∧
      exec (.mmas wl ws gl gs ga acc af wf zs clr rb) s = trapsCmd .X s .ILLOP 0 ∧
      exec (.mmat wl ws gl gs ga acc af wf zs clr rb) s = trapsCmd .X s .ILLOP 0) ∧
    (∀ a idx spans g limit, mmaPlan s s.here ga gi acc af wf ix = .ok (a, idx, spans) → pairing af wf = some (g, limit) →
      ((limit < Tlr.win a 0 ∨ activeLw tl < Tlr.win a 0 * linesPerRow wf) →
        exec (.mma wl ws gl gs ga gi acc af wf ix iw zs clr) s = trapsCmd .X s .RANGE 0) ∧
      (Tlr.win a 0 ≤ limit → Tlr.win a 0 * linesPerRow wf ≤ activeLw tl → guards s s.here spans = .ok s →
        let m := match idx with
          | some r => min 64 (Tlr.count r)
          | none => if 1 ≤ Tlr.rank a then min 64 (Tlr.win a 1) else 1
        ∀ rows t, mmaRows s s.here (Tlr.win a 0) idx iw m = .ok rows →
          runProduct s s.here acc.toNat a { af := (aFormat af).getD 3, wf := wf, group := g, zs := zs == 1 } (clr == 1) rows = .ok t →
          exec (.mma wl ws gl gs ga gi acc af wf ix iw zs clr) s = performs .X s t ∧ xFrame s t) ∧
      (Tlr.win a 0 ≤ limit → Tlr.win a 0 * linesPerRow wf ≤ activeLw tl → guards s s.here spans = .ok s → tl.badRegs = [] →
        readsAll s a (elemBits ((aFormat af).getD 3)) →
        (∀ r, idx = some r → ∀ i, i < 64 → ∃ v, readElem s s.here .X r (if iw = 1 then 32 else 16) (Tlr.elem r i false) = .ok v) →
        ∃ t, exec (.mma wl ws gl gs ga gi acc af wf ix iw zs clr) s = performs .X s t ∧ xFrame s t)) ∧
    (∀ a spans gen grp limit, sparsePlan s s.here ga acc af wf = .ok (a, spans) → readyGen s s.here = .ok gen →
      pairing af wf = some (grp, limit) → ∀ b, gen.built = some b → guards s s.here spans = .ok s →
      let c : ProdCfg := { af := (aFormat af).getD 3, wf := wf, group := grp, zs := zs == 1 }
      (activeLw tl < b.nc * linesPerRow wf →
        exec (.mmas wl ws gl gs ga acc af wf zs clr rb) s = trapsCmd .X (setGen s s.here gen) .RANGE 0) ∧
      (b.nc * linesPerRow wf ≤ activeLw tl → tl.badRegs = [] → readsAll s a (elemBits c.af) →
        ∃ t, exec (.mmas wl ws gl gs ga acc af wf zs clr rb) s = performs .X s t ∧ xFrame s t) ∧
      (gen.inv = true → activeLw tl < b.nr * linesPerRow wf →
        exec (.mmat wl ws gl gs ga acc af wf zs clr rb) s = trapsCmd .X (setGen s s.here gen) .RANGE 0) ∧
      (gen.inv = true → b.nr * linesPerRow wf ≤ activeLw tl → tl.badRegs = [] → readsAll s a (elemBits c.af) →
        ∃ t, exec (.mmat wl ws gl gs ga acc af wf zs clr rb) s = performs .X s t ∧ xFrame s t) ∧
      (b.nc * linesPerRow wf ≤ activeLw tl → ∀ t,
        runProduct (setGen s s.here gen) s.here acc.toNat a c (clr == 1) ((List.range 64).map fun i =>
          (i, if 64 * rb.toNat + i < b.nr then (b.forward (64 * rb.toNat + i)).map fun (k : Nat) =>
            ({ w0 := k, w1 := (64 * rb.toNat + i : Nat), row := k } : Product) else [])) = .ok t →
        exec (.mmas wl ws gl gs ga acc af wf zs clr rb) s = performs .X s t ∧ xFrame s t) ∧
      (gen.inv = false → exec (.mmat wl ws gl gs ga acc af wf zs clr rb) s = trapsCmd .X (setGen s s.here gen) .NONINV 0) ∧
      (gen.inv = true → b.nr * linesPerRow wf ≤ activeLw tl → ∀ t,
        runProduct (setGen s s.here gen) s.here acc.toNat a c (clr == 1) ((List.range 64).map fun i =>
          (i, if 64 * rb.toNat + i < b.nc then (b.transposed (64 * rb.toNat + i)).map fun (k : Nat) =>
            ({ w0 := (64 * rb.toNat + i : Nat), w1 := k, row := k } : Product) else [])) = .ok t →
        exec (.mmat wl ws gl gs ga acc af wf zs clr rb) s = performs .X s t ∧ xFrame s t))

/-- ONE GROUP OF PRODUCTS (R49, R220, R260): each element of the row takes what `addGroup` gives of its old value and the group's
products, and the flags are ORed; under ZS a group whose A elements all lie in flagged blocks is passed over, with ZNF if its weights hold
an infinity or a NaN; an error in a weight line that it reads is MEMERR (R380). -/
def Parts.ProductGroup : Prop :=
  ∀ (s : State) (t : Nat) (ga : Tlr) (c : ProdCfg) (row : List Nat) (fl : FpFlags) (g : List Product) (a : Product → Nat),
    let tl := s.tile t
    let skipped := c.zs = true ∧ ∀ p ∈ g, zeroFlagged s t ga p = true
    (skipped → (c.wf = 3 ∨ weightsBad tl c g = false →
        groupRow s t ga c (row, fl) g = .ok (row, if weightsSpecial tl c g then fl ||| flagZNF else fl)) ∧
      (c.wf ≠ 3 → weightsBad tl c g = true → groupRow s t ga c (row, fl) g = .error (.refuse .MEMERR))) ∧
    (¬ skipped → (∀ p ∈ g, readElem s t .X ga (elemBits c.af) (Tlr.resolveAt ga (Tlr.coordsAt ga p.w0 p.w1) false) = .ok (a p)) →
      (weightsBad tl c g = true → groupRow s t ga c (row, fl) g = .error (.refuse .MEMERR)) ∧
      (weightsBad tl c g = false →
        let sum (acc j : Nat) : Flagged := addGroup acc (g.map fun p =>
          (decodeVal c.af (a p), decodeVal (wFormat c.wf) (weightAt tl c.wf p.row j)))
        ∃ out, groupRow s t ga c (row, fl) g = .ok out ∧ out.1.length = row.length ∧
          (∀ j (h : j < row.length), out.1[j]? = some (sum row[j] j).1) ∧
          ∀ k, k < 6 → (out.2.getLsbD k = true ↔ fl.getLsbD k = true ∨
            ∃ j, ∃ h : j < row.length, (sum row[j] j).2.getLsbD k = true)))

/-- The real number that a finite value stands for; 0 for an infinity and a NaN. -/
def ratOf (v : FVal) : Rat :=
  match v with
  | .num n m e => (if n then -1 else 1) * (m : Rat) * (2 : Rat) ^ e
  | _ => 0

/-- A product of zero and infinity. -/
def zeroTimesInf (p : FVal × FVal) : Bool := (p.1.isZero && p.2.isInf) || (p.1.isInf && p.2.isZero)

/-- A product of operands that are not NaNs, one of them infinite and neither zero: an infinity of the sign given. -/
def infProduct (neg : Bool) (p : FVal × FVal) : Bool :=
  !p.1.isNan && !p.2.isNan && (p.1.isInf || p.2.isInf) && !zeroTimesInf p && ((p.1.sign ^^ p.2.sign) == neg)

/-- WHAT A GROUP GIVES (R49, R50): the exact sum of the accumulator and the products, rounded once by RNE under the IEEE rule; the
canonical NaN where a NaN or an invalid case occurs, and NV for an invalid case or a signalling NaN; an infinity of one sign; and a zero sum
is −0 only where every term is −0. -/
def Parts.GroupSum : Prop :=
  ∀ (acc : Nat) (ps : List (FVal × FVal)),
    let a := decodeSigned 0 acc
    let r := addGroup acc ps
    let inf (neg : Bool) : Prop := a = .inf neg ∨ ∃ p ∈ ps, infProduct neg p = true
    let invalid := (∃ p ∈ ps, zeroTimesInf p = true) ∨ (inf true ∧ inf false)
    let isnan := a.isNan = true ∨ ∃ p ∈ ps, p.1.isNan = true ∨ p.2.isNan = true
    let exact : Rat := ratOf a + (ps.map fun p => ratOf p.1 * ratOf p.2).sum
    (isnan ∨ invalid → r.1 = 0x7FC00000) ∧
    (r.2.getLsbD 3 = true ↔ invalid ∨ a.isSnan = true ∨ ∃ p ∈ ps, p.1.isSnan = true ∨ p.2.isSnan = true) ∧
    (¬ (isnan ∨ invalid) → (inf false → r = (0x7F800000, 0)) ∧ (inf true → r = (0xFF800000, 0)) ∧
      (¬ inf true → ¬ inf false →
        (exact ≠ 0 → ∃ n m e, 0 < m ∧ ratOf (.num n m e) = exact ∧ r = roundFinite 0 0 0 n m e) ∧
        (exact = 0 → r = (if a.isZero && a.sign && ps.all (fun p => (p.1.isZero || p.2.isZero) && (p.1.sign ^^ p.2.sign))
          then 0x80000000 else 0, 0))))

/-- THE ROWS OF A PRODUCT (R216, R220, R256): each row named is its old row, or zeros under CLR, with its products added in groups of G;
a row not named changes only by CLR, and no other bank changes. -/
def Parts.ProductRows : Prop :=
  ∀ (s s' : State) (t bank : Nat) (ga : Tlr) (c : ProdCfg) (clr : Bool) (rows : List (Nat × List Product)),
    (rows.map (·.1)).Nodup → (∀ r ∈ rows, r.1 < 64) → runProduct s t bank ga c clr rows = .ok s' →
    let old (i : Nat) : List Nat := (List.range 64).map fun j => if clr then 0 else accAt (s.tile t) bank i j
    (∀ i, i < 64 → ((∀ r ∈ rows, r.1 ≠ i) → ∀ j (h : j < (old i).length), accAt (s'.tile t) bank i j = (old i)[j]) ∧
      (∀ ps, (i, ps) ∈ rows → ∃ fl out, groupRows s t ga c (old i, fl) (chunks c.group ps) = .ok out ∧
        ∀ j (h : j < out.1.length), accAt (s'.tile t) bank i j = out.1[j] % 2 ^ 32)) ∧
    (∀ b i j, b ≠ bank → i < 64 → j < 64 → accAt (s'.tile t) b i j = accAt (s.tile t) b i j)

/-- MATRIX PRODUCTS of X (R49, R216-R221, R254-R260). -/
def Obligations.MatrixProducts : Prop := Parts.Products ∧ Parts.ProductGroup ∧ Parts.GroupSum ∧ Parts.ProductRows

/-- THE WEIGHT LATCH (R222-R227): a `wld` reads its rows and starts a write phase of the inactive half; the half and its line count
change when that ends, and the active half never does; the gives of a `wld` that a nest replays are made then (R235); `wswap` exchanges the
halves, and waits for a write phase. -/
def Obligations.WeightLatch : Prop :=
  ∀ (wl ws gl gs : BitVec 1) (gw : BitVec 4) (port : BitVec 2) (sf : BitVec 3) (km1 : BitVec 8) (s : State),
    let tl := s.tile s.here
    (tl.wpend.isSome → exec (.wswap wl ws gl gs) s = .next (s.onEntry s.here .X fun q => { q with phase := .running }) ∧
      exec (.wld wl ws gl gs gw sf) s = .next (s.onEntry s.here .X fun q => { q with phase := .running })) ∧
    (tl.wpend = none →
      exec (.wswap wl ws gl gs) s = performs .X s (s.onTile s.here fun tl => { tl with actW := !tl.actW }) ∧
      encode (.wswap wl ws gl gs) = some (2#2 ++ wl ++ ws ++ gl ++ gs ++ 4#4 ++ 0#22) ∧
      encode (.wswap 0 0 0 0) = some 0x81000000#32 ∧
      (sFormat sf = none → exec (.wld wl ws gl gs gw sf) s = trapsCmd .X s .ILLOP 0 ∧
        exec (.wldPort wl ws gl gs port sf km1) s = trapsCmd .X s .ILLOP 0) ∧
      (∀ r sp f rows, wldPlan s s.here gw sf = .ok (r, sp) → guards s s.here sp = .ok s → sFormat sf = some f →
        let kw := if 1 ≤ Tlr.rank r then Tlr.win r 1 else 1
        (List.range kw).mapM (fun (k : Nat) => (List.range (min (Tlr.win r 0) 64)).mapM fun (j : Nat) =>
          readElem s s.here .X r (elemBits f) (Tlr.resolveAt r (Tlr.coordsAt r j k) false)) = .ok rows →
        exec (.wld wl ws gl gs gw sf) s = performs .X s (startWrite s s.here f kw rows) ∧
        xFrame s (startWrite s s.here f kw rows) ∧ ((startWrite s s.here f kw rows).tile s.here).wpend.isSome) ∧
      (∀ f, sFormat sf = some f → km1.toNat + 1 ≤ (if sf = 2 then 128 else 256) → s.progOf s.here .X = .start →
        tGet 0 tl.cfgErr port.toNat = 0 → ∀ s2, takeWords (s.onProg s.here .X fun p => { p with begun := true }) s.here port.toNat
          (portWords f (km1.toNat + 1)) = (s2, true) →
        exec (.wldPort wl ws gl gs port sf km1) s = performs .X s (startWrite s2 s.here f (km1.toNat + 1)
          ((List.range (km1.toNat + 1)).map (portRow f ((s2.progOf s.here .X).words.map (·.data))))))) ∧
    (∀ bytes lines, tl.wpend = some (bytes, lines) → tl.qX.find? (fun q => tl.inWritePhase q) = none →
      tl.qX.find? (fun q => (q.nest.bind (·.wgive)).isSome) = none →
      (∀ e ∈ bytes, inactiveBase tl ≤ e.1 ∧ e.1 < inactiveBase tl + 64 * lines) →
      ∃ t, exec (.wldWritePhaseEnd s.here) s = .next t ∧ (t.tile s.here).wpend = none ∧
        (t.tile s.here).actW = tl.actW ∧ (∀ v, v ≠ s.here → t.tile v = s.tile v) ∧ sameMemory s t ∧
        (∀ x, tGet 0 (t.tile s.here).latch x = if inactiveBase tl ≤ x ∧ x < inactiveBase tl + 64 * lines
          then tGet 0 bytes x else tGet 0 tl.latch x) ∧
        activeLw (t.tile s.here) = activeLw tl ∧ (if tl.actW then (t.tile s.here).lw0 else (t.tile s.here).lw1) = lines) ∧
    (∀ bytes lines q n g, tl.wpend = some (bytes, lines) → tl.qX.find? (fun q => tl.inWritePhase q) = none →
      tl.qX.find? (fun q => (q.nest.bind (·.wgive)).isSome) = some q → q.nest = some n → n.wgive = some g → q.owed = 0 →
      ∃ t, exec (.wldWritePhaseEnd s.here) s = .next t ∧ (t.tile s.here).wpend = none ∧ sameMemory s t ∧
        (t.tile s.here).tokXL = tl.tokXL + (if g.getLsbD 1 ∧ tl.tokXL < 8 then 1 else 0) ∧
        (t.tile s.here).tokXS = tl.tokXS + (if g.getLsbD 0 ∧ tl.tokXS < 8 then 1 else 0) ∧
        ∀ k ∈ (t.tile s.here).qX, k.id = q.id → k.nest = some { n with wgive := none } ∧
          (k.owed = 0 ↔ (g.getLsbD 1 = true → tl.tokXL < 8) ∧ (g.getLsbD 0 = true → tl.tokXS < 8)))

/-- THE ACCUMULATORS (R228-R232): `accclr` makes every element of its banks +0 and leaves the other banks; `scacc`, `accst` and `accld` make
their checks, then scale, store or load their elements, with the flags ORed in as they complete: an `accst` after its release. -/
def Obligations.Accumulators : Prop :=
  ∀ (wl ws gl gs : BitVec 1) (mask : BitVec 5) (ga gb : BitVec 4) (acc : BitVec 3) (f1 clrp : BitVec 1) (efmt oc : BitVec 4)
    (rm : BitVec 3) (sat : BitVec 2) (s : State),
    let tl := s.tile s.here
    (mask = 0 → exec (.accclr wl ws gl gs mask) s = trapsCmd .X s .ILLOP 0) ∧
    (mask ≠ 0 → ∃ t, exec (.accclr wl ws gl gs mask) s = performs .X s t ∧ xFrame s t ∧
      ∀ b i j, i < 64 → j < 64 → accAt (t.tile s.here) b i j = if b < 5 ∧ mask.getLsbD b then 0 else accAt tl b i j) ∧
    (3 < acc.toNat → exec (.scacc wl ws gl gs ga gb acc f1 clrp) s = trapsCmd .X s .ILLOP 0) ∧
    (∀ ra rb sp sa sb, scaccPlan s s.here ga gb acc = .ok (ra, rb, sp) → guards s s.here sp = .ok s →
      scales s s.here ra f1 = .ok sa → scales s s.here rb f1 = .ok sb → tl.badAt (opmAcc acc.toNat 0) 16384 = false →
      tl.badAt (opmAcc 4 0) 16384 = false →
      ∃ t, exec (.scacc wl ws gl gs ga gb acc f1 clrp) s = performs .X s t ∧ xFrame s t ∧
        (∀ i j x y, sa[i]? = some x → sb[j]? = some y → accAt (t.tile s.here) acc.toNat i j =
          (scaccElem (accAt tl acc.toNat i j) (accAt tl 4 i j) x y).1 % 2 ^ 32) ∧
        (clrp = 1 → ∀ i j, i < 64 → j < 64 → accAt (t.tile s.here) 4 i j = 0)) ∧
    (∀ r sp, accPlan s s.here ga acc rm sat (efmt ≠ 6 && efmt ≠ 15) false = .ok (r, sp) → guards s s.here sp = .ok s →
      let i (sc : BitVec 2) : Instr := .accst wl ws gl gs ga acc efmt rm sat sc oc
      let ends (s3 : State) (fl : FpFlags) (sc : BitVec 2) : Prop :=
        (∀ s4, releaseCmd s3 s.here .X (sc.toNat + 1) = .ok s4 →
          exec (i sc) s = performs .X s (addFlags (showX s4 s.here (sc.toNat + 1)) s.here fl)) ∧
        (∀ s4, releaseCmd s3 s.here .X (sc.toNat + 1) = .error (.wait s4) →
          exec (i sc) s = .next (s4.onEntry s.here .X fun q => { q with phase := .running })) ∧
        (∀ s4, releaseCmd s3 s.here .X (sc.toNat + 1) = .error (.back s4) →
          exec (i sc) s = .next (s4.onEntry s.here .X fun q => { q with phase := .queued }))
      ((s.progOf s.here .X).done = false → accstBad tl r acc.toNat (movePlaces r) = false →
        ∀ s2 fl, accstElems s s.here r acc.toNat efmt.toNat rm.toNat sat.toNat oc 0 (movePlaces r) = .ok (s2, fl) →
          let s3 := s2.onProg s.here .X fun p => { p with begun := true, done := true, flags := fl }
          exec (i 0) s = performs .X s (addFlags s3 s.here fl) ∧ ∀ sc : BitVec 2, sc ≠ 0 → ends s3 fl sc) ∧
      ((s.progOf s.here .X).done = true → ∀ sc : BitVec 2, sc ≠ 0 → ends s (s.progOf s.here .X).flags sc)) ∧
    (∀ r sp, accPlan s s.here ga acc rm sat (efmt ≠ 15) true = .ok (r, sp) → guards s s.here sp = .ok s →
      ∀ w, accldElems s s.here r acc.toNat efmt.toNat rm.toNat sat.toNat { acc := tl.acc, flags := 0 } (movePlaces r) = .ok w →
        ∃ t, exec (.accld wl ws gl gs ga acc efmt rm sat 0 oc) s = performs .X s t ∧ xFrame s t ∧
          (t.tile s.here).acc = w.acc ∧ (t.tile s.here).fflags = tl.fflags ||| w.flags)

/-- THE ROW'S COMMANDS (R197-R204): `ecfg` loads 160 bytes and `ecfg.st` stores them; `emode` replaces the MODE entries that its token
names, and a token that R204 refuses is ILLOP; an `erow` makes its checks, runs its words, and writes its output. -/
def Parts.RowCommands : Prop :=
  ∀ (wl ws gl gs : BitVec 1) (off : BitVec 15) (port : BitVec 2) (gin gout ga gb : BitVec 4) (sam sbm : BitVec 2) (nout : BitVec 1) (s : State),
    let tl := s.tile s.here
    let a := 64 * off.toNat
    (bandStart < a + 160 → exec (.ecfg wl ws gl gs off) s = trapsCmd .X s .PERM 0 ∧ exec (.ecfgSt wl ws gl gs off) s = trapsCmd .X s .PERM 0) ∧
    (a + 160 ≤ bandStart →
      (guards s s.here [ownSpan s s.here a 160 true false] = .ok s → poisoned tl.poison a 160 64 = false →
        exec (.ecfg wl ws gl gs off) s = performs .X s (s.onTile s.here fun tl =>
          (tl.loadRowConfig (tl.scratch.readNat a 160)).clearBad 0x220000 0xA0)) ∧
      (guards s s.here [ownSpan s s.here a 160 false true] = .ok s → tl.badAt 0x220000 0xA0 = false →
        (tl.pubsBad = true → exec (.ecfgSt wl ws gl gs off) s = trapsCmd .X s .MEMERR 0) ∧
        (tl.pubsBad = false → exec (.ecfgSt wl ws gl gs off) s =
          performs .X s (scratchWrite s s.here a (natBytes 160 (rowConfigNat tl)) 0 true true)))) ∧
    (a + 64 ≤ bandStart → guards s s.here [ownSpan s s.here a 64 true false] = .ok s → poisoned tl.poison a 64 64 = false →
      let v := tl.scratch.readNat a 64
      ((∃ k, k < 16 ∧ tokenEntryOk (tokenEntry v k) = false) → exec (.emode wl ws gl gs off) s = trapsCmd .X s .ILLOP 0) ∧
      ((∀ k, k < 16 → tokenEntryOk (tokenEntry v k) = true) → ∃ t, exec (.emode wl ws gl gs off) s = performs .X s t ∧
        sameMemory s t ∧ ∀ k, k < 16 → tGet 0 (t.tile s.here).rowCfg k =
          if 2 ^ 31 ≤ tokenEntry v k then BitVec.ofNat 32 (tokenEntry v k % 2 ^ 31) else tGet 0 tl.rowCfg k)) ∧
    (tGet 0 tl.cfgErr port.toNat = 0 →
      (tl.inFifo port.toNat = [] →
        exec (.emodePort wl ws gl gs port) s = .next (s.onEntry s.here .X fun q => { q with phase := .running })) ∧
      (∀ h rest, tl.inFifo port.toNat = h :: rest → h.isData = false → exec (.emodePort wl ws gl gs port) s = performs .X s s) ∧
      (∀ h rest, tl.inFifo port.toNat = h :: rest → h.isData = true →
        (∀ k, k < 16 → tokenEntryOk (tokenEntry h.data.toNat k) = true) →
        ∃ t, exec (.emodePort wl ws gl gs port) s = performs .X s t ∧ (t.tile s.here).inFifo port.toNat = rest ∧
          ∀ k, k < 16 → tGet 0 (t.tile s.here).rowCfg k = if 2 ^ 31 ≤ tokenEntry h.data.toNat k
            then BitVec.ofNat 32 (tokenEntry h.data.toNat k % 2 ^ 31) else tGet 0 tl.rowCfg k)) ∧
    (let pa : SidePort := { mode := sam.toNat, field := ga }
     let pb : SidePort := { mode := sbm.toNat, field := gb }
     let i : Instr := .erow wl ws gl gs gin gout ga gb sam sbm nout
     (tl.badAt 0x220000 0xA0 = false → rowConfigOk tl (pa.mode ≠ 0) (pb.mode ≠ 0) = false → exec i s = trapsCmd .X s .ILLOP 0) ∧
     (∀ rc spans, erowPlan s s.here gin gout pa pb (nout == 1) = .ok (rc, spans) → s.progOf s.here .X = .start →
       (sam = 2 → tGet 0 tl.cfgErr (ga.toNat % 4) = 0) → (sbm = 2 → tGet 0 tl.cfgErr (gb.toNat % 4) = 0) →
       guards s s.here spans = .ok s → ∀ t,
       erowWords (s.onProg s.here .X fun p => { p with begun := true }) s.here pa pb rc 0 (Tlr.words rc.gin) = .ok t →
       exec i s = performs .X s t))

/-- ONE WORD OF AN `erow` without side ports, or one that has waited at a `tee` lane and keeps its side words (R191, R192, R199, R210, R213): its
word goes through the lanes, whose registers and flags it leaves; an error in a lane register that was read is MEMERR; where a lane's
port is full the word waits there, with nothing of it done. -/
def Parts.RowWord : Prop :=
  ∀ (s : State) (t w : Nat) (f g : BitVec 4) (rc : RowRecords) (up sa sb : Line),
    let pr := s.progOf t .X
    pr.pinned = some (up, sa, sb) ∨ (pr.pinned = none ∧ windowWord s t .X rc.gin w = .ok up ∧ sa = 0 ∧ sb = 0) →
    let r := rowWalk (s.tile t) pr.tees up sa sb
    let run := erowWord s t { mode := 0, field := f } { mode := 0, field := g } rc w
    (r.bad = true → run = .error (.trap .MEMERR 0)) ∧
    (r.bad = false → r.sends = [] → ∃ s', run = .ok s' ∧ sameMemory s s' ∧ (s'.tile t).lanes = r.lanes ∧
      (s'.tile t).fflags = (s.tile t).fflags ∧ (s'.progOf t .X).pinned = none) ∧
    (r.bad = false → ∀ k p h rest, r.sends = (k, p, h) :: rest → outRoom s t p = false → (s.entryOf t .X).isSome = true →
      ∃ s', run = .error (.wait s') ∧ sameMemory s s' ∧ (s'.tile t).lanes = (s.tile t).lanes ∧
        (s'.tile t).outPorts = (s.tile t).outPorts ∧ (s'.progOf t .X).pinned = some (up, sa, sb) ∧ (s'.progOf t .X).count = pr.count)

/-- A lane that hands its word on as it is: bypassed, or `pass` (R157, R158). -/
def lanePasses (tl : Tile) (k : Nat) : Bool := laneByp tl k || (laneOp tl k).eop = 0

/-- ONE LANE (R158, R195, R199, R206): where every other lane passes the word on and none taps it, the row's output is the lane's result if
DST is `dn` or a register with `dn`, and the word itself if DST is a register alone; the register takes the result. -/
def Parts.OneLane : Prop :=
  ∀ (tl : Tile) (tees : Table Line) (w sa sb : Line) (k : Nat), k < 16 → (∀ j, j < 16 → laneTap tl j = 0) →
    (∀ j, j < 16 → j ≠ k → lanePasses tl j = true) →
    let o := laneOp tl k
    let c : LaneFmt := { fmt := o.fmt, rm := laneRm tl k, sat := laneSat tl k }
    let reg (m : Nat) : Line := tGet 0 tl.lanes (4 * k + m)
    let source (x : Nat) : Line := if x = 0 then w else if x = 1 then (if k = 0 then 0 else w)
      else if x = 2 then (if laneSide tl k = 1 then sa else sb) else reg (x % 4)
    let res := wordOp c o (source o.srcA) (source o.srcB) (reg (o.mod_ % 4))
    let r := rowWalk tl tees w sa sb
    (lanePasses tl k = true → r.out = some w ∧ r.lanes = tl.lanes ∧ r.flags = 0) ∧
    (lanePasses tl k = false → o.eop = 2 →
      r.out = (if (o.mod_ % 4 = 0 ∨ (o.mod_ % 4 = 1 ∧ source o.srcA = 0) ∨ (1 < o.mod_ % 4 ∧ source o.srcA ≠ 0)) then none else some w)) ∧
    (lanePasses tl k = false → o.eop ≠ 2 →
      r.out = some (if 4 ≤ o.dst ∧ o.dst ≤ 7 then w else res.1) ∧ r.flags = res.2 ∧
      (o.eop ≠ 0x13 → ∀ x, tGet 0 r.lanes x = if 4 ≤ o.dst ∧ x = 4 * k + o.dst % 4 then res.1 else tGet 0 tl.lanes x) ∧
      (o.eop = 0x13 → tGet 0 r.lanes (4 * k + o.mod_ % 4) = res.1))

/-- The element-wise operations, the conversions and reductions apart (R206). -/
def elementWise (eop : Nat) : Bool := !(0x24 ≤ eop && eop ≤ 0x26) && !(0x28 ≤ eop && eop ≤ 0x2A)

/-- A WORD OF AN ELEMENT-WISE OPERATION (R206, R213): element by element, with the flags of all elements. -/
def Parts.WordElements : Prop :=
  ∀ (c : LaneFmt) (o : LaneOp) (a b m : Line), elementWise o.eop = true → c.fmt ≤ 15 →
    (∀ i, i < perWord c.fmt → wordElem c.fmt (wordOp c o a b m).1 i = (elemOp c o a b m i).1 % 2 ^ elemBits c.fmt) ∧
    ∀ k, k < 6 → ((wordOp c o a b m).2.getLsbD k = true ↔ ∃ i, i < perWord c.fmt ∧ (elemOp c o a b m i).2.getLsbD k = true)

/-- Integer arithmetic of the row, as R206 names it: the operation code and its exact result. -/
def integerOps : List (Nat × (Int → Int → Int → Int)) :=
  [(0x08, fun a b _ => a + b), (0x09, fun a b _ => a - b), (0x0A, fun a b _ => a * b), (0x0B, fun a b m => a * b + m),
   (0x0C, fun a b m => a * b - m), (0x0F, fun a _ _ => (a.natAbs : Int)), (0x10, fun a _ _ => -a), (0x13, fun a _ m => m + a)]

/-- INTEGER ELEMENTS (R46, R206, R207): the exact result where the format holds it; else the nearer bound with NV, or under WRAP its low
bits without a flag. -/
def Parts.RowIntegers : Prop :=
  ∀ (c : LaneFmt) (o : LaneOp) (a b m : Line) (i : Nat) (f : Int → Int → Int → Int), inI c.fmt = true → (o.eop, f) ∈ integerOps →
    let v := f (decodeInteger c.fmt (wordElem c.fmt a i)) (decodeInteger c.fmt (wordElem c.fmt b i)) (decodeInteger c.fmt (wordElem c.fmt m i))
    let lo := (intRange c.fmt).1
    let hi := (intRange c.fmt).2.1
    let r := elemOp c o a b m i
    let got := decodeInteger c.fmt r.1
    r.1 < 2 ^ elemBits c.fmt ∧ (lo ≤ v → v ≤ hi → got = v ∧ r.2 = 0) ∧
    (c.sat ≠ 2 → (v < lo → got = lo ∧ r.2 = flagNV) ∧ (hi < v → got = hi ∧ r.2 = flagNV)) ∧
    (c.sat = 2 → got % 2 ^ elemBits c.fmt = v % 2 ^ elemBits c.fmt ∧ r.2 = 0)

/-- SELECTIONS, COMPARISONS AND BITS of integers and raw elements (R206, R207): none of them sets a flag. -/
def Parts.RowSelection : Prop :=
  ∀ (c : LaneFmt) (o : LaneOp) (a b m : Line) (i : Nat), c.fmt ≤ 15 →
    let w := elemBits c.fmt
    let x := wordElem c.fmt a i
    let y := wordElem c.fmt b i
    let z := wordElem c.fmt m i
    let r := elemOp c o a b m i
    let n := o.mod_ % 64
    let dec := decodeInteger c.fmt
    (o.eop ∈ [0x01, 0x03] → r = (x, 0)) ∧
    (o.eop = 0x04 → r = (wordElem c.fmt a (o.mod_ % perWord c.fmt), 0)) ∧
    (o.eop = 0x05 → r = (wordElem c.fmt a (y % perWord c.fmt), 0)) ∧
    (o.eop = 0x06 → r = (if m.getLsbD i then y else x, 0)) ∧
    (o.eop = 0x07 → r = (if z = 0 then y else x, 0)) ∧
    (∀ k, k < w →
      (o.eop = 0x1C → r.1.testBit k = (x.testBit k && y.testBit k)) ∧ (o.eop = 0x1D → r.1.testBit k = (x.testBit k || y.testBit k)) ∧
      (o.eop = 0x1E → r.1.testBit k = (x.testBit k ^^ y.testBit k)) ∧ (o.eop = 0x1F → r.1.testBit k = !x.testBit k) ∧
      (o.eop = 0x20 → r.1.testBit k = (decide (n ≤ k) && x.testBit (k - n))) ∧
      (o.eop = 0x21 → inI c.fmt = true →
        r.1.testBit k = if k + n < w then x.testBit (k + n) else decide ((intRange c.fmt).1 < 0) && x.testBit (w - 1))) ∧
    (o.eop ∈ [0x1C, 0x1D, 0x1E, 0x1F, 0x20, 0x21] → r.1 < 2 ^ w ∧ r.2 = 0) ∧
    (inI c.fmt = true →
      (o.eop = 0x0D → dec r.1 = min (dec x) (dec y) ∧ r.2 = 0) ∧ (o.eop = 0x0E → dec r.1 = max (dec x) (dec y) ∧ r.2 = 0) ∧
      (o.eop = 0x11 → dec r.1 = min (max (dec x) (dec y)) (dec z) ∧ r.2 = 0) ∧
      (o.eop = 0x18 → r = (if dec x = dec y then 2 ^ w - 1 else 0, 0)) ∧
      (o.eop = 0x19 → r = (if dec x < dec y then 2 ^ w - 1 else 0, 0)) ∧
      (o.eop = 0x1A → r = (if dec x ≤ dec y then 2 ^ w - 1 else 0, 0)))

/-- THE ELEMENT ROW (R190-R213): its configuration, one word through the lanes, and the operations on integers and raw elements. -/
def Obligations.ElementRow : Prop :=
  Parts.RowCommands ∧ Parts.RowWord ∧ Parts.OneLane ∧ Parts.WordElements ∧ Parts.RowIntegers ∧ Parts.RowSelection

/-! ### Rounding and conversions -/

/-- The magnitude of a number. -/
def magOf (x : Rat) : Rat := if x < 0 then -x else x

/-- Rounding mode `rm` takes the real number `x` to `r`, among the numbers of `grid`, those with an even last bit being `even`
(R39). -/
def roundsTo (grid even : Rat → Prop) (rm : Nat) (x r : Rat) : Prop :=
  grid r ∧ match rm with
  | 1 => magOf r ≤ magOf x ∧ 0 ≤ r * x ∧ ∀ y, grid y → magOf y ≤ magOf x → magOf y ≤ magOf r
  | 2 => r ≤ x ∧ ∀ y, grid y → y ≤ x → y ≤ r
  | 3 => x ≤ r ∧ ∀ y, grid y → x ≤ y → r ≤ y
  | _ => ∀ y, grid y → magOf (r - x) ≤ magOf (y - x) ∧ (magOf (y - x) = magOf (r - x) → y ≠ r → if rm = 0 then even r else magOf y ≤ magOf r)

/-- The finite numbers of a floating-point format, and those whose last significand bit is 0 (R34, R36). -/
def finiteOf (fmt : Nat) (r : Rat) : Prop :=
  ∃ b n m e, b < 2 ^ (fpFmt fmt).width ∧ decodeSigned fmt b = .num n m e ∧ ratOf (.num n m e) = r
def evenOf (fmt : Nat) (r : Rat) : Prop :=
  ∃ b n m e, b < 2 ^ (fpFmt fmt).width ∧ b % 2 = 0 ∧ decodeSigned fmt b = .num n m e ∧ ratOf (.num n m e) = r

/-- The numbers with the format's precision and no bound on the exponent, and those whose last bit is 0 (R41). -/
def unboundedOf (fmt : Nat) (r : Rat) : Prop := ∃ (j : Nat) (p : Int), j < 2 ^ ((fpFmt fmt).mbits + 1) ∧ magOf r = (j : Rat) * 2 ^ p
def unboundedEven (fmt : Nat) (r : Rat) : Prop :=
  ∃ (j : Nat) (p : Int), 2 ^ (fpFmt fmt).mbits ≤ j ∧ j < 2 ^ ((fpFmt fmt).mbits + 1) ∧ j % 2 = 0 ∧ magOf r = (j : Rat) * 2 ^ p

/-- ROUNDING TO A FLOATING-POINT FORMAT (R39, R41): `r0` is the number rounded to the precision with no bound on the exponent. Above the
largest finite value it overflows, with OF and NX and the value that the saturation rule gives; otherwise the result is the number rounded
among the format's finite values, with NX where it differs and UF where it differs and `r0` is below the smallest normal value. -/
def Parts.Rounding : Prop :=
  ∀ (fmt rm sat : Nat) (neg : Bool) (m : Nat) (e : Int), fmt ≤ 5 → rm ≤ 4 → sat ≤ 2 → 0 < m →
    let f := fpFmt fmt
    let x := ratOf (.num neg m e)
    let r := roundFinite fmt rm sat neg m e
    let big : Rat := (f.kmax : Rat) * 2 ^ f.qmax
    r.1 < 2 ^ f.width ∧ ∃ r0, roundsTo (unboundedOf fmt) (unboundedEven fmt) rm x r0 ∧
      (big < magOf r0 → r.2 = flagOF ||| flagNX ∧
        let toInf := sat ≠ 1 ∧ (rm = 0 ∨ rm = 4 ∨ (rm = 3 ∧ neg = false) ∨ (rm = 2 ∧ neg = true))
        (¬ toInf ∨ fmt = 5 → ∃ n k p, decodeSigned fmt r.1 = .num n k p ∧ ratOf (.num n k p) = if neg then -big else big) ∧
        (toInf → fmt ≠ 5 → decodeSigned fmt r.1 = if fmt = 3 then .nan false else .inf neg)) ∧
      (magOf r0 ≤ big → ∃ n k p, decodeSigned fmt r.1 = .num n k p ∧
        let y := ratOf (.num n k p)
        roundsTo (finiteOf fmt) (evenOf fmt) rm x y ∧
        r.2 = flagIf (decide (y ≠ x)) flagNX ||| flagIf (decide (y ≠ x ∧ magOf r0 < 2 ^ (1 - f.bias))) flagUF)

/-- A zero with its sign set. -/
def negZero (v : FVal) : Bool := v.isZero && v.sign

/-- Arithmetic of the row in F, as R206 names it: the operation code, its exact result, and whether an exact zero is −0 (R207). -/
def floatOps : List (Nat × (Rat → Rat → Rat → Rat) × (FVal → FVal → FVal → Bool)) :=
  let pz (x y : FVal) : Bool := (x.isZero || y.isZero) && (x.sign ^^ y.sign)
  [(0x08, fun a b _ => a + b, fun x y _ => negZero x && negZero y),
   (0x09, fun a b _ => a - b, fun x y _ => negZero x && (y.isZero && !y.sign)),
   (0x0A, fun a b _ => a * b, fun x y _ => pz x y),
   (0x0B, fun a b m => a * b + m, fun x y z => pz x y && negZero z),
   (0x0C, fun a b m => a * b - m, fun x y z => pz x y && (z.isZero && !z.sign)),
   (0x12, fun a b m => a + m * (b - a), fun x y z => negZero x && ((z.isZero || y.isZero) && (z.sign ^^ (y.sign && !y.isZero)))),
   (0x13, fun a _ m => m + a, fun x _ z => negZero z && negZero x)]

/-- FLOATING-POINT ELEMENTS (R42, R206, R207): the exact result rounded once; the canonical NaN of a NaN operand and of an invalid case,
which sets NV; minimum, maximum, sign operations and comparisons, with −0 below +0 for the first two and equal to it for the
last. -/
def Parts.RowFloats : Prop :=
  ∀ (c : LaneFmt) (o : LaneOp) (a b m : Line) (i : Nat), inF c.fmt = true →
    let x := wordElem c.fmt a i
    let y := wordElem c.fmt b i
    let z := wordElem c.fmt m i
    let vx := decodeVal c.fmt x
    let vy := decodeVal c.fmt y
    let vz := decodeVal c.fmt z
    let finite (v : FVal) : Bool := !v.isNan && !v.isInf
    let r := elemOp c o a b m i
    (∀ f nz, (o.eop, f, nz) ∈ floatOps → finite vx = true → finite vy = true → finite vz = true →
      let ex : Rat := f (ratOf vx) (ratOf vy) (ratOf vz)
      (ex ≠ 0 → ∃ n k e, 0 < k ∧ ratOf (.num n k e) = ex ∧ r = roundFinite c.fmt c.rm c.sat n k e) ∧
      (ex = 0 → r = ((fpFmt c.fmt).signBit (nz vx vy vz), 0))) ∧
    (o.eop ∈ [0x0D, 0x0E] → ((vx.isNan = true ∨ vy.isNan = true) →
        r = (canonicalNan c.fmt, flagIf (vx.isSnan || vy.isSnan) flagNV)) ∧
      (finite vx = true → finite vy = true → r.2 = 0 ∧ (r.1 = x ∨ r.1 = y) ∧
        (o.eop = 0x0D → ratOf (decodeVal c.fmt r.1) = min (ratOf vx) (ratOf vy) ∧
          ((negZero vx ∧ vy.isZero) ∨ (negZero vy ∧ vx.isZero) → negZero (decodeVal c.fmt r.1) = true)) ∧
        (o.eop = 0x0E → ratOf (decodeVal c.fmt r.1) = max (ratOf vx) (ratOf vy) ∧
          (vx.isZero ∧ vy.isZero → negZero (decodeVal c.fmt r.1) = (negZero vx && negZero vy))))) ∧
    (o.eop ∈ [0x0F, 0x10] → (vx.isNan = true → r.1 = canonicalNan c.fmt ∧ r.2 = flagIf vx.isSnan flagNV) ∧
      (vx.isNan = false → r.2 = 0 ∧ decodeVal c.fmt r.1 = if o.eop = 0x10 ∨ vx.sign = true then vx.neg else vx)) ∧
    (o.eop ∈ [0x18, 0x19, 0x1A] → ((vx.isNan = true ∨ vy.isNan = true) → r = (0, flagIf (vx.isSnan || vy.isSnan) flagNV)) ∧
      (finite vx = true → finite vy = true →
        let holds := if o.eop = 0x18 then ratOf vx = ratOf vy else if o.eop = 0x19 then ratOf vx < ratOf vy else ratOf vx ≤ ratOf vy
        (holds → r = (2 ^ elemBits c.fmt - 1, 0)) ∧ (¬ holds → r = (0, 0))))

/-- NaNs AND INFINITIES of floating-point arithmetic (R42, R207): a NaN operand gives the canonical NaN, with NV for a signalling one; a product of
zero and infinity, and a sum that holds both infinities, give it with NV, a NaN beside them or not; an infinity of one sign is the
result, with no flag. -/
def Parts.RowInfinities : Prop :=
  ∀ (c : LaneFmt) (o : LaneOp) (a b m : Line) (i : Nat), inF c.fmt = true →
    let vx := decodeVal c.fmt (wordElem c.fmt a i)
    let vy := decodeVal c.fmt (wordElem c.fmt b i)
    let vz := decodeVal c.fmt (wordElem c.fmt m i)
    let r := elemOp c o a b m i
    let nan := canonicalNan c.fmt
    let infinity (n : Bool) : Flagged := ((fpFmt c.fmt).signBit n + (fpFmt c.fmt).infBits, 0)
    let zti := zeroTimesInf (vx, vy)
    -- two terms, and whether one of them, or both, is an infinity of a sign
    let sums (p q : Bool → Bool) : Prop :=
      (∀ n, p n = true → q (!n) = true → r = (nan, flagNV)) ∧
      (∀ n, (p n || q n) = true → (p (!n) || q (!n)) = false → r = infinity n)
    let is (v : FVal) (n : Bool) : Bool := v == .inf n
    let prod (n : Bool) : Bool := infProduct n (vx, vy)
    (o.eop ∈ [0x08, 0x09, 0x0A] → (vx.isNan = true ∨ vy.isNan = true) → r = (nan, flagIf (vx.isSnan || vy.isSnan) flagNV)) ∧
    (o.eop = 0x13 → (vx.isNan = true ∨ vz.isNan = true) → r = (nan, flagIf (vx.isSnan || vz.isSnan) flagNV)) ∧
    (o.eop ∈ [0x0B, 0x0C] → (vx.isNan = true ∨ vy.isNan = true ∨ vz.isNan = true) →
      r = (nan, flagIf (vx.isSnan || vy.isSnan || vz.isSnan || zti) flagNV)) ∧
    (o.eop = 0x12 → (vx.isNan = true ∨ vy.isNan = true ∨ vz.isNan = true) →
      r = (nan, flagIf (vx.isSnan || vy.isSnan || vz.isSnan || (vx.isInf && vx == vy)) flagNV)) ∧
    (o.eop ∈ [0x08, 0x09] → vx.isNan = false → vy.isNan = false → sums (is vx) (is (if o.eop = 0x09 then vy.neg else vy))) ∧
    (o.eop = 0x13 → vx.isNan = false → vz.isNan = false → sums (is vx) (is vz)) ∧
    (o.eop = 0x0A → (zti = true → r = (nan, flagNV)) ∧ (∀ n, prod n = true → r = infinity n)) ∧
    (o.eop ∈ [0x0B, 0x0C] → vx.isNan = false → vy.isNan = false → vz.isNan = false →
      (zti = true → r = (nan, flagNV)) ∧ (zti = false → sums prod (is (if o.eop = 0x0C then vz.neg else vz)))) ∧
    (o.eop = 0x12 → vx.isNan = false → vy.isNan = false → vz.isNan = false →
      (∀ k, vx = .inf k → (vy = .inf k ∨ vz.isZero = true ∨ vz.sign = false → r = (nan, flagNV)) ∧
        (vy ≠ .inf k → vz.isZero = false → vz.sign = true → r = infinity k)) ∧
      (∀ k, vx.isInf = false → vy = .inf k →
        r = if vz.isZero = true then (nan, flagNV) else infinity (vz.sign ^^ k)) ∧
      (∀ k, vx.isInf = false → vy.isInf = false → vz = .inf k →
        r = if ratOf vx = ratOf vy then (nan, flagNV) else infinity (k ^^ decide (ratOf vy < ratOf vx))))

/-- `scale` AND `clamp` (R206, R207): a power of two, rounded once, with a byte 0xFF giving the canonical NaN; and the value between two bounds,
−0 below +0, with no flag but for a signalling NaN. -/
def Parts.ScaleAndClamp : Prop :=
  ∀ (c : LaneFmt) (o : LaneOp) (a b m : Line) (i : Nat), inF c.fmt = true →
    let x := wordElem c.fmt a i
    let y := wordElem c.fmt b i
    let z := wordElem c.fmt m i
    let vx := decodeVal c.fmt x
    let vy := decodeVal c.fmt y
    let vz := decodeVal c.fmt z
    let finite (v : FVal) : Bool := !v.isNan && !v.isInf
    let r := elemOp c o a b m i
    let nan := canonicalNan c.fmt
    (o.eop = 0x14 → i < perWord c.fmt →
      let byte := (b.extractLsb' (8 * (i / 2 ^ (o.mod_ % 8) % 64)) 8).toNat
      (byte = 0xFF ∨ vx.isNan = true → r = (nan, flagIf vx.isSnan flagNV)) ∧
      (byte ≠ 0xFF → (∀ n, vx = .inf n → r = ((fpFmt c.fmt).signBit n + (fpFmt c.fmt).infBits, 0)) ∧
        (finite vx = true →
          let ex : Rat := ratOf vx * (2 : Rat) ^ ((byte : Int) - 127)
          (ex ≠ 0 → ∃ n k e, 0 < k ∧ ratOf (.num n k e) = ex ∧ r = roundFinite c.fmt c.rm c.sat n k e) ∧
          (ex = 0 → r = ((fpFmt c.fmt).signBit vx.sign, 0))))) ∧
    (o.eop = 0x11 →
      (vx.isNan = true ∨ vy.isNan = true ∨ vz.isNan = true → r = (nan, flagIf (vx.isSnan || vy.isSnan || vz.isSnan) flagNV)) ∧
      (vx.isNan = false → vy.isNan = false → vz.isNan = false → r.2 = 0 ∧ (r.1 = x ∨ r.1 = y ∨ r.1 = z)) ∧
      (finite vx = true → finite vy = true → finite vz = true →
        ratOf (decodeVal c.fmt r.1) = min (max (ratOf vx) (ratOf vy)) (ratOf vz) ∧
        (vx.isZero → vy.isZero → vz.isZero →
          negZero (decodeVal c.fmt r.1) = ((negZero vx && negZero vy) || negZero vz))) ∧
      (finite vx = true → finite vy = true → (vz = .inf false → ratOf (decodeVal c.fmt r.1) = max (ratOf vx) (ratOf vy)) ∧
        (vz = .inf true → r.1 = z)) ∧
      (finite vz = true → vx.isNan = false → vy.isNan = false → (vx = .inf false ∨ vy = .inf false → r.1 = z) ∧
        (vx = .inf true → vy.isInf = false → ratOf (decodeVal c.fmt r.1) = min (ratOf vy) (ratOf vz))))

/-- CONVERSIONS (R43-R46, R208): the special operands of R43 and R45, integers to integers, numbers rounded once; and the elements of `cvt`,
`pack` and `unpack`. -/
def Parts.Conversions : Prop :=
  (∀ (src tgt rm sat bits : Nat), isFloat src = true → tgt ≤ 14 → rm ≤ 4 → sat ≤ 2 →
    let v := decodeVal src bits
    let f := fpFmt tgt
    let r := convert src tgt rm sat bits
    (∀ q, v = .nan q →
      (tgt ∈ [0, 1, 2, 3, 4] → r = (canonicalNan tgt, flagIf q flagNV)) ∧ (tgt = 5 → r = (0, flagNV)) ∧ (tgt = 6 → r = (0xFF, flagNV)) ∧
      (7 ≤ tgt → r = (0, flagNV))) ∧
    (∀ n, v = .inf n →
      (tgt ∈ [0, 1, 2, 4] → r = (f.signBit n + f.infBits, 0) ∧ decodeSigned tgt r.1 = .inf n) ∧
      (tgt = 3 → r = (if sat = 1 then (if n then 0xFE else 0x7E) else 0x7F, flagNV)) ∧
      (tgt = 5 → r = (if n then 0xF else 0x7, flagNV)) ∧
      (tgt = 6 → r = (if n = false ∧ sat = 1 then 0xFE else 0xFF, flagNV)) ∧
      (7 ≤ tgt → r.2 = flagNV ∧ decodeInteger tgt r.1 = if sat = 2 then 0 else if n then (intRange tgt).1 else (intRange tgt).2.1)) ∧
    (∀ n m e, v = .num n m e →
      (m = 0 → (tgt ≤ 5 → r = (f.signBit n, 0)) ∧ (tgt = 6 → r = (0xFF, flagNV)) ∧ (7 ≤ tgt → decodeInteger tgt r.1 = 0 ∧ r.2 = 0)) ∧
      (0 < m → (tgt ≤ 5 → r = roundFinite tgt rm sat n m e) ∧ (tgt = 6 → n = true → r = (0xFF, flagNV)) ∧
        (∀ k : Int, tgt = 6 → n = false → -127 ≤ k → k ≤ 127 → ratOf v = 2 ^ k → r = ((k + 127).toNat, 0)) ∧
        (7 ≤ tgt → ∃ q : Int, roundsTo (fun y => ∃ j : Int, y = j) (fun y => ∃ j : Int, y = 2 * j) rm (ratOf v) q ∧
          let lo := (intRange tgt).1
          let hi := (intRange tgt).2.1
          let nx := flagIf (decide ((q : Rat) ≠ ratOf v)) flagNX
          let got := decodeInteger tgt r.1
          (lo ≤ q → q ≤ hi → got = q ∧ r.2 = nx) ∧
          (sat = 2 → got % 2 ^ (intRange tgt).2.2 = q % 2 ^ (intRange tgt).2.2 ∧ r.2 = nx) ∧
          (sat ≠ 2 → (q < lo → got = lo ∧ r.2 = flagNV ||| nx) ∧ (hi < q → got = hi ∧ r.2 = flagNV ||| nx)))))) ∧
  (∀ (src tgt rm sat bits : Nat), isInteger src = true → tgt ≤ 14 →
    let v := decodeInteger src bits
    let r := convert src tgt rm sat bits
    let lo := (intRange tgt).1
    let hi := (intRange tgt).2.1
    (7 ≤ tgt → (lo ≤ v → v ≤ hi → decodeInteger tgt r.1 = v ∧ r.2 = 0) ∧
      (sat = 2 → decodeInteger tgt r.1 % 2 ^ (intRange tgt).2.2 = v % 2 ^ (intRange tgt).2.2 ∧ r.2 = 0) ∧
      (sat ≠ 2 → (v < lo → decodeInteger tgt r.1 = lo ∧ r.2 = flagNV) ∧ (hi < v → decodeInteger tgt r.1 = hi ∧ r.2 = flagNV))) ∧
    (tgt ≤ 5 → v ≠ 0 → r = roundFinite tgt rm sat (decide (v < 0)) v.natAbs 0)) ∧
  (∀ (c : LaneFmt) (o : LaneOp) (a b m : Line), c.fmt ≤ 14 → o.mod_ % 16 ≤ 14 →
    let tgt := o.mod_ % 16
    let nIn := perWord c.fmt
    let nOut := perWord tgt
    let el (w : Line) (i : Nat) : Nat := (convert c.fmt tgt c.rm c.sat (wordElem c.fmt w i)).1 % 2 ^ elemBits tgt
    let r := (wordOp c o a b m).1
    (o.eop = 0x24 → ∀ i, i < nOut → wordElem tgt r i = if i < nIn then el a i else 0) ∧
    (o.eop = 0x25 → 2 * elemBits tgt = elemBits c.fmt → ∀ i, i < nOut →
      wordElem tgt r i = if i < nIn then el a i else el b (i - nIn)) ∧
    (o.eop = 0x26 → elemBits tgt = 2 * elemBits c.fmt → ∀ i, i < nOut →
      wordElem tgt r i = el a (o.mod_ / 16 % 2 * nOut + i)))

/-- ROW REDUCTIONS (R209): the sum of all elements rounded once or fitted; the greatest and the least element; in element 0, the others
zero. -/
def Parts.Reductions : Prop :=
  ∀ (c : LaneFmt) (o : LaneOp) (a b m : Line), (inF c.fmt = true ∨ inI c.fmt = true) → o.eop ∈ [0x28, 0x29, 0x2A] →
    let n := perWord c.fmt
    let x (i : Nat) : Nat := wordElem c.fmt a i
    let v (i : Nat) : FVal := decodeVal c.fmt (x i)
    let d (i : Nat) : Int := decodeInteger c.fmt (x i)
    let r := wordOp c o a b m
    let r0 := wordElem c.fmt r.1 0
    (∀ i, 0 < i → i < n → wordElem c.fmt r.1 i = 0) ∧
    (inI c.fmt = true → (o.eop = 0x28 → r0 = (fitInt c.fmt c.sat ((List.range n).map d).sum).1 ∧
        r.2 = (fitInt c.fmt c.sat ((List.range n).map d).sum).2) ∧
      (o.eop ≠ 0x28 → r.2 = 0 ∧ (∃ i, i < n ∧ r0 = x i) ∧ ∀ i, i < n →
        if o.eop = 0x29 then d i ≤ decodeInteger c.fmt r0 else decodeInteger c.fmt r0 ≤ d i)) ∧
    (inF c.fmt = true → ((∃ i, i < n ∧ (v i).isNan = true) → r0 = canonicalNan c.fmt) ∧
      (r.2.getLsbD 3 = true ↔ (∃ i, i < n ∧ (v i).isSnan = true) ∨ (o.eop = 0x28 ∧ (∃ i, i < n ∧ v i = .inf true) ∧ ∃ i, i < n ∧ v i = .inf false)) ∧
      ((∀ i, i < n → (v i).isNan = false ∧ (v i).isInf = false) →
        (o.eop = 0x28 →
          let ex : Rat := ((List.range n).map fun i => ratOf (v i)).sum
          (ex ≠ 0 → ∃ g k e, 0 < k ∧ ratOf (.num g k e) = ex ∧
            r0 = (roundFinite c.fmt c.rm c.sat g k e).1 % 2 ^ elemBits c.fmt ∧ r.2 = (roundFinite c.fmt c.rm c.sat g k e).2) ∧
          (ex = 0 → r0 = (fpFmt c.fmt).signBit ((List.range n).all fun i => negZero (v i)) ∧ r.2 = 0)) ∧
        (o.eop ≠ 0x28 → r.2 = 0 ∧ (∃ i, i < n ∧ r0 = x i) ∧ ∀ i, i < n →
          if o.eop = 0x29 then ratOf (v i) ≤ ratOf (decodeVal c.fmt r0) else ratOf (decodeVal c.fmt r0) ≤ ratOf (v i))))

/-- ROUNDING, FLOATING-POINT ELEMENTS, CONVERSIONS AND REDUCTIONS of the row (R39-R46, R206-R209). -/
def Obligations.FloatElements : Prop :=
  Parts.Rounding ∧ Parts.RowFloats ∧ Parts.RowInfinities ∧ Parts.ScaleAndClamp ∧ Parts.Conversions ∧ Parts.Reductions

/-- The special functions by their operation codes (R206). -/
def specialNames : List (Nat × SpecialFn) :=
  [(0x30, .exp2), (0x31, .log2), (0x32, .rcp), (0x33, .rsqrt), (0x34, .sqrt), (0x35, .sin), (0x36, .cos), (0x37, .tanh), (0x38, .sigm)]

/-- A number below zero, −Inf among them. -/
def belowZero (v : FVal) : Bool := !v.isNan && !v.isZero && v.sign

/-- THE SPECIAL CASES (R57, R58): NaNs, zeros, infinities, negative operands of roots and logarithm, and operands of `sin` and `cos` from 2^20 on. -/
def Parts.SpecialCases : Prop :=
  ∀ (c : LaneFmt) (o : LaneOp) (a b m : Line) (i : Nat), inF c.fmt = true →
    let v := decodeVal c.fmt (wordElem c.fmt a i)
    let r := elemOp c o a b m i
    let nan := canonicalNan c.fmt
    let infinity (n : Bool) : Flagged := ((fpFmt c.fmt).signBit n + (fpFmt c.fmt).infBits, 0)
    let zero (n : Bool) : Flagged := ((fpFmt c.fmt).signBit n, 0)
    let number (q : Rat) : Prop := ∃ n k e, decodeVal c.fmt r.1 = .num n k e ∧ ratOf (.num n k e) = q ∧ r.2 = 0
    (0x30 ≤ o.eop → o.eop ≤ 0x38 → v.isNan = true → r = (nan, flagIf v.isSnan flagNV)) ∧
    (o.eop = 0x34 → ∀ n, v.isZero = true → v.sign = n → r = zero n) ∧
    (o.eop ∈ [0x31, 0x33, 0x34] → belowZero v = true → r = (nan, flagNV)) ∧
    (o.eop = 0x33 → (v.isZero = true → r = infinity v.sign) ∧ (v = .inf false → r = zero false)) ∧
    (o.eop = 0x32 → (v.isZero = true → r = infinity v.sign) ∧ (∀ n, v = .inf n → r = zero n)) ∧
    (o.eop = 0x31 → (v.isZero = true → r = infinity true) ∧ (v = .inf false → r = infinity false) ∧
      (v.isInf = false → ratOf v = 1 → r = zero false)) ∧
    (o.eop = 0x34 → v = .inf false → r = infinity false) ∧
    (o.eop = 0x30 → (v = .inf true → r = zero false) ∧ (v = .inf false → r = infinity false) ∧ (v.isZero = true → number 1)) ∧
    (o.eop = 0x35 → v.isZero = true → r = zero v.sign) ∧ (o.eop = 0x36 → v.isZero = true → number 1) ∧
    (o.eop ∈ [0x35, 0x36] → (v.isInf = true ∨ (v.isNan = false ∧ 2 ^ 20 ≤ magOf (ratOf v))) → r = (nan, flagRR)) ∧
    (o.eop = 0x37 → (v.isZero = true → r = zero v.sign) ∧ (∀ n, v = .inf n → number (if n then -1 else 1))) ∧
    (o.eop = 0x38 → (v = .inf true → r = zero false) ∧ (v = .inf false → number 1) ∧ (v.isZero = true → number (1 / 2)))

/-- `sqrt` of a number above zero (R56, R211): the number of FMT that rounding the root once under the lane's rounding mode gives, with NX where it
is not the root. -/
def Parts.SquareRoot : Prop :=
  ∀ (c : LaneFmt) (o : LaneOp) (a b m : Line) (i : Nat), inF c.fmt = true → o.eop = 0x34 → c.rm ≤ 4 →
    let v := decodeVal c.fmt (wordElem c.fmt a i)
    let r := elemOp c o a b m i
    v.isNan = false → v.isInf = false → 0 < ratOf v →
    ∃ n k e, decodeVal c.fmt r.1 = .num n k e ∧
      let y := ratOf (.num n k e)
      0 < y ∧ r.2 = flagIf (decide (y * y ≠ ratOf v)) flagNX ∧
      ∀ g, finiteOf c.fmt g → 0 ≤ g →
        (c.rm = 1 ∨ c.rm = 2 → y * y ≤ ratOf v ∧ (y < g → ratOf v < g * g)) ∧
        (c.rm = 3 → ratOf v ≤ y * y ∧ (g < y → g * g < ratOf v)) ∧
        (c.rm = 0 ∨ c.rm = 4 → (g < y → ((g + y) / 2) * ((g + y) / 2) < ratOf v) ∧ (y < g → ratOf v < ((g + y) / 2) * ((g + y) / 2)))

/-- THE OTHER RESULTS (R56, R211): `exp2` of an integer and `log2` of a power of two are exact, but for the rounding to FMT; no operand beside
the special cases gives NV or RR; and an f32 result that does not overflow is within its bound of the exact value (as fixed-point
arithmetic has it: log 8). -/
def Parts.SpecialResults : Prop :=
  ∀ (c : LaneFmt) (o : LaneOp) (a b m : Line) (i : Nat) (f : SpecialFn), inF c.fmt = true → (o.eop, f) ∈ specialNames →
    let v := decodeVal c.fmt (wordElem c.fmt a i)
    let r := elemOp c o a b m i
    (v.isNan = false → v.isInf = false →
      (∀ n : Int, f = .exp2 → ratOf v = n → -149 ≤ n → n ≤ 127 → r = roundFinite c.fmt c.rm c.sat false 1 n) ∧
      (∀ n : Int, f = .log2 → ratOf v = (2 : Rat) ^ n → n ≠ 0 → r = roundFinite c.fmt c.rm c.sat (decide (n < 0)) n.natAbs 0)) ∧
    (specialCase f v = none → r.2.getLsbD 3 = false ∧ r.2.getLsbD 4 = false ∧ r.2.getLsbD 5 = false ∧
      (decodeVal c.fmt r.1).isNan = false) ∧
    (∀ n k e, specialCase f v = none → v = .num n k e → f ≠ .sqrt → c.fmt = 0 →
      let y := nearOf f n k e
      (roundFinite 0 0 0 y.neg y.m y.e).2 &&& flagOF = 0 → withinBound f y r.1 = true)

/-- THE SPECIAL FUNCTIONS of the row (R56-R58, R206, R211). -/
def Obligations.SpecialFunctions : Prop := Parts.SpecialCases ∧ Parts.SquareRoot ∧ Parts.SpecialResults

/-- THE PATTERN GENERATOR AND THE ZERO FLAGS (R246-R253, R258, R259): `gset` sets a parameter and leaves a build due; `gld` and `grest` load and
build, `gsave` stores 256 bytes; `zscan` sets the flag of each block to whether all its values are zero, and `zclr` clears them. -/
def Obligations.GeneratorAndFlags : Prop :=
  ∀ (wl ws gl gs : BitVec 1) (nw : BitVec 5) (off : BitVec 15) (sel : BitVec 4) (imm : BitVec 16) (zf : BitVec 3) (cnt : BitVec 6)
    (blk : BitVec 12) (s : State),
    let tl := s.tile s.here
    let a := 64 * off.toNat
    let n := nw.toNat + 1
    (sel = 15 → 32 ≤ imm.toNat → exec (.gset wl ws gl gs sel imm) s = trapsCmd .X s .ILLOP 0) ∧
    ((sel ≠ 15 ∨ imm.toNat < 32) → ∃ t, exec (.gset wl ws gl gs sel imm) s = performs .X s t ∧ sameMemory s t ∧
      let g := (t.tile s.here).gen
      g.dirty = true ∧ g.store = tl.gen.store ∧ g.built = tl.gen.built ∧
      (∀ k, tGet 0 g.c k = if k = sel.toNat ∧ k < 8 then imm.setWidth 32 else tGet 0 tl.gen.c k) ∧
      (∀ k, k < 4 → tGet 0 g.o k = if sel.toNat = k + 8 then imm.signExtend 32 else tGet 0 tl.gen.o k) ∧
      (∀ k, k < 3 → g.seed.extractLsb' (16 * k) 16 = if sel.toNat = k + 12 then imm else tl.gen.seed.extractLsb' (16 * k) 16) ∧
      g.pc = if sel = 15 then imm.setWidth 8 else tl.gen.pc) ∧
    (a + 4 * n ≤ bandStart → tl.badAt 0x220100 56 = false → poisoned tl.poison a (4 * n) 64 = false →
      guards s s.here [ownSpan s s.here a (4 * n) true false] = .ok s →
      let store := (List.range n).foldl (fun m k =>
        tSet 0 m k (BitVec.ofNat 32 (tl.scratch.readNat a (4 * n) / 2 ^ (32 * k)))) ([] : Table (BitVec 32))
      (∀ g, build { tl.gen with store := store, nw := BitVec.ofNat 8 n, pc := 0 } = .ok g →
        exec (.gld wl ws gl gs nw off) s = performs .X s
          (setGen (s.onTile s.here fun tl => (tl.clearBad 0x220138 8).clearBad 0x220180 128) s.here g)) ∧
      (∀ c, build { tl.gen with store := store, nw := BitVec.ofNat 8 n, pc := 0 } = .error c →
        exec (.gld wl ws gl gs nw off) s = trapsCmd .X s c 0)) ∧
    (a + 256 ≤ bandStart →
      (tl.badAt 0x220100 0x100 = false → guards s s.here [ownSpan s s.here a 256 false true] = .ok s → tl.pubsBad = false →
        exec (.gsave wl ws gl gs off) s = performs .X s (scratchWrite s s.here a (natBytes 256 tl.gen.image) 0 true true)) ∧
      (poisoned tl.poison a 256 64 = false → guards s s.here [ownSpan s s.here a 256 true false] = .ok s →
        (∀ g, restoreGen tl.gen (tl.scratch.readNat a 256) = .ok g →
          exec (.grest wl ws gl gs off) s = performs .X s (setGen (s.onTile s.here (·.clearBad 0x220100 0x100)) s.here g)) ∧
        (∀ c, restoreGen tl.gen (tl.scratch.readNat a 256) = .error c → exec (.grest wl ws gl gs off) s = trapsCmd .X s c 0))) ∧
    (4096 ≤ blk.toNat + cnt.toNat → exec (.zclr wl ws gl gs cnt blk) s = trapsCmd .X s .RANGE 0) ∧
    (blk.toNat + cnt.toNat < 4096 → 0xF80 ≤ blk.toNat + cnt.toNat → exec (.zclr wl ws gl gs cnt blk) s = trapsCmd .X s .PERM 0) ∧
    (blk.toNat + cnt.toNat < 0xF80 →
      (∃ t, exec (.zclr wl ws gl gs cnt blk) s = performs .X s t ∧ sameMemory s t ∧ ∀ k, tGet false (t.tile s.here).zflags k =
        if blk.toNat ≤ k ∧ k ≤ blk.toNat + cnt.toNat then false else tGet false tl.zflags k) ∧
      (4 < zf.toNat → exec (.zscan wl ws gl gs zf cnt blk) s = trapsCmd .X s .ILLOP 0) ∧
      (zf.toNat ≤ 4 → guards s s.here [ownSpan s s.here (512 * blk.toNat) (512 * (cnt.toNat + 1)) true false] = .ok s →
        poisoned tl.poison (512 * blk.toNat) (512 * (cnt.toNat + 1)) 64 = false →
        ∃ t, exec (.zscan wl ws gl gs zf cnt blk) s = performs .X s t ∧ sameMemory s t ∧ ∀ k, tGet false (t.tile s.here).zflags k =
          if blk.toNat ≤ k ∧ k ≤ blk.toNat + cnt.toNat then blockZero zf (tl.scratch.readBytes (512 * k) 512)
          else tGet false tl.zflags k))

/-! ### The sequencer's and the services' events -/

/-- COUNTERS FOLLOW OUTCOMES (R132, R135): FLOW_OUTCOME_TAKE moves a counter that stands at a flow word to the word that C decided, or
halts it, and counts the outcome as consumed; with no outcome the counter waits. The tile halts with its last counter, and its batches leave. -/
def Parts.OutcomeTaken : Prop :=
  ∀ (t : Nat) (e : Engine) (s : State),
    let tl := s.tile t
    let c := tl.counter e
    e ≠ .C → c.st ≠ .halted → tl.lull = .none → c.pc < tl.nwords → tGet false tl.istoreBad c.pc = false →
    isFlow (tGet 0 tl.istore c.pc) = true →
    (tl.outcomes[tl.consumed e - tl.freed]? = none → exec (.flowOutcomeTake t e) s = .next (waitAt s t e)) ∧
    (∀ o, tl.outcomes[tl.consumed e - tl.freed]? = some o →
      let s1 := s.setTile t (((tl.setCounter e (c.follow o)).consume e).freeOutcomes)
      exec (.flowOutcomeTake t e) s = .next (if (s1.tile t).allHalted then closeBatches s1 t else s1) ∧
      (∀ i, o = .goto i → (s1.tile t).counter e = { pc := i, st := .running, ended := false }) ∧
      (o = .halt → (s1.tile t).counter e = { c with st := .halted, ended := false }) ∧
      (s1.tile t).consumed e = tl.consumed e + 1)

/-- COMMANDS COMPLETE (R141): COMMAND_COMPLETE pushes the give tokens of a command whose accesses are performed and takes it from its
queue; one that a full FIFO holds back stays, with the pushes it owes, and a later push of it waits behind them. HELD_TOKEN_PUSH makes them
once there is room. A command that waits goes on where it stands. -/
def Parts.CommandsComplete : Prop :=
  ∀ (t : Nat) (e : Engine) (s : State) (q : QEntry) (tl' : Tile) (owed : BitVec 2),
    let tl := s.tile t
    let kept (tl : Tile) (f : QEntry → QEntry) : Tile := tl.setQueue e ((tl.queue e).map fun k => if k.id = q.id then f k else k)
    (tl.queue e).find? (fun k => k.id = q.id) = some q →
    (q.phase = .performed → ¬(e = .X ∧ tl.inWritePhase q = true) →
      (q.pushed = true → exec (.commandComplete t e q.id) s = .next (dropEntry s t e q.id)) ∧
      (q.pushed = false → q.owed = 0 → tl.pushGives e (giveBits q.word) = (tl', owed) →
        (owed = 0 → exec (.commandComplete t e q.id) s = .next (dropEntry (s.setTile t tl') t e q.id)) ∧
        (owed ≠ 0 → exec (.commandComplete t e q.id) s = .next ((s.setTile t tl').onTile t fun tl =>
          kept tl fun k => { k with phase := .held, owed := owed, more := q.more }))) ∧
      (q.pushed = false → q.owed ≠ 0 → exec (.commandComplete t e q.id) s = .next ((s.setTile t tl).onTile t fun tl =>
        kept tl fun k => { k with phase := .held, owed := q.owed,
                                  more := if giveBits q.word = 0 then q.more else q.more ++ [giveBits q.word] }))) ∧
    (∀ i, q.phase = .running → decode q.word = .ok i → exec (.commandComplete t e q.id) s = exec i (s.focused t q.id)) ∧
    (q.owed ≠ 0 → tl.lull ≠ .sealed → (tl.queue e).find? (fun k => k.id = q.id && k.owed ≠ 0) = some q →
      tl.pushGives e q.owed = (tl', owed) →
      (q.phase = .running → exec (.heldTokenPush t e q.id) s = .next (s.setTile t (kept tl' (·.owing owed)))) ∧
      (q.phase = .held → owed ≠ 0 → exec (.heldTokenPush t e q.id) s = .next (s.setTile t (kept tl' fun k => { k with owed := owed }))) ∧
      (q.phase = .held → owed = 0 → q.more = [] →
        ∃ u, exec (.heldTokenPush t e q.id) s = .next u ∧ (∀ k ∈ (u.tile t).queue e, k.id ≠ q.id) ∧
          (u.tile t).tokLX = tl'.tokLX ∧ (u.tile t).tokXL = tl'.tokXL ∧ (u.tile t).tokXS = tl'.tokXS ∧
          (u.tile t).tokSX = tl'.tokSX)) ∧
    (∀ o, o ≠ 0 → q.owing o = { q with owed := o }) ∧ (q.more = [] → q.owing 0 = { q with owed := 0 }) ∧
    (∀ g rest, q.more = g :: rest → q.owing 0 = { q with owed := g, more := rest })

/-- A give bit puts one token on its FIFO, which holds eight (R140): L gives to X, X to L and S, S to X. -/
def Parts.TokensPushed : Prop :=
  ∀ tl : Tile,
    (∀ n : BitVec 2, (tl.pushGives .L n).1 = (if n.getLsbD 1 ∧ tl.tokLX < 8 then { tl with tokLX := tl.tokLX + 1 } else tl)) ∧
    (∀ n : BitVec 2, (tl.pushGives .S n).1 = (if n.getLsbD 1 ∧ tl.tokSX < 8 then { tl with tokSX := tl.tokSX + 1 } else tl)) ∧
    (tl.tokXL < 8 → tl.tokXS < 8 → tl.pushGives .X 3 = ({ tl with tokXL := tl.tokXL + 1, tokXS := tl.tokXS + 1 }, 0)) ∧
    (tl.tokXL = 8 → tl.tokXS < 8 → tl.pushGives .X 3 = ({ tl with tokXS := tl.tokXS + 1 }, 2)) ∧
    ∀ e : Engine, (tl.pushGives e 0).2 = 0 ∧ (8 ≤ tl.tokLX → 8 ≤ tl.tokSX → ∀ n, e = .L ∨ e = .S → (tl.pushGives e n).1 = tl)

/-- THE TILE HALTS (R136, R312): TILE_DRAIN_END, once every counter is halted and nothing is in flight or can start (of a command whose push a full
FIFO holds, log 13). Tokens or commands left
over are discarded, and C takes TOKERR at its `halt`. -/
def Parts.DrainEnds : Prop :=
  ∀ (t h : Nat) (s : State),
    let tl := s.tile t
    tl.haltedAt = some h → tl.allHalted = true → tl.drained = false → tl.lull = .none → tl.escalated = false → drainOver s t = true →
    (leftovers tl = 0 → exec (.tileDrainEnd t) s = .next (s.setTile t { tl with drained := true, xOld := [] })) ∧
    (leftovers tl ≠ 0 → exec (.tileDrainEnd t) s =
      .next (deliverTrap (s.setTile t { tl with tokLX := 0, tokXL := 0, tokXS := 0, tokSX := 0, qL := [], qX := [], qS := [] })
        t .C .TOKERR (leftovers tl) h)) ∧
    (leftovers tl = 0 ↔ tl.tokLX = 0 ∧ tl.tokXL = 0 ∧ tl.tokXS = 0 ∧ tl.tokSX = 0 ∧ tl.qL = [] ∧ tl.qX = [] ∧ tl.qS = [])

/-- The parts above, together. -/
def Obligations.EngineEvents : Prop :=
  Parts.OutcomeTaken ∧ Parts.CommandsComplete ∧ Parts.TokensPushed ∧ Parts.DrainEnds

/-- AN ESCALATED TRAP STOPS ITS CONTEXT (R370): TRAP_ESCALATION takes the first report; every counter of the context's tiles halts, what
is queued and every token are discarded, the generators stop, and the run fails with CTXFAULT and the trap in RESULT; without a run, the
next binding will. The context stays placed, and its scratchpads, registers and accumulators keep their values. One that has been sealed
since is stopped as its record holds it; a report whose context is no more is dropped. What became of waiting barriers and open phases there
is the model's choice (log 24). -/
def Parts.Escalates : Prop :=
  ∀ (s : State) (r : Report) (rest : List Report) (n : Nat) (c : Context),
    s.reports = r :: rest → r.ctx = some n → tFind s.ctxs n = some c →
    (c.gen ≠ r.gen → exec .trapEscalation s = .next { s with reports := rest }) ∧
    (c.gen = r.gen → ∃ u c', exec .trapEscalation s = .next u ∧ tFind u.ctxs n = some c' ∧
      u.reports = rest.filter (fun k => !(k.ctx = some n && k.gen = r.gen)) ∧
      (∀ t ∈ c.tiles, (u.tile t).allHalted = true ∧ (u.tile t).qL = [] ∧ (u.tile t).qX = [] ∧ (u.tile t).qS = [] ∧
        (u.tile t).outcomes = [] ∧ (u.tile t).tokLX = 0 ∧ (u.tile t).tokXL = 0 ∧ (u.tile t).tokXS = 0 ∧ (u.tile t).tokSX = 0) ∧
      (∀ i, (c'.generator i).active = false) ∧ c'.phase = c.phase ∧ c'.row = c.row ∧ c'.col = c.col ∧
      (∀ t, (u.tile t).scratch = (s.tile t).scratch ∧ (u.tile t).x = (s.tile t).x ∧ (u.tile t).g = (s.tile t).g ∧
        (u.tile t).acc = (s.tile t).acc ∧ (u.tile t).latch = (s.tile t).latch ∧ (u.tile t).lanes = (s.tile t).lanes) ∧
      (∀ t, t ∉ c.tiles → u.tile t = s.tile t) ∧ u.hostMem = s.hostMem ∧ (c.sealedRec = none → u.devMem = s.devMem) ∧
      (∀ k, c.sealedRec = some k → tFind s.seals n = sealsRead s n c.key k →
        c'.sealedRec = some { k with tiles := k.tiles.map fun (i, tl) => (i, tl.stop) }) ∧
      (∀ run, c.run = some run → run.fail = none → c'.run = some
        { run with fail := some { status := 4, epid := 0, addr := 0, result := reportResult r }, stopped := true }) ∧
      (c.run = none → c.heldFault = none → c'.heldFault = some (reportResult r)))

/-- PAGE SERVICE (R371): FAULT_SERVICE takes the oldest page fault and answers its waiter: the page is there by now, or it is backed
with the lowest free page of the function's pool, or there is no backing. -/
def Parts.PageService : Prop :=
  ∀ (s : State) (f : PageFault) (rest : List PageFault) (c : Context),
    let s1 := { s with pageFaults := rest }
    s.pageFaults = f :: rest → tFind s.ctxs f.ctx = some c → c.gen = f.gen →
    (∀ b, translate s1 c f.va 1 false false = .ok b → exec .faultService s = .next (answerPage s1 f.who f.va true)) ∧
    (∀ v r, translate s1 c f.va 1 false false = .error (.page v) → c.rangeOf f.va 1 = some r →
      (∀ s2, backPage s1 c r f.va = some s2 → exec .faultService s = .next (answerPage s2 f.who f.va true)) ∧
      (backPage s1 c r f.va = none → exec .faultService s = .next (answerPage s1 f.who f.va false)))

/-- A page that fault service backs is the lowest that the function's pool holds and none of its contexts maps; it is written with zeros under
the range's key, and is entered in the page map as present; the ports forget what they held of it (R288, R290, R371). -/
def Parts.PageBacked : Prop :=
  ∀ (s s2 : State) (c : Context) (r : RangeEntry) (va : Nat), backPage s c r va = some s2 →
    let f := s.function c.func
    let base := f.poolBase.toNat
    ∃ a, s.poolPage c.func = some a ∧
      base ≤ a ∧ a + 65536 ≤ base + f.poolSize.toNat ∧ (a - base) % 65536 = 0 ∧ (s.usedPages c.func).contains a = false ∧
      (∀ k, base + 65536 * k < a → (s.usedPages c.func).contains (base + 65536 * k) = true) ∧
      let page := r.vbase + (va - r.vbase) / 65536 * 65536
      s2 = shootDown (devWrite (zeroPage s (if r.plain then 0 else c.key) a) 0 (r.pbase + 8 * ((va - r.vbase) / 65536))
        (natBytes 8 (a + 1))) r.ctx c page (page + 65536) ∧
      ∀ x, a ≤ x → x < a + 65536 → (zeroPage s (if r.plain then 0 else c.key) a).devMem.byte x = 0

/-- THE HOST ANSWERS A PAGE REQUEST (R270, R285): HOST_PAGE_RESPONSE. A granted page is held in the ATS cache and its waiter goes on; a
refused one ends what waits on it with STREAMFAULT; an answer to a request that is no more is discarded. -/
def Parts.HostPages : Prop :=
  ∀ (s : State) (r : HostRequest) (granted : Bool),
    let s1 := { s with hostRequests := s.hostRequests.erase r }
    (s.hostRequests.find? (fun k => k.number = r.number) = some r →
      ((tFind s.ctxs r.ctx).map (·.gen) = some r.gen →
        exec (.hostPageResponse r.number true) s =
          .next (answerPage { s1 with atsCache := tSet false s1.atsCache (atsKey r.space r.iova) true } r.who r.iova true) ∧
        exec (.hostPageResponse r.number false) s = .next (refuseHostPage s1 r 1)) ∧
      ((tFind s.ctxs r.ctx).map (·.gen) ≠ some r.gen → exec (.hostPageResponse r.number granted) s = .next s1)) ∧
    (∀ n i, r.who = .generator n i → ∀ ok, answerPage s r.who r.iova ok =
      if ok then s.onGen n i (fun g => { g with page := none }) else endStream s n i 1 (s.epidOf n i) r.iova)

/-- BATCHES, UPDATES AND SPILL RINGS (R345, R348, R355-R357, R361, R364): an open batch leaves whole; an update in order is applied, spilled while
the subscriber is sealed away, or discarded where the subscription is not active; the policy core answers the oldest `sub` that asks. -/
def Parts.UpdatesArrive : Prop :=
  ∀ (t pub k : Nat) (s : State) (f : FlitInFlight),
    (tGet [] (s.tile t).batches pub ≠ [] → exec (.batchWindowExpiry t pub) s = .next (closeBatch s t pub)) ∧
    (s.flits[k]? = some f → flitFirst s.flits k = true →
      let s1 := { s with flits := s.flits.eraseIdx k }
      let e := tGet SubEntry.zero (s.tile f.subTile).subs f.subIdx
      (∀ n, (s.tile f.subTile).resyncAt f.subIdx = some n → exec (.updateApply k) s =
        .next (if f.flit.line < n then applyFlit s1 f.subTile e f.flit else s1)) ∧
      ((s.tile f.subTile).resyncAt f.subIdx = none →
      (e.state ≠ 1 → exec (.updateApply k) s = .next s1) ∧
      (e.state = 1 → (s.tile f.subTile).lull ≠ .sealed → exec (.updateApply k) s = .next (applyFlit s1 f.subTile e f.flit)) ∧
      (e.state = 1 → (s.tile f.subTile).lull = .sealed → 1024 * e.spillK.toNat ≤ e.spillCnt.toNat →
        ∃ u, exec (.updateApply k) s = .next u ∧
          tGet SubEntry.zero (u.tile f.subTile).subs f.subIdx = { e with state := 2 } ∧ sameMemory s u) ∧
      (e.state = 1 → (s.tile f.subTile).lull = .sealed → e.spillCnt.toNat < 1024 * e.spillK.toNat →
        ∃ u, exec (.updateApply k) s = .next u ∧
          tGet SubEntry.zero (u.tile f.subTile).subs f.subIdx = { e with spillCnt := e.spillCnt + 1 } ∧ sameMemory s u))) ∧
    (∀ rest n, s.spillAsks = t :: rest → (s.tile t).cwait = some (.spill n none) →
      exec (.spillRingAllocation t) s = .next ({ s with spillAsks := rest }.onTile t fun tl =>
        { tl with cwait := some (.spill n (some (decide (s.spillUsed t + n ≤ 16384)))) }))

/-- WORDS ON THE PHASE WIRES (R328, R330): PHASE_WORD_ARRIVAL moves the oldest word that a tile has sent in a direction behind what waits in its
neighbour's input; a forwarded input passes its word on to every output that selects it, once each has room. -/
def Parts.PhaseWords : Prop :=
  ∀ (t u : Nat) (dir : Dir) (s : State) (w : BitVec 64) (rest : List (BitVec 64)),
    let d := dirNum dir
    neighbour t d = some u → (s.tile t).forward = [] →
    (tGet [] (s.tile t).linkOut d = w :: rest → (s.tile u).forward = [] → ∃ v, exec (.phaseWordArrival t dir) s = .next v ∧
      tGet [] (v.tile t).linkOut d = rest ∧ tGet [] (v.tile u).linkIn ((d + 2) % 4) = tGet [] (s.tile u).linkIn ((d + 2) % 4) ++ [w] ∧
      sameMemory s v ∧ ∀ x, x ≠ t → x ≠ u → v.tile x = s.tile x) ∧
    (tGet [] (s.tile t).linkOut d = [] → exec (.phaseWordArrival t dir) s = .next s) ∧
    (∀ i o, i < 4 → o < 4 → tGet [] (s.tile u).linkIn i = w :: rest → (∀ k, k < 4 → (s.tile u).source k = if k = o then i + 1 else 0) →
      s.linkFill u o < 8 → tGet [] ((forwardWord s u i).tile u).linkIn i = rest ∧
        tGet [] ((forwardWord s u i).tile u).linkOut o = tGet [] (s.tile u).linkOut o ++ [w])

/-- An update's bytes are those that its flit marks, at their places in the line (R354, R355). -/
def Parts.FlitBytes : Prop :=
  ∀ (s : State) (u : Nat) (e : SubEntry) (f : Flit), tSorted 0 f.bytes = true →
    ∀ x, ((applyFlit s u e f).tile u).scratch.byte x =
      if e.soff.toNat + 64 * f.line ≤ x then (tFind f.bytes (x - (e.soff.toNat + 64 * f.line))).getD ((s.tile u).scratch.byte x)
      else (s.tile u).scratch.byte x

/-- The services' events, each of which leads to a next state whatever stands there. -/
def serviceEvents (t n : Nat) (dir : Dir) (granted : Bool) : List Instr :=
  [.trapEscalation, .faultService, .hostPageResponse n granted, .phaseWordArrival t dir, .batchWindowExpiry t n, .updateApply n,
   .spillRingAllocation t]

/-- EVERY SERVICE EVENT COMPLETES; one that has nothing to act on leaves the state. -/
def Parts.ServicesComplete : Prop :=
  ∀ (t n : Nat) (dir : Dir) (granted : Bool) (s : State),
    (∀ i ∈ serviceEvents t n dir granted, ∃ u, exec i s = .next u) ∧
    (s.reports = [] → exec .trapEscalation s = .next s) ∧ (s.pageFaults = [] → exec .faultService s = .next s) ∧
    (s.hostRequests = [] → exec (.hostPageResponse n granted) s = .next s) ∧
    (tGet [] (s.tile t).batches n = [] → exec (.batchWindowExpiry t n) s = .next s) ∧
    (s.flits = [] → exec (.updateApply n) s = .next s) ∧ (s.spillAsks = [] → exec (.spillRingAllocation t) s = .next s)

/-- The parts above, together. -/
def Obligations.Services : Prop :=
  Parts.ServicesComplete ∧ Parts.Escalates ∧ Parts.PageService ∧ Parts.PageBacked ∧ Parts.HostPages ∧ Parts.PhaseWords ∧ Parts.UpdatesArrive ∧
  Parts.FlitBytes

/-! ### The Front -/

/-- A record held for a completion queue, with no context waiting for it. -/
def heldFor (cq : Nat) (body : BitVec 256) : HeldRecord := { cq := cq, body := body, ctok := false, cirq := false, ctx := none }

/-- DOORBELLS (R82): a 4-byte write at 8·QID for a submission queue of the function puts the count in the shadow and sets the pending bit
of a queue without a slot; a count further ahead than the ring holds stops the queue, with V_RING on its DCQ. A completion queue's
doorbell frees room. Any other write in the page, one to a queue of another function among them, is dropped and counted in DBDROP. The
model's choices (log 26): a write of 4 bytes at an offset that is neither 8q nor 8q + 4 is dropped; the doorbell of a completion queue
without a slot sets its pending bit; a V_RING record has RUNTAG 0. -/
def Parts.Doorbells : Prop :=
  ∀ (func q off n : Nat) (count : BitVec 32) (s : State),
    (∀ k, q < 4096 → tFind s.subQs q = some k → k.ring.func = func →
      ((count - k.ring.count).toNat ≤ k.ring.size → ∃ u, exec (.doorbellWrite func (8 * q) 4 count) s = .next u ∧
        tFind u.subQs q = some { k with ring := { k.ring with shadow := count } } ∧ u.held = s.held ∧
        (q ∈ u.pendingQs ∨ s.mapped q = true) ∧ u.functions = s.functions ∧ sameMemory s u ∧
        ∀ j, j ≠ q → tFind u.subQs j = tFind s.subQs j) ∧
      (k.ring.size < (count - k.ring.count).toNat → k.ring.stopped = false →
        ∃ u, exec (.doorbellWrite func (8 * q) 4 count) s = .next u ∧
        tFind u.subQs q = some { k with ring := { k.ring with shadow := count, stopped := true } } ∧
        u.held = s.held ++ [heldFor k.ring.dcq (recordBody (.queue q) 0 (Status.plain .V_RING))])) ∧
    (∀ r, 32 ≤ q → q < 4096 → tFind s.subQs q = none → tFind s.compQs q = some r → r.func = func →
      (r.count - count).toNat ≤ r.size → ∃ u, exec (.doorbellWrite func (8 * q) 4 count) s = .next u ∧
        tFind u.compQs q = some { r with shadow := count } ∧ (q ∈ u.pendingQs ∨ s.mapped q = true)) ∧
    (∀ r, func < 32 → tFind s.compQs func = some r → r.func = func → (r.count - count).toNat ≤ r.size →
      ∃ u, exec (.doorbellWrite func (8 * func + 4) 4 count) s = .next u ∧ tFind u.compQs func = some { r with shadow := count } ∧
        (func ∈ u.pendingQs ∨ s.mapped func = true)) ∧
    (off < 32768 → (n ≠ 4 ∨ (off % 8 ≠ 0 ∧ off % 8 ≠ 4) ∨
        (off % 8 = 0 ∧ tFind s.subQs (off / 8) = none ∧ tFind s.compQs (off / 8) = none) ∨
        (off % 8 = 0 ∧ ∃ k, tFind s.subQs (off / 8) = some k ∧ k.ring.func ≠ func) ∨
        (off % 8 = 0 ∧ tFind s.subQs (off / 8) = none ∧ ∃ r, tFind s.compQs (off / 8) = some r ∧ (off / 8 < 32 ∨ r.func ≠ func)) ∨
        (off % 8 = 4 ∧ (off / 8 ≠ func ∨ ∀ r, tFind s.compQs (off / 8) = some r → r.func ≠ func))) →
      ∃ u, exec (.doorbellWrite func off n count) s = .next u ∧ (u.function func).dbDrop = (s.function func).dbDrop + 1 ∧
        u.subQs = s.subQs ∧ u.compQs = s.compQs ∧ u.pendingQs = s.pendingQs)

/-- FETCH (R78, R85): PACKET_FETCH takes one to eight packets from the head of a mapped queue, in ring order, and the head moves past
them. A packet whose FIFO is full is not taken, nor any behind it (R95, R98). -/
def Parts.Fetches : Prop :=
  ∀ (q : Nat) (s : State) (k : SubQueue) (u : SlotUse),
    tFind s.subQs q = some k → s.slots.find? (fun u => u.queue = q) = some u → u.quiescing = false → k.ring.stopped = false →
    k.ring.count ≠ k.ring.shadow → ringReady s k.ring = true →
    (fifoFull s (ringPacket s k.ring) = true → exec (.packetFetch q) s = .next s) ∧
    (fifoFull s (ringPacket s k.ring) = false → ∃ t n, exec (.packetFetch q) s = .next t ∧ 1 ≤ n ∧ n ≤ 8 ∧
      tFind t.subQs q = some { k with ring := { k.ring with count := k.ring.count + BitVec.ofNat 32 n } } ∧
      t.fetched = s.fetched ++ (List.range n).map (fun i =>
        (.queue q, ringPacket s { k.ring with count := k.ring.count + BitVec.ofNat 32 i })) ∧
      t.slots = s.slots ∧ (k.ring.hwb = 0 → sameMemory s t) ∧
      (k.ring.hwb ≠ 0 → k.ring.host = true → ∀ i, i < 4 →
        (t.host (hostSpace k.ring.func k.ring.pasid)).byte (k.ring.hwb + i) =
          (k.ring.count + BitVec.ofNat 32 n).extractLsb' (8 * i) 8))

/-- SLOTS (R83, R84): the oldest pending queue takes a free slot, or that of the idle queue whose doorbell is oldest; when no mapped queue
is idle, the queue that has held its slot longest is quiesced, and gives its slot up once none of its packets is on its way. -/
def Parts.SlotsTurn : Prop :=
  ∀ (s : State) (q : Nat) (rest : List Nat) (u : SlotUse) (us : List SlotUse), s.pendingQs = q :: rest →
    (s.slots.length < 64 → exec .queueMap s =
      .next { s with slots := s.slots ++ [{ queue := q, quiescing := false }], pendingQs := rest }) ∧
    (64 ≤ s.slots.length → ∀ v, s.oldestIdle = some v → (s.slots.filter fun u => u.queue ≠ v).length < 64 →
      exec .queueMap s = .next { s with
        slots := (s.slots.filter fun u => u.queue ≠ v) ++ [{ queue := q, quiescing := false }], pendingQs := rest }) ∧
    (s.slots = u :: us → 64 ≤ s.slots.length → s.oldestIdle = none → s.slots.find? (·.quiescing) = none →
      exec .queueQuiesce s = .next (endQuiesce { s with slots := { u with quiescing := true } :: us } u.queue)) ∧
    (s.slots.find? (·.quiescing) = some u →
      (s.inFetch u.queue = true → exec .queueQuiesce s = .next s) ∧
      (s.inFetch u.queue = false → ∃ t, exec .queueQuiesce s = .next t ∧ t.mapped u.queue = false ∧ t.subQs = s.subQs ∧
        (s.idleQueue u.queue = false → u.queue ∈ t.pendingQs)))

/-- RECORDS (R99, R101): the oldest record of a completion queue is written at the tail of its ring, 32 bytes with PHASE inverted on each
pass, when the ring has room; its MSI-X message follows if it asks for one. With no room the record stays held. -/
def Parts.RecordsWritten : Prop :=
  ∀ (cq : Nat) (s : State) (h : HeldRecord) (r : Ring),
    s.held.find? (fun h => h.cq = cq) = some h → tFind s.compQs cq = some r → r.stopped = false → ringReady s r = true →
    (r.size ≤ (r.count - r.shadow).toNat → exec (.completionRecordWrite cq) s = .next s) ∧
    ((r.count - r.shadow).toNat < r.size → ∃ u, exec (.completionRecordWrite cq) s = .next u ∧
      tFind u.compQs cq = some { r with count := r.count + 1 } ∧ u.held = s.held.erase h ∧
      (h.ctok = false → r.host = true → ∀ i, i < 32 →
        (u.host (hostSpace r.func r.pasid)).byte (r.base + 32 * (r.count.toNat % r.size) + i) =
          (natBytes 32 (h.body.toNat + (if r.count.toNat / r.size % 2 = 0 then 2 ^ 63 else 0))).getD i 0) ∧
      (h.cirq = true → s.hostReady r.func = true → u.outbox = s.outbox ++ [.msix r.func r.msix]) ∧
      (h.cirq = false → u.outbox = s.outbox))

/-- The parts above, together. -/
def Obligations.FrontQueues : Prop := Parts.Doorbells ∧ Parts.Fetches ∧ Parts.SlotsTurn ∧ Parts.RecordsWritten

/-! ### Packets -/

/-- The Front handles a packet next: it is the oldest of its source, whose limits are known, and it passes orders 1 and 2 (R93). -/
def atFront (s : State) (src : PktSrc) (p : BitVec 512) (l : Limits) : Prop :=
  s.headOf src = some p ∧ s.limitsOf src = some l ∧ checkShape s l p = .ok ()

/-- A PACKET THAT ORDERS 1 AND 2 REFUSE (R78, R93) is taken, with its record and no other effect. -/
def Parts.Rejected : Prop :=
  ∀ (src : PktSrc) (p : BitVec 512) (s : State) (l : Limits) (r : Reject),
    s.headOf src = some p → s.limitsOf src = some l → checkShape s l p = .error r →
    exec (packetStep src p) s = .next (takePacket (rejectPacket s src p r) src)

/-- `NOP`, and the packets of the policy core that set a table: `SHARESET`, `ALLOWSET` and `LANESET` (R30, R88, R94, R102). That a
`SHARESET` that meets both conditions of R102 gets V_RSVD is the model's choice (log 26). -/
def Parts.TablePackets : Prop :=
  ∀ (src : PktSrc) (p : BitVec 512) (s : State) (l : Limits), atFront s src p l →
    (pktOpc p = 0 → exec (.nop src p) s = .next (takePacket (reply s src p .OK 0) src)) ∧
    (pktOpc p = 0x0C →
      let mn := pktField p 96 11
      let ceil := pktField p 120 11
      (ceil < mn ∨ 1024 < mn ∨ 1024 < ceil → exec (.shareset src p) s = .next (takePacket (reply s src p .V_RSVD 0) src)) ∧
      (mn ≤ ceil → ceil ≤ 1024 →
        (1024 < minSum s.shares (pktField p 8 6) mn →
          exec (.shareset src p) s = .next (takePacket (reply s src p .OVERCOMMIT 0) src)) ∧
        (minSum s.shares (pktField p 8 6) mn ≤ 1024 → exec (.shareset src p) s = .next (takePacket (reply
          { s with shares := tSet .reset s.shares (pktField p 8 6) { min := mn, weight := pktField p 112 8, ceil := ceil } }
          src p .OK 0) src)))) ∧
    (pktOpc p = 0x0D → exec (.allowset src p) s = .next (takePacket (reply (s.onFunction (pktField p 8 5) fun fn =>
      { fn with allow := tSet 0 fn.allow (pktField p 16 4) (BitVec.ofNat 256 (pktField p 96 256)) }) src p .OK 0) src)) ∧
    (pktOpc p = 0x0E → exec (.laneset src p) s = .next (takePacket (reply (s.onJet (pktField p 8 6) fun j =>
      { j with sources := tInsert j.sources (pktField p 16 3)
                { srcId := BitVec.ofNat 12 (pktField p 96 12), srcMask := BitVec.ofNat 12 (pktField p 112 12),
                  ctxmask := BitVec.ofNat 32 (pktField p 128 32) } }) src p .OK 0) src))

/-- `BIND` and `TOKEN` (R93, R95, R98): a packet that passes its checks enters its FIFO, behind what stands there, and waits while that
is full; one that fails a check is rejected with that check's status. That a `TOKEN` that enters its FIFO completes with OK on DCQ is
the model's reading (log 26). -/
def Parts.RunPackets : Prop :=
  ∀ (src : PktSrc) (p : BitVec 512) (s : State) (l : Limits), atFront s src p l →
    (pktOpc p = 1 →
      (∀ r, checkCq s l p = .error r → exec (.bind src p) s = .next (takePacket (rejectPacket s src p r) src)) ∧
      (checkCq s l p = .ok () →
        (∀ r, checkCtx s l p true = .error r → exec (.bind src p) s = .next (takePacket (rejectPacket s src p r) src)) ∧
        (∀ c im, checkCtx s l p true = .ok c → s.imageOf c = some im →
          (l.prioMax < pktField p 16 2 → exec (.bind src p) s = .next (takePacket
            (rejectPacket s src p { rep := Status.V_PRIO.on (pktCtx p), own := true }) src)) ∧
          (pktField p 16 2 ≤ l.prioMax →
            (∀ r, checkBinds s l p c im = .error r → exec (.bind src p) s = .next (takePacket (rejectPacket s src p r) src)) ∧
            (∀ args ops, checkBinds s l p c im = .ok (args, ops) →
              (16 ≤ c.fifo.length → exec (.bind src p) s = .next s) ∧
              (c.fifo.length < 16 → ∃ u b c', exec (.bind src p) s = .next u ∧ tFind u.ctxs (pktCtx p) = some c' ∧
                c'.fifo = c.fifo ++ [b] ∧ c'.run = c.run ∧ u.held = s.held ∧
                b.src = src ∧ b.runtag = BitVec.ofNat 32 (pktField p 64 32) ∧ b.cq = pktField p 32 12 ∧
                b.prio = pktField p 16 2 ∧ b.args = args ∧ b.ops = ops ∧ b.stamp = s.stamp)))))) ∧
    (pktOpc p = 2 →
      (∀ r, checkCtx s l p false = .error r → exec (.token src p) s = .next (takePacket (rejectPacket s src p r) src)) ∧
      (∀ c, checkCtx s l p false = .ok c →
        (findEp (s.endpointsOf c) (pktField p 16 16) = none →
          exec (.token src p) s = .next (takePacket (reply s src p .V_ENDPOINT 0) src)) ∧
        (∀ i e, findEp (s.endpointsOf c) (pktField p 16 16) = some (i, e) →
          (e.kind ≠ .hostToken → exec (.token src p) s = .next (takePacket (reply s src p .V_ENDPOINT 0) src)) ∧
          (e.kind = .hostToken →
            (64 ≤ (c.generator i).tokens.length → exec (.token src p) s = .next s) ∧
            ((c.generator i).tokens.length < 64 → exec (.token src p) s = .next (takePacket (reply
              (s.onGen (pktCtx p) i fun g => { g with tokens := g.tokens ++
                [BitVec.ofNat 512 (pktField p 96 32 + pktField p 64 32 * 2 ^ 32)] }) src p .OK 0) src))))))

/-- `CTXCREATE` and `CTXDESTROY` (R31, R88, R389, R428): an image that is accepted gets the lowest free context number, which the record
reports, and a new key; a refused image gives the status of the first check that fails. -/
def Parts.ContextPackets : Prop :=
  ∀ (src : PktSrc) (p : BitVec 512) (s : State) (l : Limits) (f : Nat), atFront s src p l → l.func = some f →
    (pktOpc p = 8 →
      let a := pktField p 160 64
      let len := pktField p 128 32
      (s.inAlloc f a len = false → exec (.ctxcreate src p) s = .next (takePacket (reply s src p .V_WINDOW 0) src)) ∧
      (s.inAlloc f a len = true →
        ((∀ n, n < 32 → tFind s.ctxs n ≠ none) → exec (.ctxcreate src p) s = .next (takePacket (reply s src p .NOCTX 0) src)) ∧
        (∀ n, n < 32 → tFind s.ctxs n = none → (∀ k, k < n → tFind s.ctxs k ≠ none) →
          exec (.ctxcreate src p) s = .next (takePacket (match acceptImage s f (devBytes s 0 a len) with
            | .error st => reply s src p st 0
            | .ok im => match readBacking s f im (pktField p 224 64) with
              | .error st => reply s src p st 0
              | .ok backs => createContext s src p n f im backs) src)))) ∧
    (pktOpc p = 9 →
      (∀ r, checkCtx s l p false = .error r → exec (.ctxdestroy src p) s = .next (takePacket (rejectPacket s src p r) src)) ∧
      (∀ c, checkCtx s l p false = .ok c → exec (.ctxdestroy src p) s = .next (takePacket (destroyContext s (pktCtx p)
        { src := src, runtag := BitVec.ofNat 32 (pktField p 64 32), silent := false }) src)))

/-- The context that a `CTXCREATE` makes (R28, R32, R105, R428): resident, with no run and no binding, under the generation of its number; an
image that the store already holds is shared. A key slot takes a key of a number never used before, and it is the context's. The record
on DCQ reports the context's number. No memory changes. -/
def Parts.ContextMade : Prop :=
  ∀ (s : State) (src : PktSrc) (p : BitVec 512) (n f : Nat) (im : Image) (backs : List Backing),
    let u := createContext s src p n f im backs
    ∃ c, tFind u.ctxs n = some c ∧ c.func = f ∧ c.phase = .resident ∧ c.gen = tGet 0 s.gens n ∧ c.fifo = [] ∧ c.run = none ∧
      c.backing = backs ∧ (∀ j, j ≠ n → tFind u.ctxs j = tFind s.ctxs j) ∧ sameMemory s u ∧
      ((s.images.find? fun e => e.2.measurement = im.measurement) = none → tFind u.images c.copy = some im) ∧
      (∀ e, (s.images.find? fun e => e.2.measurement = im.measurement) = some e → u.images = s.images ∧ c.copy = e.1) ∧
      (∀ k, k < 8192 → tFind s.keySlots k = none → (∀ j, j < k → tFind s.keySlots j ≠ none) →
        c.key = s.nextKey ∧ u.nextKey = s.nextKey + 1 ∧ tFind u.keySlots k = some c.key) ∧
      (∀ q, src = .queue q → u.held = s.held ++
        [heldFor (s.dcqOf src) (recordBody src (pktTag p) { Status.OK.on (recCtx p) with result := n })])

/-- `QCREATE` and `QDESTROY` (R80, R81, R88): a descriptor that passes its checks makes the queue with the lowest free ID from 32, which
the record on DCQ reports; a destroyed queue is gone once none of its packets is on its way. That a descriptor's reserved bits are
checked before its windows is the model's choice (log 26). -/
def Parts.QueuePackets : Prop :=
  ∀ (src : PktSrc) (p : BitVec 512) (s : State) (l : Limits) (f : Nat), atFront s src p l → l.func = some f →
    (pktOpc p = 0x0A →
      let a := pktField p 96 64
      (l.window (pktField p 160 2) = none → exec (.qcreate src p) s = .next (takePacket (reply s src p .V_WINDOW 0) src)) ∧
      (∀ w, l.window (pktField p 160 2) = some w →
        (w.holds a 128 = false → exec (.qcreate src p) s = .next (takePacket (reply s src p .V_WINDOW 0) src)) ∧
        (w.holds a 128 = true → s.windowReady l w a 128 = true →
          let d := bytesNat (s.windowBytes l w a 128)
          (descReserved d = false → exec (.qcreate src p) s = .next (takePacket (reply s src p .V_RSVD 0) src)) ∧
          (descReserved d = true → descLegal s f d = false →
            exec (.qcreate src p) s = .next (takePacket (reply s src p .V_WINDOW 0) src)) ∧
          (descReserved d = true → descLegal s f d = true →
            (∀ q, s.freeQueue = some q → ∃ u, exec (.qcreate src p) s = .next u ∧
              u.held = s.held ++
                [heldFor (s.dcqOf src) (recordBody src (pktTag p) { Status.OK.plain with result := q })] ∧
              (bitsOf d 123 1 = 1 → tFind u.compQs q = some (descRing d) ∧ u.subQs = s.subQs) ∧
              (bitsOf d 123 1 = 0 → tFind u.subQs q = some (descQueue d) ∧ u.compQs = s.compQs)) ∧
            (s.freeQueue = none → exec (.qcreate src p) s = .next (takePacket (reply s src p .NOQUEUE 0) src)))))) ∧
    (pktOpc p = 0x0B → 32 ≤ pktField p 64 12 → s.queueFunc (pktField p 64 12) = some f →
      (s.inFetch (pktField p 64 12) = true → exec (.qdestroy src p) s = .next s) ∧
      (s.inFetch (pktField p 64 12) = false → ∃ u, exec (.qdestroy src p) s = .next u ∧
        tFind u.subQs (pktField p 64 12) = none ∧ tFind u.compQs (pktField p 64 12) = none ∧
        u.mapped (pktField p 64 12) = false))

/-- A LAUNCH LANE'S MESSAGE (R94): one that no source entry of its port matches completes with V_SOURCE over the lane; one that passes
is handled as a packet; a refused one is rejected over the lane. -/
def Parts.LaneMessages : Prop :=
  ∀ (port : Nat) (source : BitVec 12) (p : BitVec 512) (rest : List (BitVec 512)) (s : State),
    let src := PktSrc.lane port source
    let s1 := s.onJet port fun j => { j with lane := rest }
    (s.jet port).link = .up → (s.jet port).lane = p :: rest → (s.jet port).peer = source →
    (s.limitsOf src = none → exec (.launchLaneMessage port source p) s =
      .next (replyDcq s1 src (pktTag p) (Status.V_SOURCE.on (recCtx p)))) ∧
    (∀ l, s.limitsOf src = some l →
      (∀ r, checkShape s1 l p = .error r → exec (.launchLaneMessage port source p) s = .next (rejectPacket s1 src p r)) ∧
      (checkShape s1 l p = .ok () → pktOpc p = 0 →
        exec (.launchLaneMessage port source p) s = .next (reply s1 src p .OK 0)) ∧
      (checkShape s1 l p = .ok () → pktOpc p = 1 → ∀ t, handleBind s1 l src p = some t →
        exec (.launchLaneMessage port source p) s = .next t))

/-- The parts above, together. -/
def Obligations.Packets : Prop :=
  Parts.Rejected ∧ Parts.TablePackets ∧ Parts.RunPackets ∧ Parts.ContextPackets ∧ Parts.ContextMade ∧
  Parts.QueuePackets ∧ Parts.LaneMessages

/-! ### Runs -/

/-- A BINDING STARTS (R96, R97, R129): BINDING_START starts the first binding of an idle placed context if no other ready binding comes
before it, with its counters at ENTRY in every tile that has a program and is halted. A fault that an escalation left for the next
binding completes it instead, with CTXFAULT (R370). -/
def Parts.Starts : Prop :=
  ∀ (n : Nat) (s : State) (c : Context) (b : Binding), tFind s.ctxs n = some c → c.ready = some b →
    (chosen s b = false → exec (.bindingStart n) s = .next s) ∧
    (chosen s b = true → c.heldFault = none → exec (.bindingStart n) s = .next (startBinding s n c b) ∧
      ∃ c', tFind (startBinding s n c b).ctxs n = some c' ∧ c'.run = some { binding := b, fail := none, stopped := false } ∧
        c'.fifo = c.fifo.tail ∧ c'.phase = c.phase) ∧
    (chosen s b = true → ∀ v, c.heldFault = some v → exec (.bindingStart n) s = .next
      (completeBinding ({ s with stamp := s.stamp + 1 }.onCtx n fun c =>
          { c with fifo := c.fifo.tail, heldFault := none, idleSince := s.stamp }) n b
        { Status.plain .CTXFAULT with result := v.toNat }))

/-- The tiles that a binding starts (R92, R97, R129): a halted tile with a program has its four counters at ENTRY and an empty
branch-outcome queue, and 256 bytes of arguments and zeros at 0x1F3F00; a tile without one is as it was. -/
def Parts.TilesStart : Prop :=
  ∀ (n : Nat) (s : State) (c : Context) (b : Binding) (t : Nat), t ∈ c.tiles → c.tiles.Nodup →
    ((s.tile t).hasText = true → (s.tile t).drained = true → (s.tile t).allHalted = true →
      (∀ e : Engine, ((startBinding s n c b).tile t).counter e = { pc := (s.tile t).entry, st := .running, ended := false }) ∧
      ((startBinding s n c b).tile t).outcomes = [] ∧
      ∀ k, k < 256 → ((startBinding s n c b).tile t).scratch.byte (0x1F3F00 + k) = b.args.getD k 0) ∧
    ((s.tile t).hasText = false → ((startBinding s n c b).tile t).scratch = (s.tile t).scratch ∧
      ∀ e : Engine, ((startBinding s n c b).tile t).counter e = (s.tile t).counter e)

/-- PRIORITIES AGE (R96, R388): the head of a FIFO gains a step, to 3 at most; a run that waits to be placed again does. -/
def Parts.Ages : Prop :=
  ∀ (n : Nat) (s : State) (c : Context), tFind s.ctxs n = some c → ∃ u c', exec (.priorityAgeing n) s = .next u ∧
    tFind u.ctxs n = some c' ∧ (∀ j, j ≠ n → tFind u.ctxs j = tFind s.ctxs j) ∧ u.tiles = s.tiles ∧
    ((c.run.isSome = true ∧ c.phase = .resident) → c'.aged = min 3 (c.aged + 1) ∧ c'.fifo = c.fifo) ∧
    (¬(c.run.isSome = true ∧ c.phase = .resident) → ∀ b rest, c.fifo = b :: rest →
      ∃ b', c'.fifo = b' :: rest ∧ b'.eff = min 3 (b.eff + 1) ∧ b'.stamp = b.stamp ∧ b'.prio = b.prio)

/-- A RUN ENDS (R314, R382-R386): with OK once every sink has its EOS, no posted request and no `sth` is outstanding and no HOST-OUT
stream has a word to write, and with its failure once the context has stopped. Its record goes to its CQ, and its operands stay for the next binding (R91). The duration in RESULT is a free value (log 5). -/
def Parts.RunsEnd : Prop :=
  ∀ (n : Nat) (s : State) (c : Context) (r : Run), tFind s.ctxs n = some c → c.run = some r →
    (r.fail = none → s.postedCount n c.gen = 0 →
      (sinksMet s c = true → hostStoring s c = false → hostWriting s c = false → exec (.runCompletion n) s = .next (endRun s n r.binding
        { Status.plain .OK with result := min (Config.runMicroseconds s.tick).toNat 0xFFFFFFFF })) ∧
      (sinksMet s c = false ∨ hostStoring s c = true ∨ hostWriting s c = true → exec (.runCompletion n) s = .next s)) ∧
    (r.fail = none → s.postedCount n c.gen ≠ 0 → exec (.runCompletion n) s = .next s) ∧
    (∀ f, r.fail = some f → exec (.runCompletion n) s = .next s ∧
      ((stopRun s n r).postedCount n c.gen = 0 → exec (.runFailure n) s = .next (endRun (stopRun s n r) n r.binding
        { status := f.status, ctx := 0, result := f.result.toNat, fepid := f.epid.toNat, faddr := f.addr.toNat })) ∧
      ((stopRun s n r).postedCount n c.gen ≠ 0 → exec (.runFailure n) s = .next (stopRun s n r)))

/-- The end of a run of a queue's binding: no run, the context busy until the record is written, and the record held for the binding's
completion queue (R91, R95, R99). -/
def Parts.RunIsOver : Prop :=
  ∀ (n q : Nat) (s : State) (c : Context) (b : Binding) (r : Report99), tFind s.ctxs n = some c → b.src = .queue q →
    ∃ c', tFind (endRun s n b r).ctxs n = some c' ∧ c'.run = none ∧ c'.busy = true ∧ c'.fifo = c.fifo ∧
      c'.lastOps = mergedOps (s.endpointsOf c) b.ops c.lastOps ∧
      (endRun s n b r).held = s.held ++
        [{ cq := b.cq, body := recordBody (.queue q) b.runtag.toNat { r with ctx := n }, ctok := b.ctok, cirq := b.cirq, ctx := some n }]

/-- A posted request is settled when its peer has performed it (R384). -/
def Parts.PostedAcks : Prop :=
  ∀ (k : Nat) (s : State), ∃ u, exec (.postedStoreAck k) s = .next u ∧ (∀ p, p ∈ u.posted ↔ p ∈ s.posted ∧ p.number ≠ k) ∧
    u.tiles = s.tiles ∧ u.ctxs = s.ctxs ∧ u.devMem = s.devMem ∧ u.hostMem = s.hostMem

/-- The parts above, together. -/
def Obligations.Runs : Prop :=
  Parts.Starts ∧ Parts.TilesStart ∧ Parts.Ages ∧ Parts.RunsEnd ∧ Parts.RunIsOver ∧ Parts.PostedAcks

/-! ### Placement and eviction -/

/-- PLACEMENT (R105-R109, R388): the context whose turn it is takes the first origin that R106 admits, by row and then by column; with
none free, room is made for it; and an image that fits on no empty module completes with NOFIT. Records that are read back under the
context's key with other SHA3-256 than the seals that were kept destroy the context (R374). -/
def Parts.Places : Prop :=
  ∀ (n : Nat) (s : State) (c : Context) (im : Image) (w : Nat × Nat),
    tFind s.ctxs n = some c → c.wants = some w → s.imageOf c = some im →
    let sound := c.sealedRec = none ∨ ∃ k v, c.sealedRec = some k ∧ tFind s.seals n = some v ∧ sealsRead s n c.key k = some v
    (nextToPlace s w = false → exec (.placement n) s = .next s) ∧
    (nextToPlace s w = true →
      (firstOrigin s [] im = none → exec (.placement n) s = .next (noFit s n c)) ∧
      ((firstOrigin s [] im).isSome = true →
        (∀ r, firstOrigin s (holders s n) im = some r →
          (sound → exec (.placement n) s = .next (placeAt s n c im r)) ∧
          (¬ sound → exec (.placement n) s = .next (breakSeal s n c))) ∧
        (firstOrigin s (holders s n) im = none →
          (sound → exec (.placement n) s = .next (makeRoom s n)) ∧ (¬ sound → exec (.placement n) s = .next (breakSeal s n c)))))

/-- A placed context that has no run and no binding, and is not asked to leave (R109). -/
def idleOne (c : Context) : Prop :=
  c.phase = .placed ∧ c.run = none ∧ c.fifo = [] ∧ c.destroy = none ∧ c.evictAsked = false

/-- ROOM (R109): the placement waits, and the context that has been idle longest is asked to leave, unless an eviction or a clearing is
under way already or no context is idle. -/
def Parts.RoomMade : Prop :=
  ∀ (n : Nat) (s : State),
    let s1 := s.onCtx n fun c => { c with waitsRoom := true }
    (roomComing s = true → makeRoom s n = s1) ∧
    ((∀ e ∈ s.ctxs, ¬ idleOne e.2) → makeRoom s n = s1) ∧
    (roomComing s = false → (∃ e ∈ s.ctxs, idleOne e.2) → ∃ e ∈ s.ctxs, idleOne e.2 ∧
      (∀ k ∈ s.ctxs, idleOne k.2 → e.2.idleSince ≤ k.2.idleSince) ∧
      makeRoom s n = s1.onCtx e.1 fun c => { c with evictAsked := true })

/-- An origin that is found is a candidate, and no candidate comes before it by row and then by column (R106, R108). -/
def Parts.FirstOrigins : Prop :=
  ∀ (s : State) (others : List (Nat × Context)) (im : Image) (r : Rect), firstOrigin s others im = some r →
    candidate s others im r = true ∧ r.width = im.width ∧ r.height = im.height ∧
    (∀ row col, row < 32 → col < 64 → row * 64 + col < r.row * 64 + r.col →
      candidate s others im { row := row, col := col, width := im.width, height := im.height } = false) ∧
    r.row + r.height ≤ 32 ∧ r.col + r.width ≤ 64 ∧
    ∀ t ∈ r.tiles, (s.tile t).excluded = false ∧ ∀ o ∈ others, o.2.rect.has t = false

/-- A tile as a first placement loads it (R110): its program from its index in the tile map, its scratchpad with the initial data and
zeros elsewhere, its CSRs at reset, and every counter halted. -/
def Parts.TilesLoaded : Prop :=
  ∀ (im : Image) (n rel org : Nat) (tl : Tile) (x : TextSec), im.textOf rel = some x → tFind im.rowCfgs rel = none →
    let u := loadTile im n rel org tl
    u.owner = some n ∧ u.tileId = BitVec.ofNat 11 rel ∧ u.nwords = x.words.length ∧ u.entry = x.entry ∧
    u.allHalted = true ∧ u.drained = true ∧ u.qL = [] ∧ u.qX = [] ∧ u.qS = [] ∧ u.x = Tile.reset.x ∧
    u.spares = tl.spares ∧ u.excluded = tl.excluded ∧
    (∀ k, tGet 0 u.istore k = x.words.getD k 0) ∧
    ∀ a, u.scratch.byte a = if x.doff ≤ a then x.data.getD (a - x.doff) 0 else 0

/-- EVICTION AND ITS MARKERS (R372, R388): EVICTION asks every tile and every generator of the context to lull; a marker stops issue in its
tile, but waits for an open transfer phase; a generator notes it, unless it has saved already. -/
def Parts.Lulls : Prop :=
  (∀ (n : Nat) (s : State) (c : Context), tFind s.ctxs n = some c → c.evictAsked = true → c.phase = .placed →
    ∃ u c', exec (.eviction n) s = .next u ∧ tFind u.ctxs n = some c' ∧ c'.phase = .lulling ∧ c'.evictAsked = false ∧
      (∀ t ∈ c.tileList, (.tile t, c.gen) ∈ u.lulls) ∧
      ∀ i, i < (s.endpointsOf c).length → (.generator n i, c.gen) ∈ u.lulls) ∧
  (∀ (t : Nat) (s : State) (m : LullTarget × BitVec 16), s.lulls.find? (fun k => decide (k.1 = .tile t)) = some m →
    (markerWaits (s.tile t) = true → exec (.lullMarkerArrival (.tile t)) s = .next s) ∧
    (markerWaits (s.tile t) = false → ∃ u, exec (.lullMarkerArrival (.tile t)) s = .next u ∧
      (u.tile t).lull = .lulled false [] ∧ u.lulls = s.lulls.erase m ∧ (u.tile t).cntC.pc = (s.tile t).cntC.pc ∧
      sameMemory s u)) ∧
  (∀ (n i : Nat) (s : State) (c : Context), s.lulls.find? (fun k => decide (k.1 = .generator n i)) =
      some (.generator n i, c.gen) → tFind s.ctxs n = some c →
    ∃ u c', exec (.lullMarkerArrival (.generator n i)) s = .next u ∧ tFind u.ctxs n = some c' ∧ 
      (c'.generator i).lull = if (c.generator i).lull = .saved then .saved else .asked)

/-- SEALING (R360, R372, R373): a lulled tile passes its markers on once its commands have completed and its updates are settled, and
seals itself once every mapped inbound port has brought a marker; the context is sealed once all its agents are and no update is open:
its tiles' images, its regions and its generators' positions are put into device memory under its key, and the SHA3-256 of each part is
kept. -/
def Parts.Seals : Prop :=
  (∀ (t : Nat) (s : State) (c : Context) (l : List Nat), s.ctxOf t = some c →
    ((s.tile t).lull = .lulled false l → exec (.tileSeal t) s = .next (sendMarkers s t c) ∧
      ((s.tile t).commandsDone = false → exec (.tileSeal t) s = .next s)) ∧
    ((s.tile t).lull = .lulled true l →
      (markersIn s t c = false → exec (.tileSeal t) s = .next s) ∧
      (markersIn s t c = true → ∃ u, exec (.tileSeal t) s = .next u ∧ (u.tile t).lull = .sealed ∧
        (u.tile t).scratch = (s.tile t).scratch ∧ (u.tile t).x = (s.tile t).x ∧ (u.tile t).cntC = (s.tile t).cntC ∧
        ∀ p, ∀ w ∈ (u.tile t).inFifo p, w.isMarker = false))) ∧
  (∀ (n : Nat) (s : State) (c : Context), tFind s.ctxs n = some c → c.phase = .lulling →
    (∀ t ∈ c.tileList, (s.tile t).lull = .sealed) → (∀ i, i < (s.endpointsOf c).length → (c.generator i).lull = .saved) →
    regionsSaved s c = true → nodesSaved s c = true →
    (updatesOpen s c = true → exec (.contextSeal n) s = .next (c.tileList.foldl closeBatches s)) ∧
    (updatesOpen s c = false → ∃ u c', exec (.contextSeal n) s = .next u ∧ tFind u.ctxs n = some c' ∧ c'.phase = .clearing ∧
      let k : SealedRecord := { tiles := c.rels.map fun rel => (rel, s.tile (c.tileAt rel)), regions := c.regions,
                                gens := c.gens.map fun e => (e.1, { next := e.2.next, midBurst := e.2.midBurst, unsent := e.2.unsent }) }
      c'.sealedRec = some k ∧ tFind u.seals n = some (k.parts.map sha3) ∧
      u.devMem = (writeLines s c.key (recordStart n) k.parts.flatten).devMem ∧
      u.devKey = (writeLines s c.key (recordStart n) k.parts.flatten).devKey))

/-- CLEARING (R116-R119, R389): the token clears a tile and passes east; when every tile is clear and no posted request is outstanding, an
evicted context is resident again, without tiles, and a destroyed one is gone, with its generation risen and its key zeroised. -/
def Parts.Clears : Prop :=
  (∀ (t n : Nat) (s : State) (c : Context), clearingCtx s t = some (n, c) → (s.tile t).clearing = true →
    ∃ u, exec (.clearingToken t) s = .next u ∧ u.tile t = { Tile.reset with spares := (s.tile t).spares, excluded := (s.tile t).excluded } ∧
      (∀ k, ((u.tile t).scratch.byte k) = 0) ∧
      (colOf t + 1 < c.col + c.width → (u.tile (t + 1)).clearing = true) ∧
      (∀ v, v ≠ t → v ≠ t + 1 → u.tile v = s.tile v) ∧ ∀ f ∈ u.flits, f.pubTile ≠ t ∧ f.subTile ≠ t) ∧
  (∀ (n : Nat) (s : State) (c : Context), tFind s.ctxs n = some c → (c.phase = .clearing ∨ c.phase = .leaving) → c.toClear = [] →
    (s.postedCount n c.gen ≠ 0 → exec (.clearingComplete n) s = .next s) ∧
    (s.postedCount n c.gen = 0 → ∃ u, exec (.clearingComplete n) s = .next u ∧
      (c.destroy = none → ∃ c', tFind u.ctxs n = some c' ∧ c'.phase = .resident ∧ c'.ports = [] ∧ c'.jets = [] ∧ c'.fifo = c.fifo) ∧
      (∀ d, c.destroy = some d → tFind u.ctxs n = none ∧ tGet 0 u.gens n = c.gen + 1 ∧
        (∀ e ∈ u.keySlots, e.2 ≠ c.key) ∧ (∀ r ∈ u.rings, r.ctx ≠ n) ∧ (d.silent = true → u.held = s.held))))

/-- The parts above, together. -/
def Obligations.Placement : Prop :=
  Parts.Places ∧ Parts.RoomMade ∧ Parts.FirstOrigins ∧ Parts.TilesLoaded ∧ Parts.Lulls ∧ Parts.Seals ∧ Parts.Clears

/-! ### Generators -/

/-- A generator that may act: its context is on the module, it has no page to wait for, and no lull has been asked of it. -/
def generatorAt (s : State) (n i : Nat) (c : Context) (im : Image) (e : Endpoint) (t : Nat) : Prop :=
  s.endpointAt n i = some (c, im, e, t) ∧ (c.generator i).page = none ∧ (c.generator i).lull = .none

/-- MEM-IN, HOST-IN AND HOST-TOKEN (R282): INPUT_GENERATOR_WORD sends the next line of the bound buffer, of kind 1 at the end of a burst
and of the buffer, then EOS; a token is one word of kind 1; with no room it waits; an access that is refused ends the stream (R285).
Under a lull it sends its marker at a burst boundary (R372). -/
def Parts.InputWords : Prop :=
  ∀ (n i : Nat) (s : State) (c : Context) (im : Image) (e : Endpoint) (t : Nat),
    (generatorAt s n i c im e t → (e.kind = .memIn ∨ e.kind = .hostIn) → (c.generator i).active = true →
      (genRoom s im e t = false → exec (.inputGeneratorWord n i) s = .next s) ∧
      (genRoom s im e t = true →
        let k := (c.generator i).next
        let o := c.operand i
        (o.lines ≤ k → exec (.inputGeneratorWord n i) s = .next ((genDeliver s im e t eosWord).onGen n i fun g =>
          { g with active := false, eos := true, midBurst := false })) ∧
        (k < o.lines →
          (∀ bs s1, bufferRead s n c e o k = .ok (bs, s1) →
            let last := (k + 1) % burstWords e = 0 ∨ k + 1 = o.lines
            exec (.inputGeneratorWord n i) s = .next ((genDeliver s1 im e t
              { data := BitVec.ofNat 512 (bytesNat bs), kind := if last then 1 else 0 }).onGen n i fun g =>
                { g with next := k + 1, midBurst := !decide last })) ∧
          (∀ st a, bufferRead s n c e o k = .error (.fail st a) →
            exec (.inputGeneratorWord n i) s = .next (endStream s n i st.code e.epid a))))) ∧
    (generatorAt s n i c im e t → e.kind = .hostToken →
      ((c.generator i).tokens = [] → exec (.inputGeneratorWord n i) s = .next s) ∧
      (∀ v rest, (c.generator i).tokens = v :: rest → genRoom s im e t = true → exec (.inputGeneratorWord n i) s =
        .next ((genDeliver s im e t { data := v, kind := 1 }).onGen n i fun g => { g with tokens := rest }))) ∧
    (s.endpointAt n i = some (c, im, e, t) → (c.generator i).page = none → (c.generator i).lull = .asked →
      (c.generator i).midBurst = false → (e.kind = .memIn ∨ e.kind = .hostIn ∨ e.kind = .hostToken) →
      exec (.inputGeneratorWord n i) s = .next (if genRoom s im e t
        then (genDeliver s im e t marker).onGen n i (fun g => { g with lull := .saved }) else s))

/-- MEM-OUT AND HOST-OUT (R91, R282, R382): OUTPUT_GENERATOR_WORD writes the next data word to the next line; an EOS meets the sink's
condition and ends the stream; a data word beyond the buffer ends the run with STREAMFAULT. -/
def Parts.OutputWords : Prop :=
  ∀ (n i : Nat) (s : State) (c : Context) (im : Image) (e : Endpoint) (t : Nat) (w : StreamWord) (kept : Bool),
    generatorAt s n i c im e t → (e.kind = .memOut ∨ e.kind = .hostOut) → (c.generator i).active = true →
    nextWord s im e t (c.generator i) = some (w, kept) → w.isMarker = false →
    let o := c.operand i
    let k := (c.generator i).next
    (w.isEos = true → exec (.outputGeneratorWord n i) s = .next ((dropWord s n i im e t kept).onGen n i fun g =>
      { g with active := false, eos := true, met := true })) ∧
    (w.isEos = false → o.lines ≤ k → exec (.outputGeneratorWord n i) s =
      .next (endStream s n i 1 e.epid (o.addr o.lines))) ∧
    (w.isEos = false → k < o.lines →
      (∀ s1, bufferWrite s n i c e o k (natBytes 64 w.data.toNat) = .ok s1 → exec (.outputGeneratorWord n i) s =
        .next ((dropWord s1 n i im e t kept).onGen n i fun g => { g with next := g.next + 1 })) ∧
      (∀ st a, bufferWrite s n i c e o k (natBytes 64 w.data.toNat) = .error (.fail st a) →
        exec (.outputGeneratorWord n i) s = .next (endStream s n i st.code e.epid a)))

/-- QUEUES (R284): QUEUE_ENQUEUE puts the next word behind the ring's tail while it has room, and QUEUE_DEQUEUE sends the word at its head. -/
def Parts.QueueWords : Prop :=
  ∀ (n i : Nat) (s : State) (c : Context) (im : Image) (e : Endpoint) (t : Nat) (q : QueueRing),
    generatorAt s n i c im e t → e.kind = .queue → offStage s c im e = false → c.ring i = some q → (c.generator i).active = true →
    (queueFeeds im e = false → ∀ w kept, nextWord s im e t (c.generator i) = some (w, kept) → w.isMarker = false →
      (q.cap ≤ q.tail - q.head → exec (.queueEnqueue n i) s = .next s) ∧
      (q.tail - q.head < q.cap → ∀ s1, queueStore s n i c e q w = .ok s1 → exec (.queueEnqueue n i) s =
        .next (((dropWord s1 n i im e t kept).onRing n q fun q => { q with tail := q.tail + 1 }).onGen n i fun g =>
          { g with eos := g.eos || w.isEos, met := g.met || w.isEos }))) ∧
    (queueFeeds im e = true →
      (q.tail ≤ q.head → exec (.queueDequeue n i) s = .next s) ∧
      (q.head < q.tail → genRoom s im e t = true → ∀ w s1, queueLoad s n c e q = .ok (w, s1) → exec (.queueDequeue n i) s =
        .next (((genDeliver s1 im e t w).onRing n q fun q => { q with head := q.head + 1 }).onGen n i fun g =>
          { g with midBurst := decide (w.kind = 0) })))

/-- JET STREAMS (R400): JET_OUT_WORD sends the next word under its tag for a word of credit; JET_IN_WORD hands the oldest arrived word to
the JET-IN bound to its tag; a JET-OUT has met its condition when its credit has come back whole after its EOS (R382). A grant whose
stream no JET-OUT sends yet is kept for the run that will bind it; how grants add up there is the model's choice (log 20). -/
def Parts.JetWords : Prop :=
  (∀ (n i p : Nat) (s : State) (c : Context) (im : Image) (e : Endpoint) (t : Nat) (peer : BitVec 12) (stag : BitVec 24)
      (w : StreamWord) (kept : Bool),
    s.endpointAt n i = some (c, im, e, t) → (c.generator i).lull = .none → e.kind = .jetOut → c.operand i = .jetOut peer stag →
    c.jetOf e = some p → nextWord s im e t (c.generator i) = some (w, kept) → w.isMarker = false →
    ((c.generator i).active = true → 0 < (c.generator i).credit → (s.jet p).link = .up → (s.jet p).peer = peer →
      exec (.jetOutWord n i) s = .next ((sendJet (dropWord s n i im e t kept) p (.word stag w)).onGen n i fun g =>
        { g with credit := g.credit - 1, eos := g.eos || w.isEos })) ∧
    ((c.generator i).credit = 0 → exec (.jetOutWord n i) s = .next s)) ∧
  (∀ (p : Nat) (s : State) (stag : BitVec 24) (w : StreamWord) (rest : List (BitVec 24 × StreamWord)),
    (s.jet p).arrived = (stag, w) :: rest →
    let s1 := jetArrive (s.onJet p fun j => { j with arrived := rest }) p stag w
    exec (.jetInWord p) s = .next ((s1.ctxs.flatMap fun (n, c) =>
      (List.range (s1.endpointsOf c).length).map fun i => (n, i)).foldl (fun s (n, i) => jetDeliver s p n i) s1)) ∧
  (∀ (p n i : Nat) (s : State) (c : Context) (im : Image) (e : Endpoint) (t : Nat) (stag : BitVec 24) (w : StreamWord)
      (rest : List StreamWord),
    s.endpointAt n i = some (c, im, e, t) → e.kind = .jetIn → c.jetOf e = some p → (c.generator i).lull = .none →
    c.operand i = .jetIn stag → (c.generator i).active = true → (c.generator i).unsent = w :: rest → genRoom s im e t = true →
    jetDeliver s p n i = sendJet ((genDeliver s im e t w).onGen n i fun g =>
      { g with unsent := rest, midBurst := decide (w.kind = 0), eos := g.eos || w.isEos, active := !w.isEos }) p (.credit stag 1)) ∧
  (∀ (g : Generator) (k : Nat), (g.eos = true → g.credit + k = 64 → (g.addCredit k).met = true ∧ (g.addCredit k).active = false) ∧
    (g.eos = false → g.addCredit k = { g with credit := g.credit + k }) ∧
    g.takeCredit 64 = { g with credit := 64 } ∧ (k ≠ 64 → g.takeCredit k = g.addCredit k)) ∧
  (∀ (p k : Nat) (s : State) (stag : BitVec 24),
    let key := streamKey (s.jet p).peer stag
    (s.jetSenders (s.jet p).peer stag = [] → tGet 0 (jetCredit s p stag k).grants key = (if k = 64 then 64 else min 64 (tGet 0 s.grants key + k)) ∧
      (jetCredit s p stag k).ctxs = s.ctxs) ∧
    (∀ n i, s.jetSenders (s.jet p).peer stag = [(n, i)] → jetCredit s p stag k = s.onGen n i fun g => g.takeCredit k))

/-- The parts above, together. -/
def Obligations.Generators : Prop := Parts.InputWords ∧ Parts.OutputWords ∧ Parts.QueueWords ∧ Parts.JetWords

/-! ### Route elements -/

/-- A CORNER TURN (R237): output word k of a block is part k mod size of row k / size of the transpose, low elements first, and the last word
has the block's last kind; a short block is completed with zero words. -/
def Parts.CornerTurns : Prop :=
  (∀ (t slot : Nat) (s : State) (n : RouteNode), tFind (s.tile t).routes slot = some n → n.kind = 0 →
    exec (.cornerTurnWord t slot) s = .next (s.onTile t fun tl => turnStep tl slot n)) ∧
  (∀ (size : Nat) (b : List StreamWord), (size = 1 ∨ size = 2 ∨ size = 4) → b.length = 64 →
    (turnBlock size b).length = 64 ∧
    ∀ k j w, k < 64 → j < 64 / size → (turnBlock size b)[k]? = some w →
      w.data.toNat / 2 ^ (8 * size * j) % 2 ^ (8 * size) =
        ((b[k % size * (64 / size) + j]?).map fun x => x.data.toNat / 2 ^ (8 * size * (k / size)) % 2 ^ (8 * size)).getD 0 ∧
      w.kind = if k = 63 then ((b.getLast?).map (·.kind)).getD 0 else 0) ∧
  (∀ b : List StreamWord, 0 < b.length → b.length < 64 → (padBlock b).length = 64 ∧
    (∀ k, b.length ≤ k → k < 64 → ((padBlock b)[k]?).map (·.data) = some 0) ∧
    ((padBlock b)[63]?).map (·.kind) = (b.getLast?).map (·.kind))

/-- ARBITERS, COUNTERS AND MERGES (R340, R341): one turn of a node takes a word of each arc, sends a word to its TPORT, and passes a reply. A
counter adds, and owes a numbered word at zero; a burst takes its ticket with its first word, and bursts leave in ticket order. -/
def Parts.ArcNodes : Prop :=
  (∀ (t slot : Nat) (s : State) (n : RouteNode), tFind (s.tile t).routes slot = some n →
    let s1 := replyStep (sendNode (takeArcs s t slot n) t slot) t slot
    (n.kind = 2 → exec (.arbiterBurst t slot) s = .next s1) ∧ (n.kind = 3 → exec (.counterNodeWord t slot) s = .next s1) ∧
    (n.kind = 4 → exec (.mergeBurst t slot) s = .next s1) ∧
    (n.kind ≠ 2 → exec (.arbiterBurst t slot) s = .next s)) ∧
  (∀ (n : RouteNode) (w : StreamWord), (n.addCount w).count = n.count + w.data.setWidth 32 ∧
    (n.count + w.data.setWidth 32 = 0 → (n.addCount w).zseq = n.zseq + 1 ∧
      (n.addCount w).out = n.out ++ [{ data := (n.zseq + 1).setWidth 512, kind := 1 }]) ∧
    (n.count + w.data.setWidth 32 ≠ 0 → (n.addCount w).zseq = n.zseq ∧ (n.addCount w).out = n.out)) ∧
  (∀ (n : RouteNode) (a : Nat) (w : StreamWord), (n.addWord a w).buf a = n.buf a ++ [w] ∧
    (n.openArcs.contains a = false → (n.addWord a w).tickets = n.tickets ++ [a]) ∧
    (n.openArcs.contains a = true → (n.addWord a w).tickets = n.tickets) ∧
    (w.kind = 1 → (n.addWord a w).openArcs.contains a = false) ∧ (w.kind ≠ 1 → (n.addWord a w).openArcs.contains a = true)) ∧
  (∀ (n : RouteNode) (a : Nat) (rest : List Nat) (w : StreamWord) (ws : List StreamWord), n.kind = 2 → n.tickets = a :: rest →
    n.buf a = w :: ws → w.kind = 1 →
    (n.grants.length < 64 → ∃ n', n.nextBurstWord = some (w, n') ∧ n'.tickets = rest ∧ n'.grants = n.grants ++ [a] ∧ n'.buf a = ws) ∧
    (64 ≤ n.grants.length → n.nextBurstWord = none)) ∧
  (∀ (a b : Line) (k : Nat), k < 16 →
    (mergeWords 2 a b).extractLsb' (32 * k) 32 = a.extractLsb' (32 * k) 32 + b.extractLsb' (32 * k) 32)

/-- The parts above, together. -/
def Obligations.RouteElements : Prop := Parts.CornerTurns ∧ Parts.ArcNodes

/-! ### Regions -/

/-- A REGION'S PORTS (R121, R372, R413): an input port takes the word at the head of its tile port's FIFO, unless it is held, the region is
stalled, or it is the decoder and its output has no room;
an output port sends the region's next word where there is room. A clock that is held passes nothing. -/
def Parts.PortWords : Prop :=
  ∀ (n key rp : Nat) (s : State) (c : Context) (r : Region) (g : RegionSec) (m : PortMap),
    s.regionAt n key = some (c, r, g) → g.ports.find? (·.rport = rp) = some m →
    let t := c.tileAt m.tile
    (r.state.clocked = false → exec (.regionPortWord n key rp) s = .next s) ∧
    (r.state = .running → m.toTile = false → ∀ w, ((s.tile t).outFifo m.tport).head? = some w → r.markers.contains m.rport = false →
      let full := Config.regionIsDecoder g.bits = true ∧ ∃ o ∈ g.ports, o.toTile = true ∧ o.rport = 1 ∧ s.inRoom (c.tileAt o.tile) o.tport = false
      (full → exec (.regionPortWord n key rp) s = .next s) ∧
      (¬ full → exec (.regionPortWord n key rp) s = .next (
        if w.isMarker then (takeOut s t m.tport).onRegion n key fun r => { r with markers := r.markers ++ [m.rport] }
        else if r.stalled g then s
        else (takeOut s t m.tport).onRegion n key fun r =>
          { r with given := tSet [] r.given m.rport (tGet [] r.given m.rport ++ [w]) }))) ∧
    (r.state = .running → m.toTile = true → s.inRoom t m.tport = true → c.phase = .placed →
      exec (.regionPortWord n key rp) s = .next (match r.pending g m.rport with
        | w :: _ => (deliver s t m.tport w).onRegion n key fun r =>
            { r with emitted := tSet 0 r.emitted m.rport (tGet 0 r.emitted m.rport + 1) }
        | [] => s))

/-- The decoder region's output (R410-R413): one word for each word it is given, an EOS unchanged, and nothing on another port; its
pipeline is full with three words that have not left. A region with another bitstream emits what its logic gives, which no rule states
(log 10). -/
def Parts.DecoderRegion : Prop :=
  ∀ (r : Region) (g : RegionSec) (p : Nat), r.pending g p =
    (if Config.regionIsDecoder g.bits then
      (if p = 1 then ((tGet [] r.given 0).drop (tGet 0 r.emitted 1)).map fun w =>
        if w.isEos then w else { w with data := q5Word w.data } else [])
    else (r.outputs g p).drop (tGet 0 r.emitted p)) ∧
    (Config.regionIsDecoder g.bits = true → (r.stalled g = true ↔ 3 ≤ (r.pending g 1).length))

/-- HOT SWAPS (R123, R124, R127): a list's region is held when its stage has no words, it is quiescent, and another stage has words; when it has
drained it is reloaded, and runs from reset; a swap that times out leaves the old stage, with a report to the policy core, in which the
model keeps the context and the region (log 10). -/
def Parts.Swaps : Prop :=
  ∀ (n key : Nat) (s : State) (c : Context) (r : Region) (g : RegionSec), s.regionAt n key = some (c, r, g) →
    (∀ im list rest, s.imageOf c = some im → im.stageLists[list]? = some (key :: rest) → r.state = .running → r.markers = [] →
      exec (.stageSwap n list) s = .next (
        if stageEmpty s c im r.stage = true ∧ r.quiet g = true then match nextStage s c im (key :: rest) r.stage with
          | some k => s.onRegion n key fun r => { r with state := .holding k }
          | none => s
        else s)) ∧
    (∀ k, r.state = .holding k →
      ((g.ins.all fun m => r.heldIn m.rport) = true → outsEmpty s c g = true → exec (.swapDrainEnd n key) s =
        .next (if r.quiet g then s.onRegion n key fun r => { r with state := .reloading k } else s)) ∧
      (outsEmpty s c g = false → exec (.swapDrainEnd n key) s = .next s) ∧
      exec (.swaptimeout n key) s =
        .next ({ s with swapTimeouts := s.swapTimeouts ++ [(n, key)] }.onRegion n key fun r => { r with state := .running })) ∧
    (∀ k, r.state = .reloading k → ∃ u c' r', exec (.swapReloadEnd n key) s = .next u ∧ tFind u.ctxs n = some c' ∧
      tFind c'.regions key = some r' ∧ r'.stage = k ∧ r'.state = .running ∧ r'.given = [] ∧ r'.emitted = [] ∧ r'.bad = false ∧
      r'.store = s.bitsOf c k ∧ r'.sig = (sha3 (s.bitsOf c k)).setWidth 64 ∧
      (r.owed = false → u.tiles = s.tiles) ∧
      (r.owed = true → ∀ m ∈ g.ports, tGet 0 (u.tile (c.tileAt m.tile)).cfgErr m.tport = key + 1))

/-- The single-bit errors that a pass of a die's scrubber corrects. -/
def scrubbed (s : State) (die : Nat) : List (Nat × Nat) :=
  s.ctxs.flatMap fun e => e.2.regions.flatMap fun k => match s.regionAt e.1 k.1 with
    | some (c, r, g) => if regionDie c g = die then r.upsets else []
    | none => []

/-- CONFIGURATION ERRORS (R125-R127, R378): an error freezes a running region, with a record of its cell and its frame; one in a swap's
reload is overwritten; a frozen region's reload keeps its state and gives each tile port that the region maps a CFGERR; the scrubber
corrects the single-bit errors of a die, with a record each, and an error that the signature shows makes the configuration bad. An error
in a swap's Hold is treated as one in its drain by the model's choice (log 10). -/
def Parts.ConfigErrors : Prop :=
  (∀ (n key : Nat) (s : State) (c : Context) (r : Region) (g : RegionSec), s.regionAt n key = some (c, r, g) →
    (r.bad = true → r.state = .running → ∃ u c' , exec (.configError n key) s = .next u ∧ u.errHead = s.errHead + 1 ∧
      (let cell := c.tileAt (g.corg + r.badCell)
       ∃ time, tGet 0 u.errLog (s.errHead.toNat % 128) = errorRecord 2 3 cell 0 time (BitVec.ofNat 64 r.badFrame)) ∧
      tFind u.ctxs n = some c' ∧ tFind c'.regions key = some { r with state := .frozen }) ∧
    (r.bad = true → ∀ k, r.state = .holding k → ∃ u c', exec (.configError n key) s = .next u ∧
      tFind u.ctxs n = some c' ∧ tFind c'.regions key = some { r with state := .reloading k, owed := true }) ∧
    (r.bad = true → ∀ k, r.state = .reloading k → ∃ u c', exec (.configError n key) s = .next u ∧ u.tiles = s.tiles ∧
      tFind u.ctxs n = some c' ∧ tFind c'.regions key = some { r with
        bad := false, badCell := 0, badFrame := 0, upsets := [], store := s.bitsOf c k, sig := (sha3 (s.bitsOf c k)).setWidth 64 }) ∧
    (r.bad = false → exec (.configError n key) s = .next s) ∧
    (r.state = .frozen → ∃ u c', exec (.configReloadDone n key) s = .next u ∧ tFind u.ctxs n = some c' ∧
      tFind c'.regions key = some { r with state := .running, bad := false, badCell := 0, badFrame := 0, upsets := [],
                                           store := s.bitsOf c r.stage,
                                           sig := (sha3 (s.bitsOf c r.stage)).setWidth 64 } ∧
      ∀ m ∈ g.ports, tGet 0 (u.tile (c.tileAt m.tile)).cfgErr m.tport = key + 1)) ∧
  (∀ (die : Nat) (s : State), ∃ u, exec (.scrubPass die) s = .next u ∧ u.tiles = s.tiles ∧ u.devMem = s.devMem ∧
    ((s.ctxs.map (·.1)).Nodup → (∀ e ∈ s.ctxs, (e.2.regions.map (·.1)).Nodup) →
      u.errHead = s.errHead + BitVec.ofNat 64 (scrubbed s die).length) ∧
    ∀ n k c r g, s.regionAt n k = some (c, r, g) →
      ∃ c' r' f, tFind u.ctxs n = some c' ∧ tFind c'.regions k = some r' ∧
        r' = if regionDie c g = die then
            (if r.bad = true ∨ (sha3 r.store).setWidth 64 = r.sig then { r with upsets := [] }
             else { r with upsets := [], bad := true, badFrame := f })
          else r)

/-- The parts above, together. -/
def Obligations.Regions : Prop := Parts.PortWords ∧ Parts.DecoderRegion ∧ Parts.Swaps ∧ Parts.ConfigErrors

/-! ### Memory ports, slices and self-tests -/

/-- A MEMORY PORT'S REQUEST (R114, R268, R286, R289, R311): a packet whose context or generation the port does not serve, or whose address goes to
another port of the context, is discarded; a refused access is answered with its cause; a page that is not there goes to fault service; a read is
answered with the bytes, and a write is made. -/
def Parts.PortRequests : Prop :=
  ∀ (port n gen va k : Nat) (s : State) (c : Context) (data : Option (List Byte)),
    (tFind s.ctxs n = none → exec (.memoryPortRequest port n gen va k data) s = .next s) ∧
    (tFind s.ctxs n = some c →
      (c.gen ≠ BitVec.ofNat 16 gen ∨ c.portOf va ≠ some port → exec (.memoryPortRequest port n gen va k data) s = .next s) ∧
      (c.gen = BitVec.ofNat 16 gen → c.portOf va = some port → c.onModule = true → k ≠ 0 →
        (∀ e, translate s c va k true false = .error (.refuse e) → exec (.memoryPortRequest port n gen va k none) s =
          .next { s with outbox := s.outbox ++ [.portRefused port n e] }) ∧
        (∀ e bs, bs ≠ [] → translate s c va bs.length false true = .error (.refuse e) →
          exec (.memoryPortRequest port n gen va k (some bs)) s = .next { s with outbox := s.outbox ++ [.portRefused port n e] }) ∧
        (∀ a, (∃ v, translate s c va k true false = .error (.page v)) ∨ (∃ r, translate s c va k true false = .ok r) →
          absentPiece s c va k true false = some a → exec (.memoryPortRequest port n gen va k none) s =
          .next { s with pageFaults := s.pageFaults ++ [{ ctx := n, gen := c.gen, va := a, who := .request port }] }) ∧
        (∀ r, va % 64 + k ≤ 64 → translate s c va k true false = .ok r →
          ∃ u, exec (.memoryPortRequest port n gen va k none) s = .next u ∧ sameMemory s u ∧
          (∀ bs, routeRead s r k = .ok bs → u.outbox = s.outbox ++ [.portData port n bs]) ∧
          (∀ m, routeRead s r k = .error m → u.outbox = s.outbox ++ [.portRefused port n .MEMERR])) ∧
        (∀ b bs pa key, va % 64 + (b :: bs).length ≤ 64 → pa < hbmBytes →
          translate s c va (b :: bs).length false true = .ok (.device pa key) →
          ∃ u, exec (.memoryPortRequest port n gen va k (some (b :: bs))) s = .next u ∧
          u.outbox = s.outbox ++ [.portDone port n] ∧
          (∀ x, pa ≤ x → x < pa + (b :: bs).length → u.devMem.byte x = (b :: bs).getD (x - pa) 0) ∧
          ∀ x, x / 128 ≠ pa / 128 → ¬ (pa ≤ x ∧ x < pa + (b :: bs).length) → u.devMem.byte x = s.devMem.byte x)))

/-- The port of an address (R286): among a context's MEMPORTS ports in ascending order, the one that (VA >> 12) mod MEMPORTS picks; no other port
serves the access. -/
def Parts.PortOfAddress : Prop :=
  ∀ (c : Context) (va : Nat),
    (c.memPorts = 0 → c.portOf va = none) ∧
    (c.memPorts ≠ 0 → c.portOf va = c.ports[va / 4096 % c.memPorts]?) ∧
    ∀ d, d < 4096 → c.portOf (4096 * (va / 4096) + d) = c.portOf va

/-- SLICES (R103, R294-R296): a request at its home slice hits, or takes a miss register while one is free; with none free a write waits, and a read
bypasses the slice; memory's answer frees a register, for a request that no other of the controller's goes before and whose response has
room on its way back; a window's end forgets what the controller has served. No request changes memory. That one request counts as one
unit, and the class of a request that names a physical address alone, are the model's (log 5). -/
def Parts.SliceEvents : Prop :=
  (∀ (pa : Nat) (w na : Bool) (s : State), ∃ u, exec (.sliceRequest pa w na) s = .next u ∧ sameMemory s u ∧
    (∀ k, k ≠ homeSliceOf pa → u.slice k = s.slice k) ∧
    ((s.slice (homeSliceOf pa)).hits (pa / 128) (pa / 64 % 2) = false →
      ∃ m : Miss, m.line = pa / 128 ∧ m.half = pa / 64 % 2 ∧ m.write = w ∧ m.alloc = (w || !na) ∧ m.share = shareOfPa s pa ∧
        m.back = none ∧ u.slice (homeSliceOf pa) =
          (if (s.slice (homeSliceOf pa)).misses.length < 64 then
            { s.slice (homeSliceOf pa) with misses := (s.slice (homeSliceOf pa)).misses ++ [m] }
          else if w = true then { s.slice (homeSliceOf pa) with waiting := (s.slice (homeSliceOf pa)).waiting ++ [m] }
          else { s.slice (homeSliceOf pa) with bypass := (s.slice (homeSliceOf pa)).bypass ++ [m] })) ∧
    ((s.slice (homeSliceOf pa)).hits (pa / 128) (pa / 64 % 2) = true →
      ∃ c rest, (u.slice (homeSliceOf pa)).lines = c :: rest ∧ c.line = pa / 128 ∧ (w = true → c.dirty = true))) ∧
  (∀ (k : Nat) (s : State),
    let s1 := movePaths s k
    let picked := pickRequest s1 (controllerOf k) (controllerRequests s1 k)
    (∀ r, s.replies.find? (fun r => r.slice = k) = some r → s1 = takeTransit { s with replies := s.replies.erase r } k) ∧
    (s.replies.find? (fun r => r.slice = k) = none → s1 = takeTransit s k) ∧
    (∀ m, picked = some m → (readyAt s1 k).contains m = true →
      ∃ u, exec (.sliceMissResponse k) s = .next u ∧ sameMemory s u ∧
        u.slice k = (takeTransit (addReply (s1.onSlice k fun sl => sl.answer m) k m) k).slice k ∧
        u.servedOf (controllerOf k) m.share = s.servedOf (controllerOf k) m.share + 1 ∧
        ∀ p c, m.back = some (p, c) → pathOf p k ≠ [] → ∃ r ∈ u.replies, r.port = p ∧ r.slice = k ∧ r.miss = m) ∧
    (∀ m, picked = some m → (readyAt s1 k).contains m = false → exec (.sliceMissResponse k) s = .next s1) ∧
    (picked = none → exec (.sliceMissResponse k) s = .next s1)) ∧
  (∀ (ctl : Nat) (s : State), ∃ u, exec (.accountingWindow ctl) s = .next u ∧ sameMemory s u ∧
    (∀ cls, cls < 64 → u.servedOf ctl cls = 0) ∧ ∀ d cls, d ≠ ctl → cls < 64 → u.servedOf d cls = s.servedOf d cls)

/-- STATIONS (R294): a request that has a way to go waits behind an earlier one of its port, slice and ordering class, where a station on its
way has no entry left, and where its slice cannot take it; otherwise it reaches its slice at once. A slice takes a write that misses only
with a miss register free, a read always, and a hit when the response has room. The oldest that a slice can take goes first, none of
its own stream before it; and no station holds more than 64 requests. Home slices and paths are the model's (log 9). -/
def Parts.Stations : Prop :=
  (∀ (s : State) (port pa share : Nat) (w alloc : Bool) (cls : BitVec 4),
    let k := homeSliceOf pa
    let r : Transit := { port := port, slice := k, cls := cls
                         miss := { line := pa / 128, half := pa / 64 % 2, write := w, alloc := w || alloc, share := share,
                                   back := some (port, cls) } }
    let early := (∃ q ∈ s.transit, q.port = port ∧ q.slice = k ∧ q.cls = cls) ∨ pathFull (inStations [] s.transit) port k = true
    (pathOf port k ≠ [] → early ∨ canTake s k r.miss = false →
      portSend s port pa w alloc share cls = { s with transit := s.transit ++ [r] }) ∧
    (pathOf port k = [] ∨ (¬ early ∧ canTake s k r.miss = true) → portSend s port pa w alloc share cls = enterSlice s k r.miss)) ∧
  (∀ (s : State) (k p : Nat) (c : BitVec 4) (m : Miss), m.back = some (p, c) →
    (enterSlice s k m).slice k = (s.slice k).take m ∧
    ((s.slice k).hits m.line m.half = false → (canTake s k m = true ↔ m.write = false ∨ (s.slice k).misses.length < 64) ∧
      (enterSlice s k m).replies = s.replies) ∧
    ((s.slice k).hits m.line m.half = true → (canTake s k m = true ↔ pathFull s.replies p k = false) ∧
      (pathOf p k ≠ [] → (enterSlice s k m).replies = s.replies ++ [{ port := p, slice := k, cls := c, miss := m }]))) ∧
  (∀ (s : State) (k : Nat) (r : Transit), firstTaken s k [] (inStations [] s.transit) = some r →
    takeTransit s k = enterSlice { s with transit := s.transit.erase r } k r.miss ∧ r.slice = k ∧ canTake s k r.miss = true ∧
    ∃ older rest, inStations [] s.transit = older ++ r :: rest ∧
      ∀ q ∈ older, ¬ (q.port = r.port ∧ q.slice = r.slice ∧ q.cls = r.cls) ∧
        (q.slice = k → canTake s k q.miss = true → ∃ b ∈ older, b.port = q.port ∧ b.slice = q.slice ∧ b.cls = q.cls)) ∧
  (∀ (l : List Transit) (h : Hop), ((inStations [] l).filter fun q => (pathOf q.port q.slice).contains h).length ≤ 64)

/-- The controller serves a class only below its MIN, or below its CEIL with a weight; a class below its MIN before one that is not; and beyond the
MINs no class goes before the one it takes, by what each has been served of the remainder for its WEIGHT (R103). How the remainder is
shared out, and the unit, are the model's choice (log 5). -/
def Parts.SharesKept : Prop :=
  ∀ (s : State) (ctl : Nat) (ms : List Miss) (m : Miss), pickRequest s ctl ms = some m →
    m ∈ ms ∧ mayServe s ctl m.share = true ∧
    (∀ k ∈ ms, s.servedOf ctl k.share < (s.share k.share).min → s.servedOf ctl m.share < (s.share m.share).min) ∧
    ∀ k ∈ ms, mayServe s ctl k.share = true → (s.share m.share).min ≤ s.servedOf ctl m.share →
      s.extraOf ctl m.share * (s.share k.share).weight ≤ s.extraOf ctl k.share * (s.share m.share).weight

/-- The number of a unit in its records: the tile of a scratchpad line, the slice of a cache way, the cell of a frame (R395). -/
def recordOf (u : HwUnit) (k : Nat) : Nat :=
  match u with
  | .scratchpad => k / 32768
  | .cacheWay => k / 32
  | .configFrame => k % 2048
  | _ => k

/-- SELF-TESTS (R378, R395): a test that an error scheduled is made once, at the unit's quiescent point, with a record; a LASTING fault, or a
third within a day, takes a spare, or takes the unit out of use. The numbers of the units (a scratchpad line is its tile times 32,768 plus
the line, a way its slice times 32 plus the way, a frame its number times 2,048 plus its cell) are the model's choice (log 27), and so is
which line a tested way gives up (log 9). -/
def Parts.SelfTests : Prop :=
  ∀ (s : State) (k : Nat) (lasting : Bool),
    (∀ u : HwUnit, tGet false s.testsDue (unitKey u k) = false → exec (.selfTest u k lasting) s = .next s) ∧
    (∀ u : HwUnit, quiescent s u k = false → exec (.selfTest u k lasting) s = .next s) ∧
    (∀ u : HwUnit, tGet false s.testsDue (unitKey u k) = true → quiescent s u k = true → ∃ t, exec (.selfTest u k lasting) s = .next t ∧
      tGet false t.testsDue (unitKey u k) = false ∧ (∀ j, j ≠ unitKey u k → tGet false t.testsDue j = tGet false s.testsDue j) ∧
      ∃ time, tGet 0 t.errLog (s.errHead.toNat % 128) =
        errorRecord 3 (unitCode u) (recordOf u k) (if (lasting || thirdFault (s.faultsOf u k)) = true then 2 else 1) time 0) ∧
    (tGet false s.testsDue (unitKey .scratchpad k) = true → ∃ t, exec (.selfTest .scratchpad k lasting) s = .next t ∧
      let line := k % 32768
      let u := s.tile (k / 32768)
      let v := t.tile (k / 32768)
      ((lasting || thirdFault (s.faultsOf .scratchpad k)) = true →
        (tGet 0 u.spares (line % 32) < 8 → tGet 0 v.spares (line % 32) = tGet 0 u.spares (line % 32) + 1 ∧ v.excluded = u.excluded ∧
          t.errHead = s.errHead + 2) ∧
        (8 ≤ tGet 0 u.spares (line % 32) → v.excluded = true ∧ t.errHead = s.errHead + 1)) ∧
      ((lasting || thirdFault (s.faultsOf .scratchpad k)) = false → t.tiles = s.tiles ∧ t.errHead = s.errHead + 1)) ∧
    (tGet false s.testsDue (unitKey .cacheWay k) = true → ∃ t, exec (.selfTest .cacheWay k lasting) s = .next t ∧ sameMemory s t ∧
      let sl := s.slice (k / 32)
      let v := t.slice (k / 32)
      ((lasting || thirdFault (s.faultsOf .cacheWay k)) = true →
        (0 < sl.spareWays → v.spareWays = sl.spareWays - 1 ∧ v.ways = sl.ways ∧ t.errHead = s.errHead + 2) ∧
        (sl.spareWays = 0 → v.ways = sl.ways - 1 ∧ t.errHead = s.errHead + 1)) ∧
      ((lasting || thirdFault (s.faultsOf .cacheWay k)) = false →
        v.ways = sl.ways ∧ v.spareWays = sl.spareWays ∧ t.errHead = s.errHead + 1)) ∧
    (tGet false s.testsDue (unitKey .configFrame k) = true → quiescent s .configFrame k = true →
      ∃ t, exec (.selfTest .configFrame k lasting) s = .next t ∧ t.errHead = s.errHead + 1 ∧
      tGet false t.badCells (k % 2048) = ((lasting || thirdFault (s.faultsOf .configFrame k)) || tGet false s.badCells (k % 2048)))

/-- The parts above, together. -/
def Obligations.PortsSlicesTests : Prop :=
  Parts.PortRequests ∧ Parts.PortOfAddress ∧ Parts.SliceEvents ∧ Parts.Stations ∧ Parts.SharesKept ∧ Parts.SelfTests

/-! ### Resets, errors and power -/

/-- FATAL ERRORS (R381): the device logs the error, writes its dump, encrypted and cut off at 2 GiB with TRUNC set, and then takes nothing but a hot
reset (and reads of `FNSTAT`, and power). -/
def Parts.Fatal : Prop :=
  ∀ s : State, ∃ u, exec .fatalError s = .next u ∧ exec .watchdogExpiry s = .next u ∧ u.mode = .fatal ∧
    u.errHead = s.errHead + 1 ∧ u.tiles = s.tiles ∧ u.ctxs = s.ctxs ∧ u.devMem = s.devMem ∧
    (let text := dumpText (logError s errFatal 0 0 0 0)
     u.dump = some { bytes := Config.dumpCipher (text.take (2 ^ 31)), trunc := decide (2 ^ 31 < text.length) }) ∧
    ∀ (i : Instr) (rest : List Stimulus), u.agenda = .act i :: rest → wellFormed i = true →
      i ≠ .hotReset → (∀ r fw, i ≠ .powerGood r fw) → (∀ f, i ≠ .fnstat f) → step u = .next (u.withAgenda rest).advance

/-- THE DUMP'S TEXT (R71, R381): it ends with the error log's records, and every word of a tile that differs from zero stands in it, in its line. The layout is the model's choice (log 3). -/
def Parts.DumpText : Prop :=
  ∀ (s : State) (t off : Nat), t < 2048 → off % 64 = 0 →
    (∃ pre, dumpText s = pre ++ s.errLog.flatMap fun e => natBytes 32 e.2.toNat) ∧
    ((∃ k, k < 8 ∧ dumpWord s t (off + 8 * k) ≠ 0) → off < 0x21C000 →
      ∃ pre post, dumpText s = pre ++ opmLine s t off ++ post)

/-- THE HOST LINK (R270, R285, R390, R391): when it goes down every function notes the loss and loses its sessions, host pages are forgotten, host
streams end with HOSTLINK, and commands in flight on host buffers are abandoned; a function that used no IDE and no TDISP has its host memory again
with the link. -/
def Parts.HostLink : Prop :=
  ∀ s : State, (∃ u, exec .pcieLinkDown s = .next u ∧ u.linkUp = false ∧ u.atsCache = [] ∧ u.hostRequests = [] ∧
      (∀ f, f < 32 → (u.function f).linkLost = true ∧ (u.function f).ideUp = false ∧ (u.function f).tdispLocked = false ∧
        (u.function f).aqCtl = (s.function f).aqCtl) ∧ (∀ f, u.hostReady f = false) ∧ u.devMem = s.devMem ∧ u.hostMem = s.hostMem ∧
      (∀ n c i e r, tFind s.ctxs n = some c → s.endpoint c i = some e → (e.kind = .hostIn ∨ e.kind = .hostOut) →
        (c.generator i).active = true → c.run = some r → ∃ c' r', tFind u.ctxs n = some c' ∧ (c'.generator i).active = false ∧
          c'.run = some r' ∧ (r.fail = none → ∃ f, r'.fail = some f ∧ f.status = Status.HOSTLINK.code) ∧
          (r.fail ≠ none → r'.fail = r.fail)) ∧
      ∀ t e q w, e = .L ∨ e = .S → q ∈ (s.tile t).queue e → hostWork s t e q = some w → ∀ p ∈ (u.tile t).queue e, p.id ≠ q.id) ∧
    ∃ u, exec .pcieLinkUp s = .next u ∧ u.linkUp = true ∧ u.functions = s.functions ∧ u.ctxs = s.ctxs ∧
      ∀ f, (s.function f).ideUsed = false → (s.function f).tdispUsed = false → u.hostReady f = true

/-- RESETS (R114, R381, R390-R392): a hot reset and a reset of the physical function destroy every context without a record, raise the generations,
remove every queue and return the registers to their reset values; spares and exclusions stay. After a fatal error a hot reset makes the device
ready again. A reset of a virtual function does the same for that function alone, and its IDE stands. What each kind of reset keeps
beyond the rules' words is the model's reading (log 27). -/
def Parts.Resets : Prop :=
  ∀ s : State,
    (∀ u, (exec .hotReset s = .next u ∨ exec .pfFlr s = .next u) →
      u.ctxs = [] ∧ u.subQs = [] ∧ u.compQs = [] ∧ u.held = [] ∧ u.keySlots = [] ∧ u.images = [] ∧ u.functions = [] ∧ u.pwrCap = 7500 ∧
      u.shares = [] ∧ u.errLog = s.errLog ∧ u.dump = s.dump ∧ (∀ p, u.jet p = JetPort.reset) ∧
      (∀ n, tFind s.ctxs n = none → tGet 0 u.gens n = tGet 0 s.gens n) ∧
      (tSorted 0 s.ctxs = true → ∀ n c, tFind s.ctxs n = some c → tGet 0 u.gens n = c.gen + 1) ∧
      ∀ t, tSorted 0 s.tiles = true → u.tile t = { Tile.reset with spares := (s.tile t).spares, excluded := (s.tile t).excluded }) ∧
    (∃ u, exec .hotReset s = .next u ∧ (u.mode = if s.mode = .fatal then .ready else s.mode) ∧
      u.bridges = if s.mode = .fatal then [] else s.bridges) ∧
    (∃ u, exec .pfFlr s = .next u ∧ u.mode = s.mode ∧ u.bridges = s.bridges) ∧
    (∀ f, f ≠ 0 → ∃ u, exec (.vfFlr f) s = .next u ∧ (u.function f).aqCtl = 0 ∧ (u.function f).dbDrop = 0 ∧
      (u.function f).allow = (s.function f).allow ∧ (u.function f).ideUp = (s.function f).ideUp ∧ (u.function f).tdispLocked = false ∧ (∀ g, g ≠ f → u.function g = s.function g) ∧
      (∀ q k, tFind u.subQs q = some k → k.ring.func ≠ f) ∧ u.pwrCap = s.pwrCap)

/-- BOOT (R401): with power the device boots to its reset state, with nothing kept that is volatile; a ROM that fails its check leaves it off, and
firmware that does not verify leaves it in recovery. That the device is off with a failing ROM is the model's reading (log 27). -/
def Parts.Boots : Prop :=
  ∀ (ok : Bool) (fw : List Byte) (s : State), ∃ u, exec (.powerGood ok fw) s = .next u ∧
    u.tiles = [] ∧ u.ctxs = [] ∧ u.devMem = [] ∧ u.functions = [] ∧ u.errHead = 0 ∧ u.dump = none ∧ u.hostMem = s.hostMem ∧
    u.mode = (if ok = false then .off else if Config.firmwareVerifies fw then .ready else .recovery) ∧
    (u.mode = .ready → u.fwDigest = sha3 fw) ∧ u.cycle = 0 ∧ u.bridges = []

/-- POWER AND TEMPERATURE (R395, R405): TEMP counts eighths of a degree; from 105 °C the pipes are throttled until it falls below, at 115 °C the device
trips, which leaves it off by the model's reading (log 27); the pipes stall after a window whose mean power is above the cap. -/
def Parts.PowerAndHeat : Prop :=
  ∀ (s : State) (mw : Nat),
    (8 * 105 ≤ s.temp.toNat → exec .thermalThrottle s = .next { s with throttled := true }) ∧
    (s.temp.toNat < 8 * 105 → exec .dieTemperatureFall s = .next { s with throttled := false }) ∧
    (8 * 115 ≤ s.temp.toNat → exec .thermalTrip s = .next { s with tripped := true, mode := .off, outbox := s.outbox ++ [.thermalTrip] }) ∧
    (1000 * s.pwrCap.toNat < mw → exec (.powerCapWindow mw) s = .next { s with capped := true }) ∧
    (mw ≤ 1000 * s.pwrCap.toNat → exec (.powerCapWindow mw) s = .next { s with capped := false })

/-- The events of this section. -/
def resetEvents (f : Nat) (ok : Bool) (fw : List Byte) (mw : Nat) : List Instr :=
  [.fatalError, .watchdogExpiry, .pcieLinkDown, .pcieLinkUp, .hotReset, .pfFlr, .vfFlr f, .powerGood ok fw, .thermalThrottle, .thermalTrip,
    .powerCapWindow mw, .dieTemperatureFall]

/-- Every event of this section is carried out in every state; below 105 °C and 115 °C, and from 105 °C on, those of temperature change nothing. -/
def Parts.ResetsComplete : Prop :=
  ∀ (f mw : Nat) (ok : Bool) (fw : List Byte) (s : State),
    (∀ i ∈ resetEvents f ok fw mw, ∃ u, exec i s = .next u) ∧
    (s.temp.toNat < 8 * 105 → exec .thermalThrottle s = .next s) ∧
    (s.temp.toNat < 8 * 115 → exec .thermalTrip s = .next s) ∧
    (8 * 105 ≤ s.temp.toNat → exec .dieTemperatureFall s = .next s) ∧
    exec (.vfFlr 0) s = .next s

/-- A DIE BRIDGE (R381, R398, R399): flits close as a run after 17 of them, or when the sender is idle, and the run is kept; one whose tag
verifies is released in turn and acknowledged, one seen before acknowledged alone; one that fails is discarded, with a record, and the
sender sends it and every later one again; the third in a row is a fatal error of the bridge. The record of a failure, and the form in
which a run is asked for again, are the model's choice (log 27). -/
def Parts.Bridges : Prop :=
  ∀ (s : State) (k : Nat), s.mode = .ready →
    let b := tGet .reset s.bridges k
    let put (v : DieBridge) : State := { s with bridges := tSet .reset s.bridges k v }
    (∀ f, b.txq.length < 16 → takeInput s (.bridgeFlits k [f]) = put { b with txq := b.txq ++ [f] }) ∧
    (∀ f, b.txq.length = 16 → takeInput s (.bridgeFlits k [f]) =
      put { b with txq := [], unacked := b.unacked ++ [(b.seq, b.txq ++ [f])], wire := b.wire ++ [b.seq], seq := b.seq + 1 }) ∧
    (b.txq ≠ [] → b.txq.length ≤ 17 → takeInput s (.bridgeIdle k) =
      put { b with txq := [], unacked := b.unacked ++ [(b.seq, b.txq)], wire := b.wire ++ [b.seq], seq := b.seq + 1 }) ∧
    (b.wire = [] → ∀ ok, takeInput s (.bridgeRun k ok) = s) ∧
    (∀ n rest, b.wire = n :: rest →
      (n = b.expect → ∀ run, tFind b.unacked n = some run → takeInput s (.bridgeRun k true) =
        put { b with wire := rest, strikes := 0, expect := n + 1, released := b.released ++ run,
                     unacked := b.unacked.filter fun r => decide (n < r.1) }) ∧
      (n < b.expect → takeInput s (.bridgeRun k true) =
        put { b with wire := rest, strikes := 0, unacked := b.unacked.filter fun r => decide (n < r.1) }) ∧
      (b.expect < n → takeInput s (.bridgeRun k true) = put { b with wire := rest, strikes := 0 }) ∧
      (b.strikes < 2 → ∃ u time, takeInput s (.bridgeRun k false) = u ∧
        tGet .reset u.bridges k = { b with wire := rest ++ (b.unacked.filter fun r => decide (n ≤ r.1)).map (·.1), strikes := b.strikes + 1 } ∧
        u.mode = .ready ∧ u.errHead = s.errHead + 1 ∧ tGet 0 u.errLog (s.errHead.toNat % 128) = errorRecord 1 7 k 0 time 0) ∧
      (2 ≤ b.strikes → ∃ u time, takeInput s (.bridgeRun k false) = u ∧ u.mode = .fatal ∧ u.errHead = s.errHead + 1 ∧
        tGet 0 u.errLog (s.errHead.toNat % 128) = errorRecord 5 7 k 0 time 0))

/-- The parts above, together. -/
def Obligations.ResetsAndPower : Prop :=
  Parts.Fatal ∧ Parts.DumpText ∧ Parts.HostLink ∧ Parts.Resets ∧ Parts.Boots ∧ Parts.PowerAndHeat ∧ Parts.ResetsComplete ∧ Parts.Bridges

/-! ### Registers, jet links, and security -/

/-- THE REGISTERS (R388, R395, R396): AQCTL ignores a LOGN above 10 and undefined bits, and otherwise stores, makes the admin pair with bit 31 rising,
and deletes it with bit 31 clear; DBDROP is cleared by 0 alone; EVICT and PWRCAP are the physical function's; FNSTAT ends LINKLOST. -/
def Parts.Registers : Prop :=
  ∀ (f : Nat) (v : Word) (s : State),
    ((onlyBits v.toNat [(0, 24), (31, 1)] = false ∨ 10 < v.toNat % 16) → exec (.aqctl f v) s = .next s) ∧
    (onlyBits v.toNat [(0, 24), (31, 1)] = true → v.toNat % 16 ≤ 10 → ∃ u, exec (.aqctl f v) s = .next u ∧
      (u.function f).aqCtl = v ∧
      (v.getLsbD 31 = true → (s.function f).aqCtl.getLsbD 31 = false → ∃ k r, tFind u.subQs f = some k ∧ tFind u.compQs f = some r ∧
        k.ring.func = f ∧ k.ring.host = true ∧ k.ring.base = (s.function f).aqBase.toNat ∧ r.base = (s.function f).acqBase.toNat ∧
        k.ring.size = 2 ^ (v.toNat % 16 + 6) ∧ k.ring.dcq = f ∧ k.ring.count = 0) ∧
      (v.getLsbD 31 = false → tFind u.subQs f = none ∧ tFind u.compQs f = none)) ∧
    exec (.dbdrop f v) s = .next (if v = 0 then s.onFunction f (fun fn => { fn with dbDrop := 0 }) else s) ∧
    (f ≠ 0 ∨ v.getLsbD 31 = false → exec (.evict f v) s = .next s) ∧
    (v.getLsbD 31 = true → ∀ c, tFind s.ctxs (v.toNat % 32) = some c → ∃ u c', exec (.evict 0 v) s = .next u ∧
      tFind u.ctxs (v.toNat % 32) = some c' ∧ c'.evictAsked = (decide (c.phase = .placed) || c.evictAsked)) ∧
    exec (.pwrcap 0 v) s = .next { s with pwrCap := if v.toNat < 2000 then 2000 else if 7500 < v.toNat then 7500 else v } ∧
    (f ≠ 0 → exec (.pwrcap f v) s = .next s) ∧
    (∃ u, exec (.fnstat f) s = .next u ∧ (u.function f).linkLost = false ∧ u.outbox = s.outbox ++ [.registerRead f (fnstatWord s f)])

/-- The other registers of BAR0 (R395): AQBASE, ACQBASE and HTBASE; allocations and pools, whose low 16 bits are ignored, of the physical function, while
the function has no context. -/
def Parts.StoredRegisters : Prop :=
  ∀ (f n : Nat) (v : Word) (s : State),
    exec (.registerWrite f 0 v) s = .next (s.onFunction f fun fn => { fn with aqBase := v }) ∧
    exec (.registerWrite f 0x10 v) s = .next (s.onFunction f fun fn => { fn with acqBase := v }) ∧
    exec (.registerWrite f 0x18 v) s = .next (s.onFunction f fun fn => { fn with htBase := v }) ∧
    (n < 32 → s.hasContext n = true → exec (.registerWrite 0 (0x1000 + 16 * n) v) s = .next s ∧
      exec (.registerWrite 0 (0x1800 + 16 * n) v) s = .next s) ∧
    (n < 32 → s.hasContext n = false →
      ∃ u u', exec (.registerWrite 0 (0x1000 + 16 * n) v) s = .next u ∧ exec (.registerWrite 0 (0x1008 + 16 * n) v) s = .next u' ∧
      (u.function n).allocBase = v &&& 0xFFFFFFFFFFFF0000 ∧ (u'.function n).allocSize = v &&& 0xFFFFFFFFFFFF0000 ∧
      (u.function n).poolBase = (s.function n).poolBase)

/-- BAR4 (R394): a read or write of the function's allocation, in plaintext; beyond it, and under a TDISP lock for a request that is not TDI-bound
under IDE, an unsupported request. -/
def Parts.Bar4 : Prop :=
  ∀ (f off n : Nat) (bs : List Byte) (s : State), s.linkUp = true →
    let fn := s.function f
    ((fn.allocSize.toNat < off + n ∨ (fn.tdispLocked = true ∧ ¬ (fn.ideUp = true ∧ fn.tdiBound = true))) → ∀ d, exec (.bar4Access f off n d) s =
      .next { s with outbox := s.outbox ++ [.unsupportedRequest f] }) ∧
    (off + n ≤ fn.allocSize.toNat → (fn.tdispLocked = false ∨ (fn.ideUp = true ∧ fn.tdiBound = true)) →
      exec (.bar4Access f off n none) s = .next { s with outbox := s.outbox ++ [.bar4Data f (devBytes s 0 (fn.allocBase.toNat + off) n)] } ∧
      ∃ u, exec (.bar4Access f off n (some bs)) s = .next u ∧ u.outbox = s.outbox ∧
        ∀ x, fn.allocBase.toNat + off ≤ x → x < fn.allocBase.toNat + off + min n bs.length → x < hbmBytes →
          u.devMem.byte x = bs.getD (x - (fn.allocBase.toNat + off)) 0)

/-- THE REGISTERS READ (R388, R395, R396): a virtual function reads the physical function's as zero; a read of `FNSTAT` ends LINKLOST; after
a fatal error `FNSTAT` alone answers, the model's reading (log 27). -/
def Parts.RegisterReads : Prop :=
  ∀ (f n p off : Nat) (s : State),
    let fn := s.function f
    (s.mode = .ready ∨ s.mode = .recovery → (takeInput s (.registerRead f off)).outbox = s.outbox ++ [.registerRead f (readRegister s f off)] ∧
      (off ≠ 0x28 → (takeInput s (.registerRead f off)).functions = s.functions) ∧
      ((takeInput s (.registerRead f 0x28)).function f).linkLost = false) ∧
    (s.mode = .fatal → off ≠ 0x28 → takeInput s (.registerRead f off) = s) ∧
    (s.mode = .off → takeInput s (.registerRead f off) = s) ∧
    (readRegister s f 0 = fn.aqBase ∧ readRegister s f 0x8 = fn.aqCtl ∧ readRegister s f 0x10 = fn.acqBase ∧ readRegister s f 0x18 = fn.htBase ∧
      readRegister s f 0x20 = fn.dbDrop.setWidth 64 ∧ readRegister s f 0x28 = fnstatWord s f) ∧
    (f ≠ 0 → 0x1000 ≤ off → readRegister s f off = 0) ∧
    (n < 32 → readRegister s 0 (0x1000 + 16 * n) = (s.function n).allocBase ∧ readRegister s 0 (0x1008 + 16 * n) = (s.function n).allocSize ∧
      readRegister s 0 (0x1800 + 16 * n) = (s.function n).poolBase ∧ readRegister s 0 (0x1808 + 16 * n) = (s.function n).poolSize) ∧
    (readRegister s 0 0x1208 = s.pwrCap ∧ readRegister s 0 0x1210 = s.power ∧ readRegister s 0 0x1218 = s.temp ∧
      readRegister s 0 0x1220 = s.errHead) ∧
    (n < 128 → ∀ k, k < 4 → readRegister s 0 (0x2000 + 32 * n + 8 * k) = (tGet 0 s.errLog n).extractLsb' (64 * k) 64) ∧
    (p < 64 → ∃ w : Word, readRegister s 0 (0x1400 + 8 * p) = w ∧ w.getLsbD 0 = (s.jet p).enabled ∧
      w.extractLsb' 8 8 = BitVec.ofNat 8 (s.jet p).fails ∧ w.extractLsb' 20 6 = (s.jet p).tagRun ∧ w.extractLsb' 32 12 = (s.jet p).srcId ∧
      w.extractLsb' 16 2 = (match (s.jet p).link with
        | .down => 0#2
        | .training => 1#2
        | .up => 2#2
        | .failed => 3#2))

/-- JET LINKS (R396-R400): a trained link comes up with empty runs and a first key, and grants the windows of its bound JET-INs; a run leaves with
its tag and waits for its acknowledgement; one whose tag verifies in turn is released, one that fails is asked for again, and the third failure
fails the link, each with a record; a request resends what is unacknowledged; keys rotate; JPCTL trains and stops a link. That three
requests for a replay in a row fail the link, and that the windows of bound JET-INs are granted when a link comes up, are the model's
readings (log 28); the kind of the record is its choice (log 27). -/
def Parts.JetLinks : Prop :=
  ∀ (p k : Nat) (peer : BitVec 12) (s : State),
    let j := s.jet p
    (j.enabled = true → j.link = .training → ∃ u, exec (.jetLinkUp p peer) s = .next u ∧ (u.jet p).link = .up ∧ (u.jet p).peer = peer ∧
      (u.jet p).seq = 0 ∧ (u.jet p).expect = 0 ∧ (u.jet p).unacked = [] ∧ (u.jet p).keyEpoch = 1 ∧ (u.jet p).fails = 0 ∧
      ∀ n c i e stag, tFind s.ctxs n = some c → s.endpoint c i = some e → e.kind = .jetIn → c.operand i = .jetIn stag →
        (c.generator i).active = true → c.jetOf e = some p → ∃ x ∈ (u.jet p).txq, x.msg = .credit stag jetWindow) ∧
    (j.link = .up → j.txq ≠ [] → j.seq + 1 < 2 ^ 48 * j.keyEpoch → ∃ u, exec (.tagRunClose p) s = .next u ∧
      u.outbox = s.outbox ++ [.jetRun p j.seq (j.txq.take (j.tagRun.toNat + 1))] ∧ (u.jet p).seq = j.seq + 1 ∧
      (u.jet p).txq = j.txq.drop (j.tagRun.toNat + 1) ∧ (u.jet p).unacked = j.unacked ++ [(j.seq, j.txq.take (j.tagRun.toNat + 1))]) ∧
    (j.link = .up → exec (.tagFlitReceive p k true) s = .next (acceptRun s p k) ∧
      exec (.tagFlitReceive p k false) s = .next (rejectRun s p k)) ∧
    (j.link = .up → j.strikes < 2 → ∃ u, exec (.tagFlitReceive p k false) s = .next u ∧ (u.jet p).rx = [] ∧ (u.jet p).expect = j.expect ∧
      (u.jet p).link = .up ∧ u.outbox = s.outbox ++ [.jetReplayAsked p k] ∧ u.errHead = s.errHead + 1 ∧
      ∃ time, tGet 0 u.errLog (s.errHead.toNat % 128) = errorRecord 1 6 p 0 time 0) ∧
    (j.link = .up → 2 ≤ j.strikes → ∃ u, exec (.tagFlitReceive p k false) s = .next u ∧ (u.jet p).link = .failed ∧
      u.errHead = s.errHead + 1 ∧ ∃ time, tGet 0 u.errLog (s.errHead.toNat % 128) = errorRecord 2 6 p 0 time 0) ∧
    (j.link = .up → j.asked < 2 → ∃ u, exec (.replayRequest p k) s = .next u ∧ u.outbox = s.outbox ++
      ((j.unacked.filter fun r => k ≤ r.1).map fun r => .jetRun p r.1 r.2) ∧ (u.jet p).unacked = j.unacked) ∧
    (j.link = .up → 2 ≤ j.asked → ∃ u, exec (.replayRequest p k) s = .next u ∧ (u.jet p).link = .failed ∧ (u.jet p).unacked = []) ∧
    (j.link = .up → exec (.keyRotation p) s = .next (s.onJet p fun j => { j with keyEpoch := j.keyEpoch + 1 })) ∧
    (∀ v : Word, (j.enabled = false → v.getLsbD 0 = true → ∃ u, exec (.jpctl 0 p v) s = .next u ∧ (u.jet p).enabled = true ∧
        (u.jet p).link = .training ∧ (u.jet p).tagRun = v.extractLsb' 20 6 ∧ (u.jet p).srcId = v.extractLsb' 32 12) ∧
      (j.enabled = true → v.getLsbD 0 = false → ∃ u, exec (.jpctl 0 p v) s = .next u ∧ (u.jet p).enabled = false ∧
        (u.jet p).link = .down ∧ (u.jet p).tagRun = j.tagRun) ∧
      exec (.jpctl 1 p v) s = .next s)

/-- A run accepted in turn (R398) is released and acknowledged; a run seen before is acknowledged
again, and not released. -/
def Parts.RunsInTurn : Prop :=
  ∀ (p k : Nat) (s : State),
    ((s.jet p).rx = [] → k = (s.jet p).expect → ((acceptRun s p k).jet p).expect = k + 1 ∧
      (acceptRun s p k).outbox = s.outbox ++ [.jetRunAck p k]) ∧
    (k < (s.jet p).expect → ((acceptRun s p k).jet p).expect = (s.jet p).expect ∧ ((acceptRun s p k).jet p).arrived = (s.jet p).arrived ∧
      (acceptRun s p k).outbox = s.outbox ++ [.jetRunAck p k]) ∧
    ((s.jet p).expect < k → ((acceptRun s p k).jet p).expect = (s.jet p).expect ∧ (acceptRun s p k).outbox = s.outbox)

/-- SECURITY (R391, R402, R403): evidence and certificates are answered over SPDM, and a locked interface's evidence in a TDISP interface report
(that the lock is needed: log 27); it is 200 bytes with a signature of 2,420; IDE and TDISP are established on a link that is up. -/
def Parts.Security : Prop :=
  ∀ (f n : Nat) (nonce : BitVec 256) (s : State),
    s.linkUp = true →
      exec (.ideEstablishment f) s = .next (s.onFunction f fun fn => { fn with ideUsed := true, ideUp := true }) ∧
      exec (.tdispLockInterface f) s = .next (s.onFunction f fun fn => { fn with tdispUsed := true, tdispLocked := true }) ∧
      exec (.spdmGetCertificate 0) s = .next { s with outbox := s.outbox ++ [.spdm Config.certificate] } ∧
      (∀ c im, tFind s.ctxs n = some c → s.imageOf c = some im → c.func = f →
        exec (.spdmMeasurements f n nonce) s = .next { s with outbox := s.outbox ++ [.spdm (evidence s f n c im nonce)] } ∧
        (s.mode = .ready → (s.function f).tdispLocked = true → takeInput s (.interfaceReport f n nonce) =
          { s with outbox := s.outbox ++ [.interfaceReport f (evidence s f n c im nonce)] }) ∧
        (evidence s f n c im nonce).take 200 = evidenceBody s f n c im nonce ∧
        (evidenceBody s f n c im nonce).length = 200 ∧ (evidence s f n c im nonce).length = 200 + 2420)

/-- FIRMWARE'S ACCESS TO A TILE (R68-R71, R119): RANGE where no window holds the offset, ALIGN for part of a word beyond the scratchpad; held on a
tile under clearing or state in use until it is made; of a protected context it reads zero and writes nothing; else it reads and writes the windows'
words. How firmware hears of a refusal is the model's reading (log 27). -/
def Parts.FirmwareAccess : Prop :=
  ∀ (t off : Nat) (w : Word) (d : Option Word) (s : State),
    let at_ (v : Option Word) : HeldAccess := { tile := t, offset := off, value := v }
    let done (v : Option Word) : State := { s with heldOpm := s.heldOpm.erase (at_ v) }
    (inOpmWindow off = false → exec (.firmwareOpmAccess t off d) s =
      .next { done d with outbox := s.outbox ++ [.opmRefused t .RANGE] }) ∧
    (inOpmWindow off = true → off % 8 ≠ 0 → 0x200000 ≤ off → exec (.firmwareOpmAccess t off d) s =
      .next { done d with outbox := s.outbox ++ [.opmRefused t .ALIGN] }) ∧
    (off % 8 = 0 → inOpmWindow off = true → ((s.tile t).clearing = true ∨ (s.tile t).opmBusy off = true) →
      ∃ u, exec (.firmwareOpmAccess t off d) s = .next u ∧ u.tiles = s.tiles ∧ u.outbox = s.outbox ∧ at_ d ∈ u.heldOpm) ∧
    (off % 8 = 0 → inOpmWindow off = true → (s.tile t).clearing = false → (s.tile t).opmBusy off = false →
      (protectedTile s t = true → exec (.firmwareOpmAccess t off none) s =
          .next { done none with outbox := s.outbox ++ [.opmData t 0] } ∧ exec (.firmwareOpmAccess t off (some w)) s = .next (done (some w))) ∧
      (protectedTile s t = false →
        exec (.firmwareOpmAccess t off none) s = .next { done none with outbox := s.outbox ++ [.opmData t (firmwareRead s t off)] } ∧
        exec (.firmwareOpmAccess t off (some w)) s = .next (firmwareWrite (done (some w)) t off w) ∧
        (off < 0x200000 → firmwareRead s t off = BitVec.ofNat 64 ((s.tile t).scratch.readNat off 8) ∧
          ∀ k, k < 8 → ((firmwareWrite s t off w).tile t).scratch.byte (off + k) = w.extractLsb' (8 * k) 8)))

/-- The parts above, together. -/
def Obligations.LinksAndSecurity : Prop :=
  Parts.Registers ∧ Parts.StoredRegisters ∧ Parts.RegisterReads ∧ Parts.Bar4 ∧ Parts.JetLinks ∧ Parts.RunsInTurn ∧ Parts.Security ∧
    Parts.FirmwareAccess

/-! ### An invariant -/

/-- EVERY STEP KEEPS PWRCAP WHERE R395 CLAMPS IT: whatever the device does, from any such state, the cap stays between 2,000 and 7,500 watts. -/
def Obligations.CapKept : Prop := ∀ s t : State, capLegal s → step s = .next t → capLegal t

/-- At reset the cap is within its bounds (R395), and a write of PWRCAP puts it there whatever it was. -/
def Obligations.CapAtReset : Prop :=
  capLegal State.reset ∧ ∀ (s t : State) (v : Word), exec (.pwrcap 0 v) s = .next t → capLegal t
end

