-- ==== Sys2Proof/Laws/Command.lean ====
section
/-! SUPPORT. The ends of a command of L, X or S: what `runCmd` makes of its body. -/

namespace Sys2Proof.Laws

open Sys2Proof Sys2Proof.Machine

variable {s s' : State} {e : Engine} {body : Nat → State → Res State}

/-- A body that ends well has performed the command. -/
theorem runCmd_ok (h : body s.here s = .ok s') : runCmd e s body = performs e s s' := by simp only [runCmd, h, performs]

/-- A body that traps leaves the state as it was, with the command trapped. -/
theorem runCmd_trap {c : Cause} {info : BitVec 14} (h : body s.here s = .error (.trap c info)) :
    runCmd e s body = trapsCmd e s c info := by simp only [runCmd, h, trapsCmd]

/-- A body that stalls leaves the command running, with nothing done. -/
theorem runCmd_stall (h : body s.here s = .error .stall) :
    runCmd e s body = .next (s.onEntry s.here e fun q => { q with phase := .running }) := by simp only [runCmd, h]

/-- A body that waits keeps what it has done. -/
theorem runCmd_wait (h : body s.here s = .error (.wait s')) :
    runCmd e s body = .next (s'.onEntry s.here e fun q => { q with phase := .running }) := by simp only [runCmd, h]

/-- No watch hits a span: the watches pass, and change nothing. -/
theorem watchSpans_quiet {t : Nat} : ∀ {sps : List Span},
    (∀ sp ∈ sps, watchOf (s.tile t) sp.addr sp.n sp.rd sp.wr = none) → watchSpans s t sps = .ok s
  | [], _ => rfl
  | sp :: rest, h => by
    simp only [watchSpans, checkWatch, h sp List.mem_cons_self]
    exact watchSpans_quiet fun x hx => h x (List.mem_cons_of_mem _ hx)

/-- The guards pass, and change nothing, where no watch hits a span, no subscriber entry holds an error, and no
lapsed region meets a span. -/
theorem guards_quiet {t : Nat} {sps : List Span} (hw : ∀ sp ∈ sps, watchOf (s.tile t) sp.addr sp.n sp.rd sp.wr = none)
    (hb : (s.tile t).subsBad = false) (hl : lapsedSpan (s.tile t) sps = none) : guards s t sps = .ok s := by
  simp only [guards, watchSpans_quiet hw, hb, hl]
  rfl

end Sys2Proof.Laws
end

