-- ==== Sys2Proof/Laws/Operands.lean ====
section
/-! SUPPORT. What the operand forms of C do on registers of the file, and what `runC` makes of each end of a body. -/

namespace Sys2Proof.Laws

open Sys2Proof Sys2Proof.Machine

/-- A body that ends well retires the instruction. -/
theorem runC_ok {s s' : State} {body : Nat → State → Res State} (h : body s.here s = .ok s') :
    runC s body = retired s s' := by simp only [runC, h, retired, pcOf]

/-- A body that traps leaves the state as it was. -/
theorem runC_trap {s : State} {body : Nat → State → Res State} {c : Cause} {info : BitVec 14}
    (h : body s.here s = .error (.trap c info)) : runC s body = traps s c info := by simp only [runC, h, traps, pcOf]

/-- A body that stalls leaves C waiting, with nothing done. -/
theorem runC_stall {s : State} {body : Nat → State → Res State} (h : body s.here s = .error .stall) :
    runC s body = waits s s := by simp only [runC, h, waits]

/-- A body that waits keeps what it has done. -/
theorem runC_wait {s s' : State} {body : Nat → State → Res State} (h : body s.here s = .error (.wait s')) :
    runC s body = waits s s' := by simp only [runC, h, waits]

/-- A register of the file is read in place. -/
theorem readReg_file {s : State} {rs : List (BitVec 5)} {r : BitVec 5} (h : inFile s rs) (hr : r ∈ rs) :
    readReg s.here r s = .ok (xr s r, s) := by simp [readReg, h r hr, xr]

/-- A register of the file is written in place. -/
theorem writeReg_file {s : State} {d : BitVec 5} {v : Word} {t : Nat} (h : isLink d = false) :
    writeReg t d v s = .ok (s.onTile t (·.setX d.toNat v)) := by simp [writeReg, h]

theorem checkAll_ok {l : List (Res Unit)} (h : ∀ c ∈ l, c = .ok ()) : checkAll l = .ok () := by
  induction l with
  | nil => rfl
  | cons c l ih =>
    have hc := h c (by simp)
    subst hc
    exact ih fun x hx => h x (by simp [hx])

/-- Registers of the file pass every link check. -/
theorem checkLinks_file {s : State} {t : Nat} {reads writes : List (BitVec 5)} (hr : ∀ r ∈ reads, isLink r = false)
    (hw : ∀ r ∈ writes, isLink r = false) : checkLinks t reads writes s = .ok () := by
  refine checkAll_ok fun c hc => ?_
  rcases List.mem_append.1 hc with h | h <;> obtain ⟨r, h1, rfl⟩ := List.mem_map.1 h
  · simp [checkRead, hr r h1]
  · simp [checkWrite, hw r h1]

theorem inFile_links {s : State} {rs : List (BitVec 5)} (h : inFile s rs) : ∀ r ∈ rs, isLink r = false :=
  fun r hr => (h r hr).1

/-- No register source. -/
theorem r0_file {s : State} {d : BitVec 5} {f : Tile → Word} (hd : isLink d = false) :
    runC s (r0 d f) = retired s (put s d (f (s.tile s.here))) := by
  refine runC_ok ?_
  simp only [r0, checkLinks_file (reads := []) (writes := [d]) (s := s) (by simp) (by simpa using hd), bind, Except.bind,
    writeReg_file hd, put]

/-- One register source. -/
theorem r1_file {s : State} {d a : BitVec 5} {f : Word → Word} (h : inFile s [a]) (hd : isLink d = false) :
    runC s (r1 d a f) = retired s (put s d (f (xr s a))) := by
  refine runC_ok ?_
  simp only [r1, checkLinks_file (writes := [d]) (s := s) (inFile_links h) (by simpa using hd), bind, Except.bind,
    readReg_file h (List.mem_singleton_self a), writeReg_file hd, put]

/-- Two register sources. -/
theorem rr_file {s : State} {d a b : BitVec 5} {f : Word → Word → Word} (h : inFile s [a, b]) (hd : isLink d = false) :
    runC s (rr d a b f) = retired s (put s d (f (xr s a) (xr s b))) := by
  refine runC_ok ?_
  simp only [rr, checkLinks_file (writes := [d]) (s := s) (inFile_links h) (by simpa using hd), bind, Except.bind,
    readReg_file h (show a ∈ [a, b] by simp), readReg_file h (show b ∈ [a, b] by simp), writeReg_file hd, put]

/-- Three register sources, the third the old rd. -/
theorem rrd_file {s : State} {d a b : BitVec 5} {f : Word → Word → Word → Word} (h : inFile s [a, b, d]) :
    runC s (rrd d a b f) = retired s (put s d (f (xr s a) (xr s b) (xr s d))) := by
  have hd : isLink d = false := (h d (by simp)).1
  refine runC_ok ?_
  simp only [rrd, checkLinks_file (writes := [d]) (s := s) (inFile_links h) (by simpa using hd), bind, Except.bind,
    readReg_file h (show a ∈ [a, b, d] by simp), readReg_file h (show b ∈ [a, b, d] by simp),
    readReg_file h (show d ∈ [a, b, d] by simp), writeReg_file hd, put]

end Sys2Proof.Laws
end

