-- ==== Sys2Proof/Laws/Flow.lean ====
section
/-! SUPPORT. The ends of a flow instruction: what `runFlow` makes of its evaluation. -/

namespace Sys2Proof.Laws

open Sys2Proof Sys2Proof.Machine

variable {s s1 : State} {eval : Nat → State → Res (State × Option Int)}

/-- While OUTSTANDING has reached DRIFT, C waits. -/
theorem runFlow_drift (h : (s.tile s.here).driftHolds = true) : runFlow s eval = waits s s := by simp [runFlow, h, waits]

/-- A taken target in the text. -/
theorem runFlow_taken {tgt : Int} {n : Nat} (h : (s.tile s.here).driftHolds = false)
    (he : eval s.here s = .ok (s1, some tgt)) (ht : tgt = n) (hn : n < (s.tile s.here).nwords) :
    runFlow s eval = flows s s1 n := by
  subst ht; simp [runFlow, h, he, flows]; omega

/-- A taken target outside the text. -/
theorem runFlow_range {tgt : Int} (h : (s.tile s.here).driftHolds = false) (he : eval s.here s = .ok (s1, some tgt))
    (ht : tgt < 0 ∨ ((s.tile s.here).nwords : Int) ≤ tgt) : runFlow s eval = traps s .RANGE 0 := by
  simp [runFlow, h, he, traps, pcOf]; omega

/-- Not taken. -/
theorem runFlow_next (h : (s.tile s.here).driftHolds = false) (he : eval s.here s = .ok (s1, none)) :
    runFlow s eval = flows s s1 (pcOf s + 1) := by
  simp [runFlow, h, he, flows, pcOf]

/-- A trap of the evaluation. -/
theorem runFlow_trap {c : Cause} {info : BitVec 14} (h : (s.tile s.here).driftHolds = false)
    (he : eval s.here s = .error (.trap c info)) : runFlow s eval = traps s c info := by
  simp [runFlow, h, he, traps, pcOf]

/-- A register of the file in a flow word. -/
theorem flowReg_file {rs : List (BitVec 5)} {r : BitVec 5} (h : inFile s rs) (hr : r ∈ rs) :
    flowReg s.here r s = .ok (xr s r) := by simp [flowReg, readReg_file h hr, (h r hr).1, check, bind, Except.bind]

/-- A link operand in a flow word is ILLOP (R163). -/
theorem flowReg_link {t : Nat} {r : BitVec 5} (h : isLink r = true) : flowReg t r s = trap .ILLOP := by
  simp [flowReg, h, check, trap, bind, Except.bind]

end Sys2Proof.Laws
end

