-- ==== Sys2Proof/Laws/Maps.lean ====
section
/-! SUPPORT. The laws of tables and memories: a read after a write, the frame of a write, and the canonical form, which
every operation keeps. -/

namespace Sys2Proof.Laws

open Sys2Proof Sys2Proof.Machine

variable {α : Type}

theorem tFind_tInsert (m : Table α) (k : Nat) (v : α) (j : Nat) :
    tFind (tInsert m k v) j = if j = k then some v else tFind m j := by
  induction m with
  | nil => simp [tInsert, tFind]
  | cons e rest ih =>
    obtain ⟨k', v'⟩ := e
    simp only [tInsert]
    split
    · subst_vars; simp only [tFind]; split <;> rfl
    · split
      · simp [tFind]
      · simp only [tFind, ih]; split <;> split <;> simp_all

theorem tFind_tErase (m : Table α) (k j : Nat) :
    tFind (tErase m k) j = if j = k then none else tFind m j := by
  induction m with
  | nil => simp [tErase, tFind]
  | cons e rest ih =>
    obtain ⟨k', v'⟩ := e
    simp only [tErase]
    split
    · subst_vars; simp only [ih, tFind]; split <;> rfl
    · simp only [tFind, ih]; split <;> split <;> simp_all

/-- A read after a write of the same key gives the value, and of another key what it gave before. -/
theorem tGet_tSet [DecidableEq α] (d : α) (m : Table α) (k : Nat) (v : α) (j : Nat) :
    tGet d (tSet d m k v) j = if j = k then v else tGet d m j := by
  unfold tSet tGet
  split
  · rw [tFind_tErase]; split <;> simp_all
  · rw [tFind_tInsert]; split <;> simp

@[simp] theorem tGet_tSet_self [DecidableEq α] (d : α) (m : Table α) (k : Nat) (v : α) :
    tGet d (tSet d m k v) k = v := by simp [tGet_tSet]

theorem tGet_tSet_ne [DecidableEq α] (d : α) (m : Table α) {k j : Nat} (v : α) (h : j ≠ k) :
    tGet d (tSet d m k v) j = tGet d m j := by simp [tGet_tSet, h]

@[simp] theorem tGet_nil (d : α) (k : Nat) : tGet d [] k = d := rfl

/-! ### The canonical form -/

theorem tSorted_mono {lo lo' : Nat} (h : lo' ≤ lo) {m : Table α} (hm : tSorted lo m = true) :
    tSorted lo' m = true := by
  cases m with
  | nil => rfl
  | cons e rest => obtain ⟨k, v⟩ := e; simp [tSorted] at hm ⊢; exact ⟨by omega, hm.2⟩

theorem tSorted_tInsert (m : Table α) (k : Nat) (v : α) (lo : Nat) (hk : lo ≤ k) (h : tSorted lo m = true) :
    tSorted lo (tInsert m k v) = true := by
  induction m generalizing lo with
  | nil => simp [tInsert, tSorted, hk]
  | cons e rest ih =>
    obtain ⟨k', v'⟩ := e
    simp only [tSorted, Bool.and_eq_true, decide_eq_true_eq] at h
    simp only [tInsert]
    split
    · subst_vars; simp [tSorted, h.2, hk]
    · split
      · simp only [tSorted, Bool.and_eq_true, decide_eq_true_eq]; exact ⟨hk, by omega, h.2⟩
      · simp only [tSorted, Bool.and_eq_true, decide_eq_true_eq]; exact ⟨h.1, ih _ (by omega) h.2⟩

theorem tSorted_tErase (m : Table α) (k lo : Nat) (h : tSorted lo m = true) : tSorted lo (tErase m k) = true := by
  induction m generalizing lo with
  | nil => rfl
  | cons e rest ih =>
    obtain ⟨k', v'⟩ := e
    simp only [tSorted, Bool.and_eq_true, decide_eq_true_eq] at h
    simp only [tErase]
    split
    · exact ih _ (tSorted_mono (by omega) h.2)
    · simp only [tSorted, Bool.and_eq_true, decide_eq_true_eq]; exact ⟨h.1, ih _ h.2⟩

theorem all_tInsert (p : Nat × α → Bool) (m : Table α) (k : Nat) (v : α) (hv : p (k, v) = true)
    (h : m.all p = true) : (tInsert m k v).all p = true := by
  induction m with
  | nil => simp [tInsert, hv]
  | cons e rest ih =>
    obtain ⟨k', v'⟩ := e
    simp only [List.all_cons, Bool.and_eq_true] at h
    simp only [tInsert]
    split
    · simp only [List.all_cons, hv, h.2, Bool.and_self]
    · split
      · simp only [List.all_cons, hv, h.1, h.2, Bool.and_self]
      · simp only [List.all_cons, h.1, ih h.2, Bool.and_self]

theorem all_tErase (p : Nat × α → Bool) (m : Table α) (k : Nat) (h : m.all p = true) :
    (tErase m k).all p = true := by
  induction m with
  | nil => rfl
  | cons e rest ih =>
    obtain ⟨k', v'⟩ := e
    simp only [List.all_cons, Bool.and_eq_true] at h
    simp only [tErase]
    split
    · exact ih h.2
    · simp [h.1, ih h.2]

/-- Writing a key keeps the canonical form. -/
theorem tWf_tSet [DecidableEq α] (d : α) (m : Table α) (k : Nat) (v : α) (h : tWf d m = true) :
    tWf d (tSet d m k v) = true := by
  simp only [tWf, Bool.and_eq_true] at h ⊢
  unfold tSet
  split
  · exact ⟨tSorted_tErase _ _ _ h.1, all_tErase _ _ _ h.2⟩
  · exact ⟨tSorted_tInsert _ _ _ _ (Nat.zero_le _) h.1, all_tInsert _ _ _ _ (by simpa using ‹_›) h.2⟩

/-- Unlisting a key keeps the canonical form. -/
theorem tWf_tErase [DecidableEq α] (d : α) (m : Table α) (k : Nat) (h : tWf d m = true) :
    tWf d (tErase m k) = true := by
  simp only [tWf, Bool.and_eq_true] at h ⊢
  exact ⟨tSorted_tErase _ _ _ h.1, all_tErase _ _ _ h.2⟩

/-! ### Memories -/

/-- A byte after a write of one byte. -/
theorem byte_setByte (m : Memory) (a : Nat) (b : Byte) (x : Nat) :
    (m.setByte a b).byte x = if x = a then b else m.byte x := tGet_tSet _ _ _ _ _

/-- Writing one byte keeps the canonical form. -/
theorem wf_setByte (m : Memory) (a : Nat) (b : Byte) (h : m.wf = true) : (m.setByte a b).wf = true :=
  tWf_tSet _ _ _ _ h

/-- Writing a number keeps the canonical form. -/
theorem wf_writeNat (m : Memory) (a n v : Nat) (h : m.wf = true) : (m.writeNat a n v).wf = true := by
  induction n generalizing m a v with
  | zero => exact h
  | succ n ih => exact ih _ _ _ (wf_setByte _ _ _ h)

/-- Writing a list of bytes keeps the canonical form. -/
theorem wf_writeBytes (m : Memory) (a : Nat) (bs : List Byte) (h : m.wf = true) : (m.writeBytes a bs).wf = true := by
  induction bs generalizing m a with
  | nil => exact h
  | cons b bs ih => exact ih _ _ (wf_setByte _ _ _ h)

/-- A byte outside a written run reads as before, and a byte inside reads as written. -/
theorem byte_writeBytes (m : Memory) (a : Nat) (bs : List Byte) (x : Nat) :
    (m.writeBytes a bs).byte x = if a ≤ x ∧ x < a + bs.length then bs.getD (x - a) 0 else m.byte x := by
  induction bs generalizing m a with
  | nil => simp only [Memory.writeBytes, List.length_nil, Nat.add_zero]; rw [if_neg (by omega)]
  | cons b bs ih =>
    simp only [Memory.writeBytes, ih, byte_setByte, List.length_cons]
    by_cases h1 : x = a
    · subst h1; rw [if_neg (by omega), if_pos rfl, if_pos (by omega), Nat.sub_self]; rfl
    · by_cases h2 : a + 1 ≤ x ∧ x < a + 1 + bs.length
      · rw [if_pos h2, if_pos (by omega)]
        obtain ⟨k, rfl⟩ : ∃ k, x = a + 1 + k := ⟨x - (a + 1), by omega⟩
        have e1 : a + 1 + k - a = k + 1 := by omega
        have e2 : a + 1 + k - (a + 1) = k := by omega
        rw [e1, e2]; rfl
      · rw [if_neg h2, if_neg h1, if_neg (by omega)]

end Sys2Proof.Laws
end

