-- ==== Sys2Proof/Laws/PerInstr.lean ====
section
/-! SUPPORT. Statements made of every instruction, one lemma per constructor: the word of an instruction is four bytes,
little-endian, and the decoder reads the word back from them (R2, R152). -/

namespace Sys2Proof.Laws

open Sys2Proof

/-- The four bytes of a word give the word back. -/
theorem wordOfBytes_bytesOfWord (w : IWord) (rest : List Byte) :
    wordOfBytes (bytesOfWord w ++ rest) = some (w, rest) := by
  simp only [bytesOfWord, List.cons_append, List.nil_append, wordOfBytes, Option.some.injEq, Prod.mk.injEq, and_true]
  apply BitVec.eq_of_getLsbD_eq
  intro i hi
  simp only [BitVec.getLsbD_append, BitVec.getLsbD_extractLsb']
  by_cases h1 : i < 8
  · simp [h1]
  · by_cases h2 : i < 16
    · have : i - 8 < 8 := by omega
      simp [h1, this, show 8 + (i - 8) = i by omega]
    · by_cases h3 : i < 24
      · have a : ¬ i - 8 < 8 := by omega
        have b : i - 8 - 8 < 8 := by omega
        simp [h1, a, b, show 16 + (i - 8 - 8) = i by omega]
      · have a : ¬ i - 8 < 8 := by omega
        have b : ¬ i - 8 - 8 < 8 := by omega
        have c : i - 8 - 8 - 8 < 8 := by omega
        simp [h1, a, b, c, show 24 + (i - 8 - 8 - 8) = i by omega]

/-- The word of an instruction, if it has one, is four bytes, and is read back from them whatever follows. -/
def WordSize.Statement (i : Instr) : Prop :=
  ∀ w, encode i = some w → (bytesOfWord w).length = 4 ∧ ∀ rest, wordOfBytes (bytesOfWord w ++ rest) = some (w, rest)

/-- The statement holds whatever the instruction. -/
theorem wordSize_all (i : Instr) : WordSize.Statement i := fun w _ => ⟨rfl, wordOfBytes_bytesOfWord w⟩

theorem WordSize.add (d : BitVec 5) (a : BitVec 5) (b : BitVec 5) : WordSize.Statement (.add d a b) := wordSize_all _
theorem WordSize.sub (d : BitVec 5) (a : BitVec 5) (b : BitVec 5) : WordSize.Statement (.sub d a b) := wordSize_all _
theorem WordSize.mul (d : BitVec 5) (a : BitVec 5) (b : BitVec 5) : WordSize.Statement (.mul d a b) := wordSize_all _
theorem WordSize.mulh (d : BitVec 5) (a : BitVec 5) (b : BitVec 5) : WordSize.Statement (.mulh d a b) := wordSize_all _
theorem WordSize.mulhsu (d : BitVec 5) (a : BitVec 5) (b : BitVec 5) : WordSize.Statement (.mulhsu d a b) := wordSize_all _
theorem WordSize.mulhx (d : BitVec 5) (a : BitVec 5) (b : BitVec 5) : WordSize.Statement (.mulhx d a b) := wordSize_all _
theorem WordSize.div (d : BitVec 5) (a : BitVec 5) (b : BitVec 5) : WordSize.Statement (.div d a b) := wordSize_all _
theorem WordSize.divx (d : BitVec 5) (a : BitVec 5) (b : BitVec 5) : WordSize.Statement (.divx d a b) := wordSize_all _
theorem WordSize.rem (d : BitVec 5) (a : BitVec 5) (b : BitVec 5) : WordSize.Statement (.rem d a b) := wordSize_all _
theorem WordSize.remx (d : BitVec 5) (a : BitVec 5) (b : BitVec 5) : WordSize.Statement (.remx d a b) := wordSize_all _
theorem WordSize.and (d : BitVec 5) (a : BitVec 5) (b : BitVec 5) : WordSize.Statement (.and d a b) := wordSize_all _
theorem WordSize.or (d : BitVec 5) (a : BitVec 5) (b : BitVec 5) : WordSize.Statement (.or d a b) := wordSize_all _
theorem WordSize.xor (d : BitVec 5) (a : BitVec 5) (b : BitVec 5) : WordSize.Statement (.xor d a b) := wordSize_all _
theorem WordSize.andn (d : BitVec 5) (a : BitVec 5) (b : BitVec 5) : WordSize.Statement (.andn d a b) := wordSize_all _
theorem WordSize.orn (d : BitVec 5) (a : BitVec 5) (b : BitVec 5) : WordSize.Statement (.orn d a b) := wordSize_all _
theorem WordSize.sll (d : BitVec 5) (a : BitVec 5) (b : BitVec 5) : WordSize.Statement (.sll d a b) := wordSize_all _
theorem WordSize.srl (d : BitVec 5) (a : BitVec 5) (b : BitVec 5) : WordSize.Statement (.srl d a b) := wordSize_all _
theorem WordSize.sra (d : BitVec 5) (a : BitVec 5) (b : BitVec 5) : WordSize.Statement (.sra d a b) := wordSize_all _
theorem WordSize.rol (d : BitVec 5) (a : BitVec 5) (b : BitVec 5) : WordSize.Statement (.rol d a b) := wordSize_all _
theorem WordSize.ror (d : BitVec 5) (a : BitVec 5) (b : BitVec 5) : WordSize.Statement (.ror d a b) := wordSize_all _
theorem WordSize.min (d : BitVec 5) (a : BitVec 5) (b : BitVec 5) : WordSize.Statement (.min d a b) := wordSize_all _
theorem WordSize.max (d : BitVec 5) (a : BitVec 5) (b : BitVec 5) : WordSize.Statement (.max d a b) := wordSize_all _
theorem WordSize.minx (d : BitVec 5) (a : BitVec 5) (b : BitVec 5) : WordSize.Statement (.minx d a b) := wordSize_all _
theorem WordSize.maxx (d : BitVec 5) (a : BitVec 5) (b : BitVec 5) : WordSize.Statement (.maxx d a b) := wordSize_all _
theorem WordSize.slt (d : BitVec 5) (a : BitVec 5) (b : BitVec 5) : WordSize.Statement (.slt d a b) := wordSize_all _
theorem WordSize.sltx (d : BitVec 5) (a : BitVec 5) (b : BitVec 5) : WordSize.Statement (.sltx d a b) := wordSize_all _
theorem WordSize.seq (d : BitVec 5) (a : BitVec 5) (b : BitVec 5) : WordSize.Statement (.seq d a b) := wordSize_all _
theorem WordSize.sne (d : BitVec 5) (a : BitVec 5) (b : BitVec 5) : WordSize.Statement (.sne d a b) := wordSize_all _
theorem WordSize.sel (d : BitVec 5) (a : BitVec 5) (b : BitVec 5) : WordSize.Statement (.sel d a b) := wordSize_all _
theorem WordSize.clz (d : BitVec 5) (a : BitVec 5) : WordSize.Statement (.clz d a) := wordSize_all _
theorem WordSize.ctz (d : BitVec 5) (a : BitVec 5) : WordSize.Statement (.ctz d a) := wordSize_all _
theorem WordSize.popc (d : BitVec 5) (a : BitVec 5) : WordSize.Statement (.popc d a) := wordSize_all _
theorem WordSize.sextB (d : BitVec 5) (a : BitVec 5) : WordSize.Statement (.sextB d a) := wordSize_all _
theorem WordSize.sextH (d : BitVec 5) (a : BitVec 5) : WordSize.Statement (.sextH d a) := wordSize_all _
theorem WordSize.sextW (d : BitVec 5) (a : BitVec 5) : WordSize.Statement (.sextW d a) := wordSize_all _
theorem WordSize.zextB (d : BitVec 5) (a : BitVec 5) : WordSize.Statement (.zextB d a) := wordSize_all _
theorem WordSize.zextH (d : BitVec 5) (a : BitVec 5) : WordSize.Statement (.zextH d a) := wordSize_all _
theorem WordSize.zextW (d : BitVec 5) (a : BitVec 5) : WordSize.Statement (.zextW d a) := wordSize_all _
theorem WordSize.lea (d : BitVec 5) (a : BitVec 5) (b : BitVec 5) (sh : BitVec 3) : WordSize.Statement (.lea d a b sh) := wordSize_all _
theorem WordSize.madd (d : BitVec 5) (a : BitVec 5) (b : BitVec 5) : WordSize.Statement (.madd d a b) := wordSize_all _
theorem WordSize.bfe (d : BitVec 5) (a : BitVec 5) (b : BitVec 5) : WordSize.Statement (.bfe d a b) := wordSize_all _
theorem WordSize.bfi (d : BitVec 5) (a : BitVec 5) (b : BitVec 5) : WordSize.Statement (.bfi d a b) := wordSize_all _
theorem WordSize.addi (d : BitVec 5) (a : BitVec 5) (imm : BitVec 14) : WordSize.Statement (.addi d a imm) := wordSize_all _
theorem WordSize.andi (d : BitVec 5) (a : BitVec 5) (imm : BitVec 14) : WordSize.Statement (.andi d a imm) := wordSize_all _
theorem WordSize.ori (d : BitVec 5) (a : BitVec 5) (imm : BitVec 14) : WordSize.Statement (.ori d a imm) := wordSize_all _
theorem WordSize.xori (d : BitVec 5) (a : BitVec 5) (imm : BitVec 14) : WordSize.Statement (.xori d a imm) := wordSize_all _
theorem WordSize.slli (d : BitVec 5) (a : BitVec 5) (sh : BitVec 6) : WordSize.Statement (.slli d a sh) := wordSize_all _
theorem WordSize.srli (d : BitVec 5) (a : BitVec 5) (sh : BitVec 6) : WordSize.Statement (.srli d a sh) := wordSize_all _
theorem WordSize.srai (d : BitVec 5) (a : BitVec 5) (sh : BitVec 6) : WordSize.Statement (.srai d a sh) := wordSize_all _
theorem WordSize.slti (d : BitVec 5) (a : BitVec 5) (imm : BitVec 14) : WordSize.Statement (.slti d a imm) := wordSize_all _
theorem WordSize.sltxi (d : BitVec 5) (a : BitVec 5) (imm : BitVec 14) : WordSize.Statement (.sltxi d a imm) := wordSize_all _
theorem WordSize.lui (d : BitVec 5) (imm : BitVec 19) : WordSize.Statement (.lui d imm) := wordSize_all _
theorem WordSize.auipc (d : BitVec 5) (imm : BitVec 19) : WordSize.Statement (.auipc d imm) := wordSize_all _
theorem WordSize.ld (d : BitVec 5) (a : BitVec 5) (oc : BitVec 4) (ar : BitVec 1) (scope : BitVec 3) (size : BitVec 2) (disp : BitVec 4) : WordSize.Statement (.ld d a oc ar scope size disp) := wordSize_all _
theorem WordSize.ldz (d : BitVec 5) (a : BitVec 5) (oc : BitVec 4) (ar : BitVec 1) (scope : BitVec 3) (size : BitVec 2) (disp : BitVec 4) : WordSize.Statement (.ldz d a oc ar scope size disp) := wordSize_all _
theorem WordSize.st (d : BitVec 5) (a : BitVec 5) (oc : BitVec 4) (ar : BitVec 1) (scope : BitVec 3) (size : BitVec 2) (disp : BitVec 4) : WordSize.Statement (.st d a oc ar scope size disp) := wordSize_all _
theorem WordSize.amoadd (d : BitVec 5) (a : BitVec 5) (oc : BitVec 4) (ar : BitVec 1) (scope : BitVec 3) (dbl : BitVec 1) : WordSize.Statement (.amoadd d a oc ar scope dbl) := wordSize_all _
theorem WordSize.amomin (d : BitVec 5) (a : BitVec 5) (oc : BitVec 4) (ar : BitVec 1) (scope : BitVec 3) (dbl : BitVec 1) : WordSize.Statement (.amomin d a oc ar scope dbl) := wordSize_all _
theorem WordSize.amomax (d : BitVec 5) (a : BitVec 5) (oc : BitVec 4) (ar : BitVec 1) (scope : BitVec 3) (dbl : BitVec 1) : WordSize.Statement (.amomax d a oc ar scope dbl) := wordSize_all _
theorem WordSize.aminx (d : BitVec 5) (a : BitVec 5) (oc : BitVec 4) (ar : BitVec 1) (scope : BitVec 3) (dbl : BitVec 1) : WordSize.Statement (.aminx d a oc ar scope dbl) := wordSize_all _
theorem WordSize.amaxx (d : BitVec 5) (a : BitVec 5) (oc : BitVec 4) (ar : BitVec 1) (scope : BitVec 3) (dbl : BitVec 1) : WordSize.Statement (.amaxx d a oc ar scope dbl) := wordSize_all _
theorem WordSize.amoand (d : BitVec 5) (a : BitVec 5) (oc : BitVec 4) (ar : BitVec 1) (scope : BitVec 3) (dbl : BitVec 1) : WordSize.Statement (.amoand d a oc ar scope dbl) := wordSize_all _
theorem WordSize.amoor (d : BitVec 5) (a : BitVec 5) (oc : BitVec 4) (ar : BitVec 1) (scope : BitVec 3) (dbl : BitVec 1) : WordSize.Statement (.amoor d a oc ar scope dbl) := wordSize_all _
theorem WordSize.amoxor (d : BitVec 5) (a : BitVec 5) (oc : BitVec 4) (ar : BitVec 1) (scope : BitVec 3) (dbl : BitVec 1) : WordSize.Statement (.amoxor d a oc ar scope dbl) := wordSize_all _
theorem WordSize.amoswp (d : BitVec 5) (a : BitVec 5) (oc : BitVec 4) (ar : BitVec 1) (scope : BitVec 3) (dbl : BitVec 1) : WordSize.Statement (.amoswp d a oc ar scope dbl) := wordSize_all _
theorem WordSize.amocas (d : BitVec 5) (a : BitVec 5) (oc : BitVec 4) (ar : BitVec 1) (scope : BitVec 3) (dbl : BitVec 1) : WordSize.Statement (.amocas d a oc ar scope dbl) := wordSize_all _
theorem WordSize.amotas (d : BitVec 5) (a : BitVec 5) (oc : BitVec 4) (ar : BitVec 1) (scope : BitVec 3) (dbl : BitVec 1) : WordSize.Statement (.amotas d a oc ar scope dbl) := wordSize_all _
theorem WordSize.fence (scope : BitVec 3) (mask : BitVec 16) : WordSize.Statement (.fence scope mask) := wordSize_all _
theorem WordSize.bar (scope : BitVec 3) (drain : BitVec 1) (gsel : BitVec 6) : WordSize.Statement (.bar scope drain gsel) := wordSize_all _
theorem WordSize.bart (scope : BitVec 3) (gsel : BitVec 6) : WordSize.Statement (.bart scope gsel) := wordSize_all _
theorem WordSize.tx (d : BitVec 5) (a : BitVec 5) (b : BitVec 5) (sen : BitVec 1) (ren : BitVec 1) (diro : BitVec 2) (diri : BitVec 2) : WordSize.Statement (.tx d a b sen ren diro diri) := wordSize_all _
theorem WordSize.mux (west : BitVec 3) (south : BitVec 3) (east : BitVec 3) (north : BitVec 3) : WordSize.Statement (.mux west south east north) := wordSize_all _
theorem WordSize.waitw (d : BitVec 5) (a : BitVec 5) (oc : BitVec 4) (ar : BitVec 1) (scope : BitVec 3) (dbl : BitVec 1) : WordSize.Statement (.waitw d a oc ar scope dbl) := wordSize_all _
theorem WordSize.waitwArm (d : BitVec 5) (a : BitVec 5) (dbl : BitVec 1) : WordSize.Statement (.waitwArm d a dbl) := wordSize_all _
theorem WordSize.acqs (d : BitVec 5) (a : BitVec 5) (b : BitVec 5) (scope : BitVec 3) : WordSize.Statement (.acqs d a b scope) := wordSize_all _
theorem WordSize.rels (d : BitVec 5) (a : BitVec 5) (b : BitVec 5) (scope : BitVec 3) : WordSize.Statement (.rels d a b scope) := wordSize_all _
theorem WordSize.renq (a : BitVec 5) (b : BitVec 5) (scope : BitVec 3) (eng : BitVec 2) : WordSize.Statement (.renq a b scope eng) := wordSize_all _
theorem WordSize.subSubscribe (d : BitVec 5) (a : BitVec 5) (b : BitVec 5) : WordSize.Statement (.subSubscribe d a b) := wordSize_all _
theorem WordSize.unsub (a : BitVec 5) : WordSize.Statement (.unsub a) := wordSize_all _
theorem WordSize.pflush : WordSize.Statement (.pflush) := wordSize_all _
theorem WordSize.resync (a : BitVec 5) : WordSize.Statement (.resync a) := wordSize_all _
theorem WordSize.subq (d : BitVec 5) (a : BitVec 5) : WordSize.Statement (.subq d a) := wordSize_all _
theorem WordSize.b (off : BitVec 14) : WordSize.Statement (.b off) := wordSize_all _
theorem WordSize.beq (a : BitVec 5) (b : BitVec 5) (off : BitVec 14) : WordSize.Statement (.beq a b off) := wordSize_all _
theorem WordSize.bne (a : BitVec 5) (b : BitVec 5) (off : BitVec 14) : WordSize.Statement (.bne a b off) := wordSize_all _
theorem WordSize.blt (a : BitVec 5) (b : BitVec 5) (off : BitVec 14) : WordSize.Statement (.blt a b off) := wordSize_all _
theorem WordSize.bge (a : BitVec 5) (b : BitVec 5) (off : BitVec 14) : WordSize.Statement (.bge a b off) := wordSize_all _
theorem WordSize.bltx (a : BitVec 5) (b : BitVec 5) (off : BitVec 14) : WordSize.Statement (.bltx a b off) := wordSize_all _
theorem WordSize.bgex (a : BitVec 5) (b : BitVec 5) (off : BitVec 14) : WordSize.Statement (.bgex a b off) := wordSize_all _
theorem WordSize.call (r : BitVec 5) (off : BitVec 14) : WordSize.Statement (.call r off) := wordSize_all _
theorem WordSize.ret (r : BitVec 5) : WordSize.Statement (.ret r) := wordSize_all _
theorem WordSize.loop (r : BitVec 5) (off : BitVec 14) : WordSize.Statement (.loop r off) := wordSize_all _
theorem WordSize.halt : WordSize.Statement (.halt) := wordSize_all _
theorem WordSize.tlset (g : BitVec 4) (a : BitVec 5) (fld : BitVec 6) : WordSize.Statement (.tlset g a fld) := wordSize_all _
theorem WordSize.tlget (d : BitVec 5) (g : BitVec 4) (fld : BitVec 6) : WordSize.Statement (.tlget d g fld) := wordSize_all _
theorem WordSize.tlclr (g : BitVec 4) : WordSize.Statement (.tlclr g) := wordSize_all _
theorem WordSize.tlmov (gd : BitVec 4) (gs : BitVec 4) : WordSize.Statement (.tlmov gd gs) := wordSize_all _
theorem WordSize.tlchkL (d : BitVec 5) (g : BitVec 4) : WordSize.Statement (.tlchkL d g) := wordSize_all _
theorem WordSize.tlchkX (d : BitVec 5) (g : BitVec 4) : WordSize.Statement (.tlchkX d g) := wordSize_all _
theorem WordSize.tlchkS (d : BitVec 5) (g : BitVec 4) : WordSize.Statement (.tlchkS d g) := wordSize_all _
theorem WordSize.tlld (g : BitVec 4) (a : BitVec 5) (oc : BitVec 4) (ar : BitVec 1) (scope : BitVec 3) : WordSize.Statement (.tlld g a oc ar scope) := wordSize_all _
theorem WordSize.tlst (g : BitVec 4) (a : BitVec 5) (oc : BitVec 4) (ar : BitVec 1) (scope : BitVec 3) : WordSize.Statement (.tlst g a oc ar scope) := wordSize_all _
theorem WordSize.spt (d : BitVec 5) (a : BitVec 5) : WordSize.Statement (.spt d a) := wordSize_all _
theorem WordSize.spc (d : BitVec 5) (a : BitVec 5) (sp : BitVec 4) : WordSize.Statement (.spc d a sp) := wordSize_all _
theorem WordSize.mkpLocal (d : BitVec 5) (a : BitVec 5) (b : BitVec 5) : WordSize.Statement (.mkpLocal d a b) := wordSize_all _
theorem WordSize.mkpShared (d : BitVec 5) (a : BitVec 5) (b : BitVec 5) : WordSize.Statement (.mkpShared d a b) := wordSize_all _
theorem WordSize.mkpOpm (d : BitVec 5) (a : BitVec 5) (b : BitVec 5) : WordSize.Statement (.mkpOpm d a b) := wordSize_all _
theorem WordSize.csrr (d : BitVec 5) (csr : BitVec 11) : WordSize.Statement (.csrr d csr) := wordSize_all _
theorem WordSize.csrw (a : BitVec 5) (csr : BitVec 11) : WordSize.Statement (.csrw a csr) := wordSize_all _
theorem WordSize.csrs (a : BitVec 5) (csr : BitVec 11) : WordSize.Statement (.csrs a csr) := wordSize_all _
theorem WordSize.csrc (a : BitVec 5) (csr : BitVec 11) : WordSize.Statement (.csrc a csr) := wordSize_all _
theorem WordSize.eret : WordSize.Statement (.eret) := wordSize_all _
theorem WordSize.brk : WordSize.Statement (.brk) := wordSize_all _
theorem WordSize.lpoll (d : BitVec 5) : WordSize.Statement (.lpoll d) := wordSize_all _
theorem WordSize.rep (sa : BitVec 1) (s2 : BitVec 1) (s1 : BitVec 1) (sd : BitVec 1) (cnt : BitVec 6) : WordSize.Statement (.rep sa s2 s1 sd cnt) := wordSize_all _
theorem WordSize.trap (imm : BitVec 14) : WordSize.Statement (.trap imm) := wordSize_all _
theorem WordSize.ldn (w : BitVec 1) (gv : BitVec 1) (gd : BitVec 4) (gs : BitVec 4) (oc : BitVec 4) (acq : BitVec 1) (rel : BitVec 1) (scope : BitVec 3) (nt : BitVec 1) (gn : BitVec 4) : WordSize.Statement (.ldn w gv gd gs oc acq rel scope nt gn) := wordSize_all _
theorem WordSize.ldr (w : BitVec 1) (gv : BitVec 1) (gd : BitVec 4) (gs : BitVec 4) (oc : BitVec 4) (acq : BitVec 1) (rel : BitVec 1) (scope : BitVec 3) (nt : BitVec 1) (gn : BitVec 4) : WordSize.Statement (.ldr w gv gd gs oc acq rel scope nt gn) := wordSize_all _
theorem WordSize.ldh (w : BitVec 1) (gv : BitVec 1) (gd : BitVec 4) (gs : BitVec 4) (oc : BitVec 4) (acq : BitVec 1) (rel : BitVec 1) (scope : BitVec 3) (nt : BitVec 1) (gn : BitVec 4) : WordSize.Statement (.ldh w gv gd gs oc acq rel scope nt gn) := wordSize_all _
theorem WordSize.rcv (w : BitVec 1) (gv : BitVec 1) (gd : BitVec 4) (port : BitVec 2) (e : BitVec 1) (oc : BitVec 4) (acq : BitVec 1) (rel : BitVec 1) (scope : BitVec 3) (nt : BitVec 1) (gn : BitVec 4) : WordSize.Statement (.rcv w gv gd port e oc acq rel scope nt gn) := wordSize_all _
theorem WordSize.gath (w : BitVec 1) (gv : BitVec 1) (gval : BitVec 4) (gi : BitVec 4) (gr : BitVec 4) (slot : BitVec 2) (oc : BitVec 4) (sc : BitVec 2) (nov : BitVec 1) : WordSize.Statement (.gath w gv gval gi gr slot oc sc nov) := wordSize_all _
theorem WordSize.pfx (w : BitVec 1) (gv : BitVec 1) (gs : BitVec 4) : WordSize.Statement (.pfx w gv gs) := wordSize_all _
theorem WordSize.lNest (w : BitVec 1) (gv : BitVec 1) (nb : BitVec 4) (off : BitVec 15) : WordSize.Statement (.lNest w gv nb off) := wordSize_all _
theorem WordSize.stn (w : BitVec 1) (gv : BitVec 1) (gd : BitVec 4) (gs : BitVec 4) (oc : BitVec 4) (acq : BitVec 1) (rel : BitVec 1) (scope : BitVec 3) (nt : BitVec 1) (gn : BitVec 4) : WordSize.Statement (.stn w gv gd gs oc acq rel scope nt gn) := wordSize_all _
theorem WordSize.strm (w : BitVec 1) (gv : BitVec 1) (gd : BitVec 4) (gs : BitVec 4) (oc : BitVec 4) (acq : BitVec 1) (rel : BitVec 1) (scope : BitVec 3) (nt : BitVec 1) (gn : BitVec 4) : WordSize.Statement (.strm w gv gd gs oc acq rel scope nt gn) := wordSize_all _
theorem WordSize.sth (w : BitVec 1) (gv : BitVec 1) (gd : BitVec 4) (gs : BitVec 4) (oc : BitVec 4) (acq : BitVec 1) (rel : BitVec 1) (scope : BitVec 3) (nt : BitVec 1) (gn : BitVec 4) : WordSize.Statement (.sth w gv gd gs oc acq rel scope nt gn) := wordSize_all _
theorem WordSize.snd (w : BitVec 1) (gv : BitVec 1) (gs : BitVec 4) (port : BitVec 2) (e : BitVec 1) (oc : BitVec 4) (acq : BitVec 1) (rel : BitVec 1) (scope : BitVec 3) (nt : BitVec 1) (gn : BitVec 4) : WordSize.Statement (.snd w gv gs port e oc acq rel scope nt gn) := wordSize_all _
theorem WordSize.scat (w : BitVec 1) (gv : BitVec 1) (gval : BitVec 4) (gi : BitVec 4) (slot : BitVec 2) (oc : BitVec 4) (sc : BitVec 2) : WordSize.Statement (.scat w gv gval gi slot oc sc) := wordSize_all _
theorem WordSize.eos (w : BitVec 1) (gv : BitVec 1) (port : BitVec 2) : WordSize.Statement (.eos w gv port) := wordSize_all _
theorem WordSize.sNest (w : BitVec 1) (gv : BitVec 1) (nb : BitVec 4) (off : BitVec 15) : WordSize.Statement (.sNest w gv nb off) := wordSize_all _
theorem WordSize.mma (wl : BitVec 1) (ws : BitVec 1) (gl : BitVec 1) (gs : BitVec 1) (ga : BitVec 4) (gi : BitVec 4) (acc : BitVec 3) (af : BitVec 2) (wf : BitVec 2) (ix : BitVec 1) (iw : BitVec 1) (zs : BitVec 1) (clr : BitVec 1) : WordSize.Statement (.mma wl ws gl gs ga gi acc af wf ix iw zs clr) := wordSize_all _
theorem WordSize.mmas (wl : BitVec 1) (ws : BitVec 1) (gl : BitVec 1) (gs : BitVec 1) (ga : BitVec 4) (acc : BitVec 3) (af : BitVec 2) (wf : BitVec 2) (zs : BitVec 1) (clr : BitVec 1) (rb : BitVec 2) : WordSize.Statement (.mmas wl ws gl gs ga acc af wf zs clr rb) := wordSize_all _
theorem WordSize.mmat (wl : BitVec 1) (ws : BitVec 1) (gl : BitVec 1) (gs : BitVec 1) (ga : BitVec 4) (acc : BitVec 3) (af : BitVec 2) (wf : BitVec 2) (zs : BitVec 1) (clr : BitVec 1) (rb : BitVec 2) : WordSize.Statement (.mmat wl ws gl gs ga acc af wf zs clr rb) := wordSize_all _
theorem WordSize.wld (wl : BitVec 1) (ws : BitVec 1) (gl : BitVec 1) (gs : BitVec 1) (gw : BitVec 4) (sf : BitVec 3) : WordSize.Statement (.wld wl ws gl gs gw sf) := wordSize_all _
theorem WordSize.wldPort (wl : BitVec 1) (ws : BitVec 1) (gl : BitVec 1) (gs : BitVec 1) (port : BitVec 2) (sf : BitVec 3) (km1 : BitVec 8) : WordSize.Statement (.wldPort wl ws gl gs port sf km1) := wordSize_all _
theorem WordSize.wswap (wl : BitVec 1) (ws : BitVec 1) (gl : BitVec 1) (gs : BitVec 1) : WordSize.Statement (.wswap wl ws gl gs) := wordSize_all _
theorem WordSize.scacc (wl : BitVec 1) (ws : BitVec 1) (gl : BitVec 1) (gs : BitVec 1) (gsa : BitVec 4) (gsb : BitVec 4) (acc : BitVec 3) (sfmt : BitVec 1) (clrp : BitVec 1) : WordSize.Statement (.scacc wl ws gl gs gsa gsb acc sfmt clrp) := wordSize_all _
theorem WordSize.accclr (wl : BitVec 1) (ws : BitVec 1) (gl : BitVec 1) (gs : BitVec 1) (mask : BitVec 5) : WordSize.Statement (.accclr wl ws gl gs mask) := wordSize_all _
theorem WordSize.accst (wl : BitVec 1) (ws : BitVec 1) (gl : BitVec 1) (gs : BitVec 1) (gd : BitVec 4) (acc : BitVec 3) (efmt : BitVec 4) (rm : BitVec 3) (sat : BitVec 2) (sc : BitVec 2) (oc : BitVec 4) : WordSize.Statement (.accst wl ws gl gs gd acc efmt rm sat sc oc) := wordSize_all _
theorem WordSize.accld (wl : BitVec 1) (ws : BitVec 1) (gl : BitVec 1) (gs : BitVec 1) (gd : BitVec 4) (acc : BitVec 3) (efmt : BitVec 4) (rm : BitVec 3) (sat : BitVec 2) (sc : BitVec 2) (oc : BitVec 4) : WordSize.Statement (.accld wl ws gl gs gd acc efmt rm sat sc oc) := wordSize_all _
theorem WordSize.erow (wl : BitVec 1) (ws : BitVec 1) (gl : BitVec 1) (gs : BitVec 1) (gin : BitVec 4) (gout : BitVec 4) (gsa : BitVec 4) (gsb : BitVec 4) (sam : BitVec 2) (sbm : BitVec 2) (nout : BitVec 1) : WordSize.Statement (.erow wl ws gl gs gin gout gsa gsb sam sbm nout) := wordSize_all _
theorem WordSize.ecfg (wl : BitVec 1) (ws : BitVec 1) (gl : BitVec 1) (gs : BitVec 1) (off : BitVec 15) : WordSize.Statement (.ecfg wl ws gl gs off) := wordSize_all _
theorem WordSize.ecfgSt (wl : BitVec 1) (ws : BitVec 1) (gl : BitVec 1) (gs : BitVec 1) (off : BitVec 15) : WordSize.Statement (.ecfgSt wl ws gl gs off) := wordSize_all _
theorem WordSize.emode (wl : BitVec 1) (ws : BitVec 1) (gl : BitVec 1) (gs : BitVec 1) (off : BitVec 15) : WordSize.Statement (.emode wl ws gl gs off) := wordSize_all _
theorem WordSize.emodePort (wl : BitVec 1) (ws : BitVec 1) (gl : BitVec 1) (gs : BitVec 1) (port : BitVec 2) : WordSize.Statement (.emodePort wl ws gl gs port) := wordSize_all _
theorem WordSize.gld (wl : BitVec 1) (ws : BitVec 1) (gl : BitVec 1) (gs : BitVec 1) (nwm1 : BitVec 5) (off : BitVec 15) : WordSize.Statement (.gld wl ws gl gs nwm1 off) := wordSize_all _
theorem WordSize.gset (wl : BitVec 1) (ws : BitVec 1) (gl : BitVec 1) (gs : BitVec 1) (sel : BitVec 4) (imm : BitVec 16) : WordSize.Statement (.gset wl ws gl gs sel imm) := wordSize_all _
theorem WordSize.gsave (wl : BitVec 1) (ws : BitVec 1) (gl : BitVec 1) (gs : BitVec 1) (off : BitVec 15) : WordSize.Statement (.gsave wl ws gl gs off) := wordSize_all _
theorem WordSize.grest (wl : BitVec 1) (ws : BitVec 1) (gl : BitVec 1) (gs : BitVec 1) (off : BitVec 15) : WordSize.Statement (.grest wl ws gl gs off) := wordSize_all _
theorem WordSize.zscan (wl : BitVec 1) (ws : BitVec 1) (gl : BitVec 1) (gs : BitVec 1) (zf : BitVec 3) (cntm1 : BitVec 6) (blk : BitVec 12) : WordSize.Statement (.zscan wl ws gl gs zf cntm1 blk) := wordSize_all _
theorem WordSize.zclr (wl : BitVec 1) (ws : BitVec 1) (gl : BitVec 1) (gs : BitVec 1) (cntm1 : BitVec 6) (blk : BitVec 12) : WordSize.Statement (.zclr wl ws gl gs cntm1 blk) := wordSize_all _
theorem WordSize.xNest (wl : BitVec 1) (ws : BitVec 1) (gl : BitVec 1) (gs : BitVec 1) (nb : BitVec 4) (off : BitVec 15) : WordSize.Statement (.xNest wl ws gl gs nb off) := wordSize_all _
theorem WordSize.wordIssue (tile : Nat) (eng : Engine) : WordSize.Statement (.wordIssue tile eng) := wordSize_all _
theorem WordSize.flowOutcomeTake (tile : Nat) (eng : Engine) : WordSize.Statement (.flowOutcomeTake tile eng) := wordSize_all _
theorem WordSize.commandStart (tile : Nat) (eng : Engine) : WordSize.Statement (.commandStart tile eng) := wordSize_all _
theorem WordSize.commandComplete (tile : Nat) (eng : Engine) (entry : Nat) : WordSize.Statement (.commandComplete tile eng entry) := wordSize_all _
theorem WordSize.heldTokenPush (tile : Nat) (eng : Engine) (entry : Nat) : WordSize.Statement (.heldTokenPush tile eng entry) := wordSize_all _
theorem WordSize.wldWritePhaseEnd (tile : Nat) : WordSize.Statement (.wldWritePhaseEnd tile) := wordSize_all _
theorem WordSize.tileDrainEnd (tile : Nat) : WordSize.Statement (.tileDrainEnd tile) := wordSize_all _
theorem WordSize.trapEscalation : WordSize.Statement (.trapEscalation) := wordSize_all _
theorem WordSize.faultService : WordSize.Statement (.faultService) := wordSize_all _
theorem WordSize.hostPageResponse (req : Nat) (granted : Bool) : WordSize.Statement (.hostPageResponse req granted) := wordSize_all _
theorem WordSize.rmwTokenApply (k : Nat) : WordSize.Statement (.rmwTokenApply k) := wordSize_all _
theorem WordSize.renqAccept (tile : Nat) (eng : Engine) : WordSize.Statement (.renqAccept tile eng) := wordSize_all _
theorem WordSize.barrierComplete (tile : Nat) (gsel : BitVec 6) : WordSize.Statement (.barrierComplete tile gsel) := wordSize_all _
theorem WordSize.phaseWordArrival (tile : Nat) (dir : Dir) : WordSize.Statement (.phaseWordArrival tile dir) := wordSize_all _
theorem WordSize.waitwWake (tile : Nat) : WordSize.Statement (.waitwWake tile) := wordSize_all _
theorem WordSize.slotWaitServed (tile : Nat) (slot : Nat) : WordSize.Statement (.slotWaitServed tile slot) := wordSize_all _
theorem WordSize.batchWindowExpiry (tile : Nat) (pub : Nat) : WordSize.Statement (.batchWindowExpiry tile pub) := wordSize_all _
theorem WordSize.updateApply (k : Nat) : WordSize.Statement (.updateApply k) := wordSize_all _
theorem WordSize.spillRingAllocation (tile : Nat) : WordSize.Statement (.spillRingAllocation tile) := wordSize_all _
theorem WordSize.doorbellWrite (func : Nat) (offset : Nat) (bytes : Nat) (count : BitVec 32) : WordSize.Statement (.doorbellWrite func offset bytes count) := wordSize_all _
theorem WordSize.packetFetch (q : Nat) : WordSize.Statement (.packetFetch q) := wordSize_all _
theorem WordSize.queueMap : WordSize.Statement (.queueMap) := wordSize_all _
theorem WordSize.queueQuiesce : WordSize.Statement (.queueQuiesce) := wordSize_all _
theorem WordSize.nop (src : PktSrc) (pkt : BitVec 512) : WordSize.Statement (.nop src pkt) := wordSize_all _
theorem WordSize.bind (src : PktSrc) (pkt : BitVec 512) : WordSize.Statement (.bind src pkt) := wordSize_all _
theorem WordSize.token (src : PktSrc) (pkt : BitVec 512) : WordSize.Statement (.token src pkt) := wordSize_all _
theorem WordSize.ctxcreate (src : PktSrc) (pkt : BitVec 512) : WordSize.Statement (.ctxcreate src pkt) := wordSize_all _
theorem WordSize.ctxdestroy (src : PktSrc) (pkt : BitVec 512) : WordSize.Statement (.ctxdestroy src pkt) := wordSize_all _
theorem WordSize.qcreate (src : PktSrc) (pkt : BitVec 512) : WordSize.Statement (.qcreate src pkt) := wordSize_all _
theorem WordSize.qdestroy (src : PktSrc) (pkt : BitVec 512) : WordSize.Statement (.qdestroy src pkt) := wordSize_all _
theorem WordSize.shareset (src : PktSrc) (pkt : BitVec 512) : WordSize.Statement (.shareset src pkt) := wordSize_all _
theorem WordSize.allowset (src : PktSrc) (pkt : BitVec 512) : WordSize.Statement (.allowset src pkt) := wordSize_all _
theorem WordSize.laneset (src : PktSrc) (pkt : BitVec 512) : WordSize.Statement (.laneset src pkt) := wordSize_all _
theorem WordSize.launchLaneMessage (port : Nat) (source : BitVec 12) (pkt : BitVec 512) : WordSize.Statement (.launchLaneMessage port source pkt) := wordSize_all _
theorem WordSize.bindingStart (ctx : Nat) : WordSize.Statement (.bindingStart ctx) := wordSize_all _
theorem WordSize.priorityAgeing (ctx : Nat) : WordSize.Statement (.priorityAgeing ctx) := wordSize_all _
theorem WordSize.runCompletion (ctx : Nat) : WordSize.Statement (.runCompletion ctx) := wordSize_all _
theorem WordSize.runFailure (ctx : Nat) : WordSize.Statement (.runFailure ctx) := wordSize_all _
theorem WordSize.completionRecordWrite (cq : Nat) : WordSize.Statement (.completionRecordWrite cq) := wordSize_all _
theorem WordSize.placement (ctx : Nat) : WordSize.Statement (.placement ctx) := wordSize_all _
theorem WordSize.eviction (ctx : Nat) : WordSize.Statement (.eviction ctx) := wordSize_all _
theorem WordSize.lullMarkerArrival (target : LullTarget) : WordSize.Statement (.lullMarkerArrival target) := wordSize_all _
theorem WordSize.tileSeal (tile : Nat) : WordSize.Statement (.tileSeal tile) := wordSize_all _
theorem WordSize.contextSeal (ctx : Nat) : WordSize.Statement (.contextSeal ctx) := wordSize_all _
theorem WordSize.clearingToken (tile : Nat) : WordSize.Statement (.clearingToken tile) := wordSize_all _
theorem WordSize.clearingComplete (ctx : Nat) : WordSize.Statement (.clearingComplete ctx) := wordSize_all _
theorem WordSize.stageSwap (ctx : Nat) (list : Nat) : WordSize.Statement (.stageSwap ctx list) := wordSize_all _
theorem WordSize.swapDrainEnd (ctx : Nat) (region : Nat) : WordSize.Statement (.swapDrainEnd ctx region) := wordSize_all _
theorem WordSize.swapReloadEnd (ctx : Nat) (region : Nat) : WordSize.Statement (.swapReloadEnd ctx region) := wordSize_all _
theorem WordSize.swaptimeout (ctx : Nat) (region : Nat) : WordSize.Statement (.swaptimeout ctx region) := wordSize_all _
theorem WordSize.scrubPass (die : Nat) : WordSize.Statement (.scrubPass die) := wordSize_all _
theorem WordSize.configError (ctx : Nat) (region : Nat) : WordSize.Statement (.configError ctx region) := wordSize_all _
theorem WordSize.configReloadDone (ctx : Nat) (region : Nat) : WordSize.Statement (.configReloadDone ctx region) := wordSize_all _
theorem WordSize.regionPortWord (ctx : Nat) (region : Nat) (rport : Nat) : WordSize.Statement (.regionPortWord ctx region rport) := wordSize_all _
theorem WordSize.inputGeneratorWord (ctx : Nat) (ep : Nat) : WordSize.Statement (.inputGeneratorWord ctx ep) := wordSize_all _
theorem WordSize.outputGeneratorWord (ctx : Nat) (ep : Nat) : WordSize.Statement (.outputGeneratorWord ctx ep) := wordSize_all _
theorem WordSize.queueEnqueue (ctx : Nat) (ep : Nat) : WordSize.Statement (.queueEnqueue ctx ep) := wordSize_all _
theorem WordSize.queueDequeue (ctx : Nat) (ep : Nat) : WordSize.Statement (.queueDequeue ctx ep) := wordSize_all _
theorem WordSize.jetOutWord (ctx : Nat) (ep : Nat) : WordSize.Statement (.jetOutWord ctx ep) := wordSize_all _
theorem WordSize.jetInWord (port : Nat) : WordSize.Statement (.jetInWord port) := wordSize_all _
theorem WordSize.cornerTurnWord (tile : Nat) (slot : Nat) : WordSize.Statement (.cornerTurnWord tile slot) := wordSize_all _
theorem WordSize.arbiterBurst (tile : Nat) (slot : Nat) : WordSize.Statement (.arbiterBurst tile slot) := wordSize_all _
theorem WordSize.counterNodeWord (tile : Nat) (slot : Nat) : WordSize.Statement (.counterNodeWord tile slot) := wordSize_all _
theorem WordSize.mergeBurst (tile : Nat) (slot : Nat) : WordSize.Statement (.mergeBurst tile slot) := wordSize_all _
theorem WordSize.sliceRequest (pa : Nat) (write : Bool) (noalloc : Bool) : WordSize.Statement (.sliceRequest pa write noalloc) := wordSize_all _
theorem WordSize.sliceMissResponse (slice : Nat) : WordSize.Statement (.sliceMissResponse slice) := wordSize_all _
theorem WordSize.accountingWindow (controller : Nat) : WordSize.Statement (.accountingWindow controller) := wordSize_all _
theorem WordSize.postedStoreAck (request : Nat) : WordSize.Statement (.postedStoreAck request) := wordSize_all _
theorem WordSize.selfTest (unit : HwUnit) (index : Nat) (lasting : Bool) : WordSize.Statement (.selfTest unit index lasting) := wordSize_all _
theorem WordSize.fatalError : WordSize.Statement (.fatalError) := wordSize_all _
theorem WordSize.watchdogExpiry : WordSize.Statement (.watchdogExpiry) := wordSize_all _
theorem WordSize.pcieLinkDown : WordSize.Statement (.pcieLinkDown) := wordSize_all _
theorem WordSize.pcieLinkUp : WordSize.Statement (.pcieLinkUp) := wordSize_all _
theorem WordSize.hotReset : WordSize.Statement (.hotReset) := wordSize_all _
theorem WordSize.pfFlr : WordSize.Statement (.pfFlr) := wordSize_all _
theorem WordSize.vfFlr (func : Nat) : WordSize.Statement (.vfFlr func) := wordSize_all _
theorem WordSize.powerGood (romOk : Bool) (firmware : List (BitVec 8)) : WordSize.Statement (.powerGood romOk firmware) := wordSize_all _
theorem WordSize.thermalThrottle : WordSize.Statement (.thermalThrottle) := wordSize_all _
theorem WordSize.thermalTrip : WordSize.Statement (.thermalTrip) := wordSize_all _
theorem WordSize.powerCapWindow (milliwatts : Nat) : WordSize.Statement (.powerCapWindow milliwatts) := wordSize_all _
theorem WordSize.jetLinkUp (port : Nat) (peer : BitVec 12) : WordSize.Statement (.jetLinkUp port peer) := wordSize_all _
theorem WordSize.tagRunClose (port : Nat) : WordSize.Statement (.tagRunClose port) := wordSize_all _
theorem WordSize.tagFlitReceive (port : Nat) (seq : Nat) (verified : Bool) : WordSize.Statement (.tagFlitReceive port seq verified) := wordSize_all _
theorem WordSize.replayRequest (port : Nat) (seq : Nat) : WordSize.Statement (.replayRequest port seq) := wordSize_all _
theorem WordSize.keyRotation (port : Nat) : WordSize.Statement (.keyRotation port) := wordSize_all _
theorem WordSize.spdmMeasurements (func : Nat) (ctx : Nat) (nonce : BitVec 256) : WordSize.Statement (.spdmMeasurements func ctx nonce) := wordSize_all _
theorem WordSize.firmwareOpmAccess (tile : Nat) (offset : Nat) (data : Option (BitVec 64)) : WordSize.Statement (.firmwareOpmAccess tile offset data) := wordSize_all _
theorem WordSize.bar4Access (func : Nat) (offset : Nat) (bytes : Nat) (data : Option (List (BitVec 8))) : WordSize.Statement (.bar4Access func offset bytes data) := wordSize_all _
theorem WordSize.aqctl (func : Nat) (value : BitVec 64) : WordSize.Statement (.aqctl func value) := wordSize_all _
theorem WordSize.dbdrop (func : Nat) (value : BitVec 64) : WordSize.Statement (.dbdrop func value) := wordSize_all _
theorem WordSize.evict (func : Nat) (value : BitVec 64) : WordSize.Statement (.evict func value) := wordSize_all _
theorem WordSize.pwrcap (func : Nat) (value : BitVec 64) : WordSize.Statement (.pwrcap func value) := wordSize_all _
theorem WordSize.jpctl (func : Nat) (port : Nat) (value : BitVec 64) : WordSize.Statement (.jpctl func port value) := wordSize_all _
theorem WordSize.fnstat (func : Nat) : WordSize.Statement (.fnstat func) := wordSize_all _
theorem WordSize.registerWrite (func : Nat) (offset : Nat) (value : BitVec 64) : WordSize.Statement (.registerWrite func offset value) := wordSize_all _
theorem WordSize.memoryPortRequest (port : Nat) (ctx : Nat) (gen : Nat) (va : Nat) (bytes : Nat) (data : Option (List (BitVec 8))) : WordSize.Statement (.memoryPortRequest port ctx gen va bytes data) := wordSize_all _
theorem WordSize.ideEstablishment (func : Nat) : WordSize.Statement (.ideEstablishment func) := wordSize_all _
theorem WordSize.tdispLockInterface (func : Nat) : WordSize.Statement (.tdispLockInterface func) := wordSize_all _
theorem WordSize.spdmGetCertificate (slot : Nat) : WordSize.Statement (.spdmGetCertificate slot) := wordSize_all _
theorem WordSize.dieTemperatureFall : WordSize.Statement (.dieTemperatureFall) := wordSize_all _

end Sys2Proof.Laws
end

