-- ==== Sys2Proof/Laws/Run.lean ====
section
/-! SUPPORT. The run of a word by a counter or a queue is `exec` of it. -/

namespace Sys2Proof.Laws

open Sys2Proof Sys2Proof.Machine

/-- What a counter or a queue runs for an instruction word is its meaning. -/
theorem runInstr_eq_exec (i : Instr) (s : State) (h : (encode i).isSome = true) : runInstr i s = exec i s := by
  cases i <;> first | exact absurd h Bool.false_ne_true | rfl

end Sys2Proof.Laws
end

