-- ==== Sys2Proof/Laws/State.lean ====
section
/-! SUPPORT. One lemma per field per update: what an update of a tile, a context, a function, a jet port or a slice, and the
passing of time, leave as it is; and reading a tile after an update of one. -/

namespace Sys2Proof.Laws

open Sys2Proof Sys2Proof.Machine

/-! ### Tiles -/

/-- A tile after an update of a tile. -/
theorem tile_setTile (s : State) (t : Nat) (v : Tile) (u : Nat) :
    (s.setTile t v).tile u = if u = t then v else s.tile u := tGet_tSet _ _ _ _ _

@[simp] theorem tile_setTile_self (s : State) (t : Nat) (v : Tile) : (s.setTile t v).tile t = v := by simp [tile_setTile]

theorem tile_setTile_ne (s : State) {t u : Nat} (v : Tile) (h : u ≠ t) : (s.setTile t v).tile u = s.tile u := by
  simp [tile_setTile, h]

/-- A tile after a change of a tile. -/
theorem tile_onTile (s : State) (t : Nat) (f : Tile → Tile) (u : Nat) :
    (s.onTile t f).tile u = if u = t then f (s.tile t) else s.tile u := tile_setTile _ _ _ _

@[simp] theorem tile_onTile_self (s : State) (t : Nat) (f : Tile → Tile) : (s.onTile t f).tile t = f (s.tile t) := by
  simp [tile_onTile]

theorem tile_onTile_ne (s : State) {t u : Nat} (f : Tile → Tile) (h : u ≠ t) : (s.onTile t f).tile u = s.tile u := by
  simp [tile_onTile, h]

@[simp] theorem here_setTile (s : State) (t : Nat) (v : Tile) : (s.setTile t v).here = s.here := rfl
@[simp] theorem here_onTile (s : State) (t : Nat) (f : Tile → Tile) : (s.onTile t f).here = s.here := rfl

/-! ### State after a tile is set -/

@[simp] theorem ctxs_setTile (s : State) (t : Nat) (v : Tile) : (s.setTile t v).ctxs = s.ctxs := rfl
@[simp] theorem gens_setTile (s : State) (t : Nat) (v : Tile) : (s.setTile t v).gens = s.gens := rfl
@[simp] theorem fenceDrop_setTile (s : State) (t : Nat) (v : Tile) : (s.setTile t v).fenceDrop = s.fenceDrop := rfl
@[simp] theorem images_setTile (s : State) (t : Nat) (v : Tile) : (s.setTile t v).images = s.images := rfl
@[simp] theorem seals_setTile (s : State) (t : Nat) (v : Tile) : (s.setTile t v).seals = s.seals := rfl
@[simp] theorem devMem_setTile (s : State) (t : Nat) (v : Tile) : (s.setTile t v).devMem = s.devMem := rfl
@[simp] theorem devKey_setTile (s : State) (t : Nat) (v : Tile) : (s.setTile t v).devKey = s.devKey := rfl
@[simp] theorem devPoison_setTile (s : State) (t : Nat) (v : Tile) : (s.setTile t v).devPoison = s.devPoison := rfl
@[simp] theorem hostMem_setTile (s : State) (t : Nat) (v : Tile) : (s.setTile t v).hostMem = s.hostMem := rfl
@[simp] theorem atsCache_setTile (s : State) (t : Nat) (v : Tile) : (s.setTile t v).atsCache = s.atsCache := rfl
@[simp] theorem keySlots_setTile (s : State) (t : Nat) (v : Tile) : (s.setTile t v).keySlots = s.keySlots := rfl
@[simp] theorem nextKey_setTile (s : State) (t : Nat) (v : Tile) : (s.setTile t v).nextKey = s.nextKey := rfl
@[simp] theorem portCache_setTile (s : State) (t : Nat) (v : Tile) : (s.setTile t v).portCache = s.portCache := rfl
@[simp] theorem slices_setTile (s : State) (t : Nat) (v : Tile) : (s.setTile t v).slices = s.slices := rfl
@[simp] theorem transit_setTile (s : State) (t : Nat) (v : Tile) : (s.setTile t v).transit = s.transit := rfl
@[simp] theorem replies_setTile (s : State) (t : Nat) (v : Tile) : (s.setTile t v).replies = s.replies := rfl
@[simp] theorem prefetch_setTile (s : State) (t : Nat) (v : Tile) : (s.setTile t v).prefetch = s.prefetch := rfl
@[simp] theorem shares_setTile (s : State) (t : Nat) (v : Tile) : (s.setTile t v).shares = s.shares := rfl
@[simp] theorem served_setTile (s : State) (t : Nat) (v : Tile) : (s.setTile t v).served = s.served := rfl
@[simp] theorem functions_setTile (s : State) (t : Nat) (v : Tile) : (s.setTile t v).functions = s.functions := rfl
@[simp] theorem subQs_setTile (s : State) (t : Nat) (v : Tile) : (s.setTile t v).subQs = s.subQs := rfl
@[simp] theorem compQs_setTile (s : State) (t : Nat) (v : Tile) : (s.setTile t v).compQs = s.compQs := rfl
@[simp] theorem slots_setTile (s : State) (t : Nat) (v : Tile) : (s.setTile t v).slots = s.slots := rfl
@[simp] theorem pendingQs_setTile (s : State) (t : Nat) (v : Tile) : (s.setTile t v).pendingQs = s.pendingQs := rfl
@[simp] theorem doorbells_setTile (s : State) (t : Nat) (v : Tile) : (s.setTile t v).doorbells = s.doorbells := rfl
@[simp] theorem fetched_setTile (s : State) (t : Nat) (v : Tile) : (s.setTile t v).fetched = s.fetched := rfl
@[simp] theorem held_setTile (s : State) (t : Nat) (v : Tile) : (s.setTile t v).held = s.held := rfl
@[simp] theorem jets_setTile (s : State) (t : Nat) (v : Tile) : (s.setTile t v).jets = s.jets := rfl
@[simp] theorem grants_setTile (s : State) (t : Nat) (v : Tile) : (s.setTile t v).grants = s.grants := rfl
@[simp] theorem bridges_setTile (s : State) (t : Nat) (v : Tile) : (s.setTile t v).bridges = s.bridges := rfl
@[simp] theorem reports_setTile (s : State) (t : Nat) (v : Tile) : (s.setTile t v).reports = s.reports := rfl
@[simp] theorem swapTimeouts_setTile (s : State) (t : Nat) (v : Tile) : (s.setTile t v).swapTimeouts = s.swapTimeouts := rfl
@[simp] theorem pageFaults_setTile (s : State) (t : Nat) (v : Tile) : (s.setTile t v).pageFaults = s.pageFaults := rfl
@[simp] theorem hostRequests_setTile (s : State) (t : Nat) (v : Tile) : (s.setTile t v).hostRequests = s.hostRequests := rfl
@[simp] theorem nextRequest_setTile (s : State) (t : Nat) (v : Tile) : (s.setTile t v).nextRequest = s.nextRequest := rfl
@[simp] theorem posted_setTile (s : State) (t : Nat) (v : Tile) : (s.setTile t v).posted = s.posted := rfl
@[simp] theorem flits_setTile (s : State) (t : Nat) (v : Tile) : (s.setTile t v).flits = s.flits := rfl
@[simp] theorem rings_setTile (s : State) (t : Nat) (v : Tile) : (s.setTile t v).rings = s.rings := rfl
@[simp] theorem tokens_setTile (s : State) (t : Nat) (v : Tile) : (s.setTile t v).tokens = s.tokens := rfl
@[simp] theorem spillAsks_setTile (s : State) (t : Nat) (v : Tile) : (s.setTile t v).spillAsks = s.spillAsks := rfl
@[simp] theorem lulls_setTile (s : State) (t : Nat) (v : Tile) : (s.setTile t v).lulls = s.lulls := rfl
@[simp] theorem heldOpm_setTile (s : State) (t : Nat) (v : Tile) : (s.setTile t v).heldOpm = s.heldOpm := rfl
@[simp] theorem mode_setTile (s : State) (t : Nat) (v : Tile) : (s.setTile t v).mode = s.mode := rfl
@[simp] theorem linkUp_setTile (s : State) (t : Nat) (v : Tile) : (s.setTile t v).linkUp = s.linkUp := rfl
@[simp] theorem pwrCap_setTile (s : State) (t : Nat) (v : Tile) : (s.setTile t v).pwrCap = s.pwrCap := rfl
@[simp] theorem power_setTile (s : State) (t : Nat) (v : Tile) : (s.setTile t v).power = s.power := rfl
@[simp] theorem temp_setTile (s : State) (t : Nat) (v : Tile) : (s.setTile t v).temp = s.temp := rfl
@[simp] theorem throttled_setTile (s : State) (t : Nat) (v : Tile) : (s.setTile t v).throttled = s.throttled := rfl
@[simp] theorem capped_setTile (s : State) (t : Nat) (v : Tile) : (s.setTile t v).capped = s.capped := rfl
@[simp] theorem tripped_setTile (s : State) (t : Nat) (v : Tile) : (s.setTile t v).tripped = s.tripped := rfl
@[simp] theorem fwDigest_setTile (s : State) (t : Nat) (v : Tile) : (s.setTile t v).fwDigest = s.fwDigest := rfl
@[simp] theorem errHead_setTile (s : State) (t : Nat) (v : Tile) : (s.setTile t v).errHead = s.errHead := rfl
@[simp] theorem errLog_setTile (s : State) (t : Nat) (v : Tile) : (s.setTile t v).errLog = s.errLog := rfl
@[simp] theorem unitFaults_setTile (s : State) (t : Nat) (v : Tile) : (s.setTile t v).unitFaults = s.unitFaults := rfl
@[simp] theorem testsDue_setTile (s : State) (t : Nat) (v : Tile) : (s.setTile t v).testsDue = s.testsDue := rfl
@[simp] theorem awake_setTile (s : State) (t : Nat) (v : Tile) : (s.setTile t v).awake = s.awake := rfl
@[simp] theorem badCells_setTile (s : State) (t : Nat) (v : Tile) : (s.setTile t v).badCells = s.badCells := rfl
@[simp] theorem dump_setTile (s : State) (t : Nat) (v : Tile) : (s.setTile t v).dump = s.dump := rfl
@[simp] theorem outbox_setTile (s : State) (t : Nat) (v : Tile) : (s.setTile t v).outbox = s.outbox := rfl
@[simp] theorem stamp_setTile (s : State) (t : Nat) (v : Tile) : (s.setTile t v).stamp = s.stamp := rfl
@[simp] theorem cycle_setTile (s : State) (t : Nat) (v : Tile) : (s.setTile t v).cycle = s.cycle := rfl
@[simp] theorem tick_setTile (s : State) (t : Nat) (v : Tile) : (s.setTile t v).tick = s.tick := rfl
@[simp] theorem since_setTile (s : State) (t : Nat) (v : Tile) : (s.setTile t v).since = s.since := rfl
@[simp] theorem turns_setTile (s : State) (t : Nat) (v : Tile) : (s.setTile t v).turns = s.turns := rfl
@[simp] theorem focus_setTile (s : State) (t : Nat) (v : Tile) : (s.setTile t v).focus = s.focus := rfl
@[simp] theorem agenda_setTile (s : State) (t : Nat) (v : Tile) : (s.setTile t v).agenda = s.agenda := rfl

/-! ### State after a tile is changed -/

@[simp] theorem ctxs_onTile (s : State) (t : Nat) (f : Tile → Tile) : (s.onTile t f).ctxs = s.ctxs := rfl
@[simp] theorem gens_onTile (s : State) (t : Nat) (f : Tile → Tile) : (s.onTile t f).gens = s.gens := rfl
@[simp] theorem fenceDrop_onTile (s : State) (t : Nat) (f : Tile → Tile) : (s.onTile t f).fenceDrop = s.fenceDrop := rfl
@[simp] theorem images_onTile (s : State) (t : Nat) (f : Tile → Tile) : (s.onTile t f).images = s.images := rfl
@[simp] theorem seals_onTile (s : State) (t : Nat) (f : Tile → Tile) : (s.onTile t f).seals = s.seals := rfl
@[simp] theorem devMem_onTile (s : State) (t : Nat) (f : Tile → Tile) : (s.onTile t f).devMem = s.devMem := rfl
@[simp] theorem devKey_onTile (s : State) (t : Nat) (f : Tile → Tile) : (s.onTile t f).devKey = s.devKey := rfl
@[simp] theorem devPoison_onTile (s : State) (t : Nat) (f : Tile → Tile) : (s.onTile t f).devPoison = s.devPoison := rfl
@[simp] theorem hostMem_onTile (s : State) (t : Nat) (f : Tile → Tile) : (s.onTile t f).hostMem = s.hostMem := rfl
@[simp] theorem atsCache_onTile (s : State) (t : Nat) (f : Tile → Tile) : (s.onTile t f).atsCache = s.atsCache := rfl
@[simp] theorem keySlots_onTile (s : State) (t : Nat) (f : Tile → Tile) : (s.onTile t f).keySlots = s.keySlots := rfl
@[simp] theorem nextKey_onTile (s : State) (t : Nat) (f : Tile → Tile) : (s.onTile t f).nextKey = s.nextKey := rfl
@[simp] theorem portCache_onTile (s : State) (t : Nat) (f : Tile → Tile) : (s.onTile t f).portCache = s.portCache := rfl
@[simp] theorem slices_onTile (s : State) (t : Nat) (f : Tile → Tile) : (s.onTile t f).slices = s.slices := rfl
@[simp] theorem transit_onTile (s : State) (t : Nat) (f : Tile → Tile) : (s.onTile t f).transit = s.transit := rfl
@[simp] theorem replies_onTile (s : State) (t : Nat) (f : Tile → Tile) : (s.onTile t f).replies = s.replies := rfl
@[simp] theorem prefetch_onTile (s : State) (t : Nat) (f : Tile → Tile) : (s.onTile t f).prefetch = s.prefetch := rfl
@[simp] theorem shares_onTile (s : State) (t : Nat) (f : Tile → Tile) : (s.onTile t f).shares = s.shares := rfl
@[simp] theorem served_onTile (s : State) (t : Nat) (f : Tile → Tile) : (s.onTile t f).served = s.served := rfl
@[simp] theorem functions_onTile (s : State) (t : Nat) (f : Tile → Tile) : (s.onTile t f).functions = s.functions := rfl
@[simp] theorem subQs_onTile (s : State) (t : Nat) (f : Tile → Tile) : (s.onTile t f).subQs = s.subQs := rfl
@[simp] theorem compQs_onTile (s : State) (t : Nat) (f : Tile → Tile) : (s.onTile t f).compQs = s.compQs := rfl
@[simp] theorem slots_onTile (s : State) (t : Nat) (f : Tile → Tile) : (s.onTile t f).slots = s.slots := rfl
@[simp] theorem pendingQs_onTile (s : State) (t : Nat) (f : Tile → Tile) : (s.onTile t f).pendingQs = s.pendingQs := rfl
@[simp] theorem doorbells_onTile (s : State) (t : Nat) (f : Tile → Tile) : (s.onTile t f).doorbells = s.doorbells := rfl
@[simp] theorem fetched_onTile (s : State) (t : Nat) (f : Tile → Tile) : (s.onTile t f).fetched = s.fetched := rfl
@[simp] theorem held_onTile (s : State) (t : Nat) (f : Tile → Tile) : (s.onTile t f).held = s.held := rfl
@[simp] theorem jets_onTile (s : State) (t : Nat) (f : Tile → Tile) : (s.onTile t f).jets = s.jets := rfl
@[simp] theorem grants_onTile (s : State) (t : Nat) (f : Tile → Tile) : (s.onTile t f).grants = s.grants := rfl
@[simp] theorem bridges_onTile (s : State) (t : Nat) (f : Tile → Tile) : (s.onTile t f).bridges = s.bridges := rfl
@[simp] theorem reports_onTile (s : State) (t : Nat) (f : Tile → Tile) : (s.onTile t f).reports = s.reports := rfl
@[simp] theorem swapTimeouts_onTile (s : State) (t : Nat) (f : Tile → Tile) : (s.onTile t f).swapTimeouts = s.swapTimeouts := rfl
@[simp] theorem pageFaults_onTile (s : State) (t : Nat) (f : Tile → Tile) : (s.onTile t f).pageFaults = s.pageFaults := rfl
@[simp] theorem hostRequests_onTile (s : State) (t : Nat) (f : Tile → Tile) : (s.onTile t f).hostRequests = s.hostRequests := rfl
@[simp] theorem nextRequest_onTile (s : State) (t : Nat) (f : Tile → Tile) : (s.onTile t f).nextRequest = s.nextRequest := rfl
@[simp] theorem posted_onTile (s : State) (t : Nat) (f : Tile → Tile) : (s.onTile t f).posted = s.posted := rfl
@[simp] theorem flits_onTile (s : State) (t : Nat) (f : Tile → Tile) : (s.onTile t f).flits = s.flits := rfl
@[simp] theorem rings_onTile (s : State) (t : Nat) (f : Tile → Tile) : (s.onTile t f).rings = s.rings := rfl
@[simp] theorem tokens_onTile (s : State) (t : Nat) (f : Tile → Tile) : (s.onTile t f).tokens = s.tokens := rfl
@[simp] theorem spillAsks_onTile (s : State) (t : Nat) (f : Tile → Tile) : (s.onTile t f).spillAsks = s.spillAsks := rfl
@[simp] theorem lulls_onTile (s : State) (t : Nat) (f : Tile → Tile) : (s.onTile t f).lulls = s.lulls := rfl
@[simp] theorem heldOpm_onTile (s : State) (t : Nat) (f : Tile → Tile) : (s.onTile t f).heldOpm = s.heldOpm := rfl
@[simp] theorem mode_onTile (s : State) (t : Nat) (f : Tile → Tile) : (s.onTile t f).mode = s.mode := rfl
@[simp] theorem linkUp_onTile (s : State) (t : Nat) (f : Tile → Tile) : (s.onTile t f).linkUp = s.linkUp := rfl
@[simp] theorem pwrCap_onTile (s : State) (t : Nat) (f : Tile → Tile) : (s.onTile t f).pwrCap = s.pwrCap := rfl
@[simp] theorem power_onTile (s : State) (t : Nat) (f : Tile → Tile) : (s.onTile t f).power = s.power := rfl
@[simp] theorem temp_onTile (s : State) (t : Nat) (f : Tile → Tile) : (s.onTile t f).temp = s.temp := rfl
@[simp] theorem throttled_onTile (s : State) (t : Nat) (f : Tile → Tile) : (s.onTile t f).throttled = s.throttled := rfl
@[simp] theorem capped_onTile (s : State) (t : Nat) (f : Tile → Tile) : (s.onTile t f).capped = s.capped := rfl
@[simp] theorem tripped_onTile (s : State) (t : Nat) (f : Tile → Tile) : (s.onTile t f).tripped = s.tripped := rfl
@[simp] theorem fwDigest_onTile (s : State) (t : Nat) (f : Tile → Tile) : (s.onTile t f).fwDigest = s.fwDigest := rfl
@[simp] theorem errHead_onTile (s : State) (t : Nat) (f : Tile → Tile) : (s.onTile t f).errHead = s.errHead := rfl
@[simp] theorem errLog_onTile (s : State) (t : Nat) (f : Tile → Tile) : (s.onTile t f).errLog = s.errLog := rfl
@[simp] theorem unitFaults_onTile (s : State) (t : Nat) (f : Tile → Tile) : (s.onTile t f).unitFaults = s.unitFaults := rfl
@[simp] theorem testsDue_onTile (s : State) (t : Nat) (f : Tile → Tile) : (s.onTile t f).testsDue = s.testsDue := rfl
@[simp] theorem awake_onTile (s : State) (t : Nat) (f : Tile → Tile) : (s.onTile t f).awake = s.awake := rfl
@[simp] theorem badCells_onTile (s : State) (t : Nat) (f : Tile → Tile) : (s.onTile t f).badCells = s.badCells := rfl
@[simp] theorem dump_onTile (s : State) (t : Nat) (f : Tile → Tile) : (s.onTile t f).dump = s.dump := rfl
@[simp] theorem outbox_onTile (s : State) (t : Nat) (f : Tile → Tile) : (s.onTile t f).outbox = s.outbox := rfl
@[simp] theorem stamp_onTile (s : State) (t : Nat) (f : Tile → Tile) : (s.onTile t f).stamp = s.stamp := rfl
@[simp] theorem cycle_onTile (s : State) (t : Nat) (f : Tile → Tile) : (s.onTile t f).cycle = s.cycle := rfl
@[simp] theorem tick_onTile (s : State) (t : Nat) (f : Tile → Tile) : (s.onTile t f).tick = s.tick := rfl
@[simp] theorem since_onTile (s : State) (t : Nat) (f : Tile → Tile) : (s.onTile t f).since = s.since := rfl
@[simp] theorem turns_onTile (s : State) (t : Nat) (f : Tile → Tile) : (s.onTile t f).turns = s.turns := rfl
@[simp] theorem focus_onTile (s : State) (t : Nat) (f : Tile → Tile) : (s.onTile t f).focus = s.focus := rfl
@[simp] theorem agenda_onTile (s : State) (t : Nat) (f : Tile → Tile) : (s.onTile t f).agenda = s.agenda := rfl

/-! ### State after a context is changed -/

@[simp] theorem tiles_onCtx (s : State) (n : Nat) (f : Context → Context) : (s.onCtx n f).tiles = s.tiles := by unfold State.onCtx; split <;> rfl
@[simp] theorem gens_onCtx (s : State) (n : Nat) (f : Context → Context) : (s.onCtx n f).gens = s.gens := by unfold State.onCtx; split <;> rfl
@[simp] theorem fenceDrop_onCtx (s : State) (n : Nat) (f : Context → Context) : (s.onCtx n f).fenceDrop = s.fenceDrop := by unfold State.onCtx; split <;> rfl
@[simp] theorem images_onCtx (s : State) (n : Nat) (f : Context → Context) : (s.onCtx n f).images = s.images := by unfold State.onCtx; split <;> rfl
@[simp] theorem seals_onCtx (s : State) (n : Nat) (f : Context → Context) : (s.onCtx n f).seals = s.seals := by unfold State.onCtx; split <;> rfl
@[simp] theorem devMem_onCtx (s : State) (n : Nat) (f : Context → Context) : (s.onCtx n f).devMem = s.devMem := by unfold State.onCtx; split <;> rfl
@[simp] theorem devKey_onCtx (s : State) (n : Nat) (f : Context → Context) : (s.onCtx n f).devKey = s.devKey := by unfold State.onCtx; split <;> rfl
@[simp] theorem devPoison_onCtx (s : State) (n : Nat) (f : Context → Context) : (s.onCtx n f).devPoison = s.devPoison := by unfold State.onCtx; split <;> rfl
@[simp] theorem hostMem_onCtx (s : State) (n : Nat) (f : Context → Context) : (s.onCtx n f).hostMem = s.hostMem := by unfold State.onCtx; split <;> rfl
@[simp] theorem atsCache_onCtx (s : State) (n : Nat) (f : Context → Context) : (s.onCtx n f).atsCache = s.atsCache := by unfold State.onCtx; split <;> rfl
@[simp] theorem keySlots_onCtx (s : State) (n : Nat) (f : Context → Context) : (s.onCtx n f).keySlots = s.keySlots := by unfold State.onCtx; split <;> rfl
@[simp] theorem nextKey_onCtx (s : State) (n : Nat) (f : Context → Context) : (s.onCtx n f).nextKey = s.nextKey := by unfold State.onCtx; split <;> rfl
@[simp] theorem portCache_onCtx (s : State) (n : Nat) (f : Context → Context) : (s.onCtx n f).portCache = s.portCache := by unfold State.onCtx; split <;> rfl
@[simp] theorem slices_onCtx (s : State) (n : Nat) (f : Context → Context) : (s.onCtx n f).slices = s.slices := by unfold State.onCtx; split <;> rfl
@[simp] theorem transit_onCtx (s : State) (n : Nat) (f : Context → Context) : (s.onCtx n f).transit = s.transit := by unfold State.onCtx; split <;> rfl
@[simp] theorem replies_onCtx (s : State) (n : Nat) (f : Context → Context) : (s.onCtx n f).replies = s.replies := by unfold State.onCtx; split <;> rfl
@[simp] theorem prefetch_onCtx (s : State) (n : Nat) (f : Context → Context) : (s.onCtx n f).prefetch = s.prefetch := by unfold State.onCtx; split <;> rfl
@[simp] theorem shares_onCtx (s : State) (n : Nat) (f : Context → Context) : (s.onCtx n f).shares = s.shares := by unfold State.onCtx; split <;> rfl
@[simp] theorem served_onCtx (s : State) (n : Nat) (f : Context → Context) : (s.onCtx n f).served = s.served := by unfold State.onCtx; split <;> rfl
@[simp] theorem functions_onCtx (s : State) (n : Nat) (f : Context → Context) : (s.onCtx n f).functions = s.functions := by unfold State.onCtx; split <;> rfl
@[simp] theorem subQs_onCtx (s : State) (n : Nat) (f : Context → Context) : (s.onCtx n f).subQs = s.subQs := by unfold State.onCtx; split <;> rfl
@[simp] theorem compQs_onCtx (s : State) (n : Nat) (f : Context → Context) : (s.onCtx n f).compQs = s.compQs := by unfold State.onCtx; split <;> rfl
@[simp] theorem slots_onCtx (s : State) (n : Nat) (f : Context → Context) : (s.onCtx n f).slots = s.slots := by unfold State.onCtx; split <;> rfl
@[simp] theorem pendingQs_onCtx (s : State) (n : Nat) (f : Context → Context) : (s.onCtx n f).pendingQs = s.pendingQs := by unfold State.onCtx; split <;> rfl
@[simp] theorem doorbells_onCtx (s : State) (n : Nat) (f : Context → Context) : (s.onCtx n f).doorbells = s.doorbells := by unfold State.onCtx; split <;> rfl
@[simp] theorem fetched_onCtx (s : State) (n : Nat) (f : Context → Context) : (s.onCtx n f).fetched = s.fetched := by unfold State.onCtx; split <;> rfl
@[simp] theorem held_onCtx (s : State) (n : Nat) (f : Context → Context) : (s.onCtx n f).held = s.held := by unfold State.onCtx; split <;> rfl
@[simp] theorem jets_onCtx (s : State) (n : Nat) (f : Context → Context) : (s.onCtx n f).jets = s.jets := by unfold State.onCtx; split <;> rfl
@[simp] theorem grants_onCtx (s : State) (n : Nat) (f : Context → Context) : (s.onCtx n f).grants = s.grants := by unfold State.onCtx; split <;> rfl
@[simp] theorem bridges_onCtx (s : State) (n : Nat) (f : Context → Context) : (s.onCtx n f).bridges = s.bridges := by unfold State.onCtx; split <;> rfl
@[simp] theorem reports_onCtx (s : State) (n : Nat) (f : Context → Context) : (s.onCtx n f).reports = s.reports := by unfold State.onCtx; split <;> rfl
@[simp] theorem swapTimeouts_onCtx (s : State) (n : Nat) (f : Context → Context) : (s.onCtx n f).swapTimeouts = s.swapTimeouts := by unfold State.onCtx; split <;> rfl
@[simp] theorem pageFaults_onCtx (s : State) (n : Nat) (f : Context → Context) : (s.onCtx n f).pageFaults = s.pageFaults := by unfold State.onCtx; split <;> rfl
@[simp] theorem hostRequests_onCtx (s : State) (n : Nat) (f : Context → Context) : (s.onCtx n f).hostRequests = s.hostRequests := by unfold State.onCtx; split <;> rfl
@[simp] theorem nextRequest_onCtx (s : State) (n : Nat) (f : Context → Context) : (s.onCtx n f).nextRequest = s.nextRequest := by unfold State.onCtx; split <;> rfl
@[simp] theorem posted_onCtx (s : State) (n : Nat) (f : Context → Context) : (s.onCtx n f).posted = s.posted := by unfold State.onCtx; split <;> rfl
@[simp] theorem flits_onCtx (s : State) (n : Nat) (f : Context → Context) : (s.onCtx n f).flits = s.flits := by unfold State.onCtx; split <;> rfl
@[simp] theorem rings_onCtx (s : State) (n : Nat) (f : Context → Context) : (s.onCtx n f).rings = s.rings := by unfold State.onCtx; split <;> rfl
@[simp] theorem tokens_onCtx (s : State) (n : Nat) (f : Context → Context) : (s.onCtx n f).tokens = s.tokens := by unfold State.onCtx; split <;> rfl
@[simp] theorem spillAsks_onCtx (s : State) (n : Nat) (f : Context → Context) : (s.onCtx n f).spillAsks = s.spillAsks := by unfold State.onCtx; split <;> rfl
@[simp] theorem lulls_onCtx (s : State) (n : Nat) (f : Context → Context) : (s.onCtx n f).lulls = s.lulls := by unfold State.onCtx; split <;> rfl
@[simp] theorem heldOpm_onCtx (s : State) (n : Nat) (f : Context → Context) : (s.onCtx n f).heldOpm = s.heldOpm := by unfold State.onCtx; split <;> rfl
@[simp] theorem mode_onCtx (s : State) (n : Nat) (f : Context → Context) : (s.onCtx n f).mode = s.mode := by unfold State.onCtx; split <;> rfl
@[simp] theorem linkUp_onCtx (s : State) (n : Nat) (f : Context → Context) : (s.onCtx n f).linkUp = s.linkUp := by unfold State.onCtx; split <;> rfl
@[simp] theorem pwrCap_onCtx (s : State) (n : Nat) (f : Context → Context) : (s.onCtx n f).pwrCap = s.pwrCap := by unfold State.onCtx; split <;> rfl
@[simp] theorem power_onCtx (s : State) (n : Nat) (f : Context → Context) : (s.onCtx n f).power = s.power := by unfold State.onCtx; split <;> rfl
@[simp] theorem temp_onCtx (s : State) (n : Nat) (f : Context → Context) : (s.onCtx n f).temp = s.temp := by unfold State.onCtx; split <;> rfl
@[simp] theorem throttled_onCtx (s : State) (n : Nat) (f : Context → Context) : (s.onCtx n f).throttled = s.throttled := by unfold State.onCtx; split <;> rfl
@[simp] theorem capped_onCtx (s : State) (n : Nat) (f : Context → Context) : (s.onCtx n f).capped = s.capped := by unfold State.onCtx; split <;> rfl
@[simp] theorem tripped_onCtx (s : State) (n : Nat) (f : Context → Context) : (s.onCtx n f).tripped = s.tripped := by unfold State.onCtx; split <;> rfl
@[simp] theorem fwDigest_onCtx (s : State) (n : Nat) (f : Context → Context) : (s.onCtx n f).fwDigest = s.fwDigest := by unfold State.onCtx; split <;> rfl
@[simp] theorem errHead_onCtx (s : State) (n : Nat) (f : Context → Context) : (s.onCtx n f).errHead = s.errHead := by unfold State.onCtx; split <;> rfl
@[simp] theorem errLog_onCtx (s : State) (n : Nat) (f : Context → Context) : (s.onCtx n f).errLog = s.errLog := by unfold State.onCtx; split <;> rfl
@[simp] theorem unitFaults_onCtx (s : State) (n : Nat) (f : Context → Context) : (s.onCtx n f).unitFaults = s.unitFaults := by unfold State.onCtx; split <;> rfl
@[simp] theorem testsDue_onCtx (s : State) (n : Nat) (f : Context → Context) : (s.onCtx n f).testsDue = s.testsDue := by unfold State.onCtx; split <;> rfl
@[simp] theorem awake_onCtx (s : State) (n : Nat) (f : Context → Context) : (s.onCtx n f).awake = s.awake := by unfold State.onCtx; split <;> rfl
@[simp] theorem badCells_onCtx (s : State) (n : Nat) (f : Context → Context) : (s.onCtx n f).badCells = s.badCells := by unfold State.onCtx; split <;> rfl
@[simp] theorem dump_onCtx (s : State) (n : Nat) (f : Context → Context) : (s.onCtx n f).dump = s.dump := by unfold State.onCtx; split <;> rfl
@[simp] theorem outbox_onCtx (s : State) (n : Nat) (f : Context → Context) : (s.onCtx n f).outbox = s.outbox := by unfold State.onCtx; split <;> rfl
@[simp] theorem stamp_onCtx (s : State) (n : Nat) (f : Context → Context) : (s.onCtx n f).stamp = s.stamp := by unfold State.onCtx; split <;> rfl
@[simp] theorem cycle_onCtx (s : State) (n : Nat) (f : Context → Context) : (s.onCtx n f).cycle = s.cycle := by unfold State.onCtx; split <;> rfl
@[simp] theorem tick_onCtx (s : State) (n : Nat) (f : Context → Context) : (s.onCtx n f).tick = s.tick := by unfold State.onCtx; split <;> rfl
@[simp] theorem since_onCtx (s : State) (n : Nat) (f : Context → Context) : (s.onCtx n f).since = s.since := by unfold State.onCtx; split <;> rfl
@[simp] theorem turns_onCtx (s : State) (n : Nat) (f : Context → Context) : (s.onCtx n f).turns = s.turns := by unfold State.onCtx; split <;> rfl
@[simp] theorem focus_onCtx (s : State) (n : Nat) (f : Context → Context) : (s.onCtx n f).focus = s.focus := by unfold State.onCtx; split <;> rfl
@[simp] theorem agenda_onCtx (s : State) (n : Nat) (f : Context → Context) : (s.onCtx n f).agenda = s.agenda := by unfold State.onCtx; split <;> rfl

/-! ### State after a function is changed -/

@[simp] theorem tiles_onFunction (s : State) (n : Nat) (g : Function → Function) : (s.onFunction n g).tiles = s.tiles := rfl
@[simp] theorem ctxs_onFunction (s : State) (n : Nat) (g : Function → Function) : (s.onFunction n g).ctxs = s.ctxs := rfl
@[simp] theorem gens_onFunction (s : State) (n : Nat) (g : Function → Function) : (s.onFunction n g).gens = s.gens := rfl
@[simp] theorem fenceDrop_onFunction (s : State) (n : Nat) (g : Function → Function) : (s.onFunction n g).fenceDrop = s.fenceDrop := rfl
@[simp] theorem images_onFunction (s : State) (n : Nat) (g : Function → Function) : (s.onFunction n g).images = s.images := rfl
@[simp] theorem seals_onFunction (s : State) (n : Nat) (g : Function → Function) : (s.onFunction n g).seals = s.seals := rfl
@[simp] theorem devMem_onFunction (s : State) (n : Nat) (g : Function → Function) : (s.onFunction n g).devMem = s.devMem := rfl
@[simp] theorem devKey_onFunction (s : State) (n : Nat) (g : Function → Function) : (s.onFunction n g).devKey = s.devKey := rfl
@[simp] theorem devPoison_onFunction (s : State) (n : Nat) (g : Function → Function) : (s.onFunction n g).devPoison = s.devPoison := rfl
@[simp] theorem hostMem_onFunction (s : State) (n : Nat) (g : Function → Function) : (s.onFunction n g).hostMem = s.hostMem := rfl
@[simp] theorem atsCache_onFunction (s : State) (n : Nat) (g : Function → Function) : (s.onFunction n g).atsCache = s.atsCache := rfl
@[simp] theorem keySlots_onFunction (s : State) (n : Nat) (g : Function → Function) : (s.onFunction n g).keySlots = s.keySlots := rfl
@[simp] theorem nextKey_onFunction (s : State) (n : Nat) (g : Function → Function) : (s.onFunction n g).nextKey = s.nextKey := rfl
@[simp] theorem portCache_onFunction (s : State) (n : Nat) (g : Function → Function) : (s.onFunction n g).portCache = s.portCache := rfl
@[simp] theorem slices_onFunction (s : State) (n : Nat) (g : Function → Function) : (s.onFunction n g).slices = s.slices := rfl
@[simp] theorem transit_onFunction (s : State) (n : Nat) (g : Function → Function) : (s.onFunction n g).transit = s.transit := rfl
@[simp] theorem replies_onFunction (s : State) (n : Nat) (g : Function → Function) : (s.onFunction n g).replies = s.replies := rfl
@[simp] theorem prefetch_onFunction (s : State) (n : Nat) (g : Function → Function) : (s.onFunction n g).prefetch = s.prefetch := rfl
@[simp] theorem shares_onFunction (s : State) (n : Nat) (g : Function → Function) : (s.onFunction n g).shares = s.shares := rfl
@[simp] theorem served_onFunction (s : State) (n : Nat) (g : Function → Function) : (s.onFunction n g).served = s.served := rfl
@[simp] theorem subQs_onFunction (s : State) (n : Nat) (g : Function → Function) : (s.onFunction n g).subQs = s.subQs := rfl
@[simp] theorem compQs_onFunction (s : State) (n : Nat) (g : Function → Function) : (s.onFunction n g).compQs = s.compQs := rfl
@[simp] theorem slots_onFunction (s : State) (n : Nat) (g : Function → Function) : (s.onFunction n g).slots = s.slots := rfl
@[simp] theorem pendingQs_onFunction (s : State) (n : Nat) (g : Function → Function) : (s.onFunction n g).pendingQs = s.pendingQs := rfl
@[simp] theorem doorbells_onFunction (s : State) (n : Nat) (g : Function → Function) : (s.onFunction n g).doorbells = s.doorbells := rfl
@[simp] theorem fetched_onFunction (s : State) (n : Nat) (g : Function → Function) : (s.onFunction n g).fetched = s.fetched := rfl
@[simp] theorem held_onFunction (s : State) (n : Nat) (g : Function → Function) : (s.onFunction n g).held = s.held := rfl
@[simp] theorem jets_onFunction (s : State) (n : Nat) (g : Function → Function) : (s.onFunction n g).jets = s.jets := rfl
@[simp] theorem grants_onFunction (s : State) (n : Nat) (g : Function → Function) : (s.onFunction n g).grants = s.grants := rfl
@[simp] theorem bridges_onFunction (s : State) (n : Nat) (g : Function → Function) : (s.onFunction n g).bridges = s.bridges := rfl
@[simp] theorem reports_onFunction (s : State) (n : Nat) (g : Function → Function) : (s.onFunction n g).reports = s.reports := rfl
@[simp] theorem swapTimeouts_onFunction (s : State) (n : Nat) (g : Function → Function) : (s.onFunction n g).swapTimeouts = s.swapTimeouts := rfl
@[simp] theorem pageFaults_onFunction (s : State) (n : Nat) (g : Function → Function) : (s.onFunction n g).pageFaults = s.pageFaults := rfl
@[simp] theorem hostRequests_onFunction (s : State) (n : Nat) (g : Function → Function) : (s.onFunction n g).hostRequests = s.hostRequests := rfl
@[simp] theorem nextRequest_onFunction (s : State) (n : Nat) (g : Function → Function) : (s.onFunction n g).nextRequest = s.nextRequest := rfl
@[simp] theorem posted_onFunction (s : State) (n : Nat) (g : Function → Function) : (s.onFunction n g).posted = s.posted := rfl
@[simp] theorem flits_onFunction (s : State) (n : Nat) (g : Function → Function) : (s.onFunction n g).flits = s.flits := rfl
@[simp] theorem rings_onFunction (s : State) (n : Nat) (g : Function → Function) : (s.onFunction n g).rings = s.rings := rfl
@[simp] theorem tokens_onFunction (s : State) (n : Nat) (g : Function → Function) : (s.onFunction n g).tokens = s.tokens := rfl
@[simp] theorem spillAsks_onFunction (s : State) (n : Nat) (g : Function → Function) : (s.onFunction n g).spillAsks = s.spillAsks := rfl
@[simp] theorem lulls_onFunction (s : State) (n : Nat) (g : Function → Function) : (s.onFunction n g).lulls = s.lulls := rfl
@[simp] theorem heldOpm_onFunction (s : State) (n : Nat) (g : Function → Function) : (s.onFunction n g).heldOpm = s.heldOpm := rfl
@[simp] theorem mode_onFunction (s : State) (n : Nat) (g : Function → Function) : (s.onFunction n g).mode = s.mode := rfl
@[simp] theorem linkUp_onFunction (s : State) (n : Nat) (g : Function → Function) : (s.onFunction n g).linkUp = s.linkUp := rfl
@[simp] theorem pwrCap_onFunction (s : State) (n : Nat) (g : Function → Function) : (s.onFunction n g).pwrCap = s.pwrCap := rfl
@[simp] theorem power_onFunction (s : State) (n : Nat) (g : Function → Function) : (s.onFunction n g).power = s.power := rfl
@[simp] theorem temp_onFunction (s : State) (n : Nat) (g : Function → Function) : (s.onFunction n g).temp = s.temp := rfl
@[simp] theorem throttled_onFunction (s : State) (n : Nat) (g : Function → Function) : (s.onFunction n g).throttled = s.throttled := rfl
@[simp] theorem capped_onFunction (s : State) (n : Nat) (g : Function → Function) : (s.onFunction n g).capped = s.capped := rfl
@[simp] theorem tripped_onFunction (s : State) (n : Nat) (g : Function → Function) : (s.onFunction n g).tripped = s.tripped := rfl
@[simp] theorem fwDigest_onFunction (s : State) (n : Nat) (g : Function → Function) : (s.onFunction n g).fwDigest = s.fwDigest := rfl
@[simp] theorem errHead_onFunction (s : State) (n : Nat) (g : Function → Function) : (s.onFunction n g).errHead = s.errHead := rfl
@[simp] theorem errLog_onFunction (s : State) (n : Nat) (g : Function → Function) : (s.onFunction n g).errLog = s.errLog := rfl
@[simp] theorem unitFaults_onFunction (s : State) (n : Nat) (g : Function → Function) : (s.onFunction n g).unitFaults = s.unitFaults := rfl
@[simp] theorem testsDue_onFunction (s : State) (n : Nat) (g : Function → Function) : (s.onFunction n g).testsDue = s.testsDue := rfl
@[simp] theorem awake_onFunction (s : State) (n : Nat) (g : Function → Function) : (s.onFunction n g).awake = s.awake := rfl
@[simp] theorem badCells_onFunction (s : State) (n : Nat) (g : Function → Function) : (s.onFunction n g).badCells = s.badCells := rfl
@[simp] theorem dump_onFunction (s : State) (n : Nat) (g : Function → Function) : (s.onFunction n g).dump = s.dump := rfl
@[simp] theorem outbox_onFunction (s : State) (n : Nat) (g : Function → Function) : (s.onFunction n g).outbox = s.outbox := rfl
@[simp] theorem stamp_onFunction (s : State) (n : Nat) (g : Function → Function) : (s.onFunction n g).stamp = s.stamp := rfl
@[simp] theorem cycle_onFunction (s : State) (n : Nat) (g : Function → Function) : (s.onFunction n g).cycle = s.cycle := rfl
@[simp] theorem tick_onFunction (s : State) (n : Nat) (g : Function → Function) : (s.onFunction n g).tick = s.tick := rfl
@[simp] theorem since_onFunction (s : State) (n : Nat) (g : Function → Function) : (s.onFunction n g).since = s.since := rfl
@[simp] theorem turns_onFunction (s : State) (n : Nat) (g : Function → Function) : (s.onFunction n g).turns = s.turns := rfl
@[simp] theorem focus_onFunction (s : State) (n : Nat) (g : Function → Function) : (s.onFunction n g).focus = s.focus := rfl
@[simp] theorem agenda_onFunction (s : State) (n : Nat) (g : Function → Function) : (s.onFunction n g).agenda = s.agenda := rfl

/-! ### State after a jet port is changed -/

@[simp] theorem tiles_onJet (s : State) (p : Nat) (f : JetPort → JetPort) : (s.onJet p f).tiles = s.tiles := rfl
@[simp] theorem ctxs_onJet (s : State) (p : Nat) (f : JetPort → JetPort) : (s.onJet p f).ctxs = s.ctxs := rfl
@[simp] theorem gens_onJet (s : State) (p : Nat) (f : JetPort → JetPort) : (s.onJet p f).gens = s.gens := rfl
@[simp] theorem fenceDrop_onJet (s : State) (p : Nat) (f : JetPort → JetPort) : (s.onJet p f).fenceDrop = s.fenceDrop := rfl
@[simp] theorem images_onJet (s : State) (p : Nat) (f : JetPort → JetPort) : (s.onJet p f).images = s.images := rfl
@[simp] theorem seals_onJet (s : State) (p : Nat) (f : JetPort → JetPort) : (s.onJet p f).seals = s.seals := rfl
@[simp] theorem devMem_onJet (s : State) (p : Nat) (f : JetPort → JetPort) : (s.onJet p f).devMem = s.devMem := rfl
@[simp] theorem devKey_onJet (s : State) (p : Nat) (f : JetPort → JetPort) : (s.onJet p f).devKey = s.devKey := rfl
@[simp] theorem devPoison_onJet (s : State) (p : Nat) (f : JetPort → JetPort) : (s.onJet p f).devPoison = s.devPoison := rfl
@[simp] theorem hostMem_onJet (s : State) (p : Nat) (f : JetPort → JetPort) : (s.onJet p f).hostMem = s.hostMem := rfl
@[simp] theorem atsCache_onJet (s : State) (p : Nat) (f : JetPort → JetPort) : (s.onJet p f).atsCache = s.atsCache := rfl
@[simp] theorem keySlots_onJet (s : State) (p : Nat) (f : JetPort → JetPort) : (s.onJet p f).keySlots = s.keySlots := rfl
@[simp] theorem nextKey_onJet (s : State) (p : Nat) (f : JetPort → JetPort) : (s.onJet p f).nextKey = s.nextKey := rfl
@[simp] theorem portCache_onJet (s : State) (p : Nat) (f : JetPort → JetPort) : (s.onJet p f).portCache = s.portCache := rfl
@[simp] theorem slices_onJet (s : State) (p : Nat) (f : JetPort → JetPort) : (s.onJet p f).slices = s.slices := rfl
@[simp] theorem transit_onJet (s : State) (p : Nat) (f : JetPort → JetPort) : (s.onJet p f).transit = s.transit := rfl
@[simp] theorem replies_onJet (s : State) (p : Nat) (f : JetPort → JetPort) : (s.onJet p f).replies = s.replies := rfl
@[simp] theorem prefetch_onJet (s : State) (p : Nat) (f : JetPort → JetPort) : (s.onJet p f).prefetch = s.prefetch := rfl
@[simp] theorem shares_onJet (s : State) (p : Nat) (f : JetPort → JetPort) : (s.onJet p f).shares = s.shares := rfl
@[simp] theorem served_onJet (s : State) (p : Nat) (f : JetPort → JetPort) : (s.onJet p f).served = s.served := rfl
@[simp] theorem functions_onJet (s : State) (p : Nat) (f : JetPort → JetPort) : (s.onJet p f).functions = s.functions := rfl
@[simp] theorem subQs_onJet (s : State) (p : Nat) (f : JetPort → JetPort) : (s.onJet p f).subQs = s.subQs := rfl
@[simp] theorem compQs_onJet (s : State) (p : Nat) (f : JetPort → JetPort) : (s.onJet p f).compQs = s.compQs := rfl
@[simp] theorem slots_onJet (s : State) (p : Nat) (f : JetPort → JetPort) : (s.onJet p f).slots = s.slots := rfl
@[simp] theorem pendingQs_onJet (s : State) (p : Nat) (f : JetPort → JetPort) : (s.onJet p f).pendingQs = s.pendingQs := rfl
@[simp] theorem doorbells_onJet (s : State) (p : Nat) (f : JetPort → JetPort) : (s.onJet p f).doorbells = s.doorbells := rfl
@[simp] theorem fetched_onJet (s : State) (p : Nat) (f : JetPort → JetPort) : (s.onJet p f).fetched = s.fetched := rfl
@[simp] theorem held_onJet (s : State) (p : Nat) (f : JetPort → JetPort) : (s.onJet p f).held = s.held := rfl
@[simp] theorem grants_onJet (s : State) (p : Nat) (f : JetPort → JetPort) : (s.onJet p f).grants = s.grants := rfl
@[simp] theorem bridges_onJet (s : State) (p : Nat) (f : JetPort → JetPort) : (s.onJet p f).bridges = s.bridges := rfl
@[simp] theorem reports_onJet (s : State) (p : Nat) (f : JetPort → JetPort) : (s.onJet p f).reports = s.reports := rfl
@[simp] theorem swapTimeouts_onJet (s : State) (p : Nat) (f : JetPort → JetPort) : (s.onJet p f).swapTimeouts = s.swapTimeouts := rfl
@[simp] theorem pageFaults_onJet (s : State) (p : Nat) (f : JetPort → JetPort) : (s.onJet p f).pageFaults = s.pageFaults := rfl
@[simp] theorem hostRequests_onJet (s : State) (p : Nat) (f : JetPort → JetPort) : (s.onJet p f).hostRequests = s.hostRequests := rfl
@[simp] theorem nextRequest_onJet (s : State) (p : Nat) (f : JetPort → JetPort) : (s.onJet p f).nextRequest = s.nextRequest := rfl
@[simp] theorem posted_onJet (s : State) (p : Nat) (f : JetPort → JetPort) : (s.onJet p f).posted = s.posted := rfl
@[simp] theorem flits_onJet (s : State) (p : Nat) (f : JetPort → JetPort) : (s.onJet p f).flits = s.flits := rfl
@[simp] theorem rings_onJet (s : State) (p : Nat) (f : JetPort → JetPort) : (s.onJet p f).rings = s.rings := rfl
@[simp] theorem tokens_onJet (s : State) (p : Nat) (f : JetPort → JetPort) : (s.onJet p f).tokens = s.tokens := rfl
@[simp] theorem spillAsks_onJet (s : State) (p : Nat) (f : JetPort → JetPort) : (s.onJet p f).spillAsks = s.spillAsks := rfl
@[simp] theorem lulls_onJet (s : State) (p : Nat) (f : JetPort → JetPort) : (s.onJet p f).lulls = s.lulls := rfl
@[simp] theorem heldOpm_onJet (s : State) (p : Nat) (f : JetPort → JetPort) : (s.onJet p f).heldOpm = s.heldOpm := rfl
@[simp] theorem mode_onJet (s : State) (p : Nat) (f : JetPort → JetPort) : (s.onJet p f).mode = s.mode := rfl
@[simp] theorem linkUp_onJet (s : State) (p : Nat) (f : JetPort → JetPort) : (s.onJet p f).linkUp = s.linkUp := rfl
@[simp] theorem pwrCap_onJet (s : State) (p : Nat) (f : JetPort → JetPort) : (s.onJet p f).pwrCap = s.pwrCap := rfl
@[simp] theorem power_onJet (s : State) (p : Nat) (f : JetPort → JetPort) : (s.onJet p f).power = s.power := rfl
@[simp] theorem temp_onJet (s : State) (p : Nat) (f : JetPort → JetPort) : (s.onJet p f).temp = s.temp := rfl
@[simp] theorem throttled_onJet (s : State) (p : Nat) (f : JetPort → JetPort) : (s.onJet p f).throttled = s.throttled := rfl
@[simp] theorem capped_onJet (s : State) (p : Nat) (f : JetPort → JetPort) : (s.onJet p f).capped = s.capped := rfl
@[simp] theorem tripped_onJet (s : State) (p : Nat) (f : JetPort → JetPort) : (s.onJet p f).tripped = s.tripped := rfl
@[simp] theorem fwDigest_onJet (s : State) (p : Nat) (f : JetPort → JetPort) : (s.onJet p f).fwDigest = s.fwDigest := rfl
@[simp] theorem errHead_onJet (s : State) (p : Nat) (f : JetPort → JetPort) : (s.onJet p f).errHead = s.errHead := rfl
@[simp] theorem errLog_onJet (s : State) (p : Nat) (f : JetPort → JetPort) : (s.onJet p f).errLog = s.errLog := rfl
@[simp] theorem unitFaults_onJet (s : State) (p : Nat) (f : JetPort → JetPort) : (s.onJet p f).unitFaults = s.unitFaults := rfl
@[simp] theorem testsDue_onJet (s : State) (p : Nat) (f : JetPort → JetPort) : (s.onJet p f).testsDue = s.testsDue := rfl
@[simp] theorem awake_onJet (s : State) (p : Nat) (f : JetPort → JetPort) : (s.onJet p f).awake = s.awake := rfl
@[simp] theorem badCells_onJet (s : State) (p : Nat) (f : JetPort → JetPort) : (s.onJet p f).badCells = s.badCells := rfl
@[simp] theorem dump_onJet (s : State) (p : Nat) (f : JetPort → JetPort) : (s.onJet p f).dump = s.dump := rfl
@[simp] theorem outbox_onJet (s : State) (p : Nat) (f : JetPort → JetPort) : (s.onJet p f).outbox = s.outbox := rfl
@[simp] theorem stamp_onJet (s : State) (p : Nat) (f : JetPort → JetPort) : (s.onJet p f).stamp = s.stamp := rfl
@[simp] theorem cycle_onJet (s : State) (p : Nat) (f : JetPort → JetPort) : (s.onJet p f).cycle = s.cycle := rfl
@[simp] theorem tick_onJet (s : State) (p : Nat) (f : JetPort → JetPort) : (s.onJet p f).tick = s.tick := rfl
@[simp] theorem since_onJet (s : State) (p : Nat) (f : JetPort → JetPort) : (s.onJet p f).since = s.since := rfl
@[simp] theorem turns_onJet (s : State) (p : Nat) (f : JetPort → JetPort) : (s.onJet p f).turns = s.turns := rfl
@[simp] theorem focus_onJet (s : State) (p : Nat) (f : JetPort → JetPort) : (s.onJet p f).focus = s.focus := rfl
@[simp] theorem agenda_onJet (s : State) (p : Nat) (f : JetPort → JetPort) : (s.onJet p f).agenda = s.agenda := rfl

/-! ### State after a slice is changed -/

@[simp] theorem tiles_onSlice (s : State) (k : Nat) (f : Slice → Slice) : (s.onSlice k f).tiles = s.tiles := rfl
@[simp] theorem ctxs_onSlice (s : State) (k : Nat) (f : Slice → Slice) : (s.onSlice k f).ctxs = s.ctxs := rfl
@[simp] theorem gens_onSlice (s : State) (k : Nat) (f : Slice → Slice) : (s.onSlice k f).gens = s.gens := rfl
@[simp] theorem fenceDrop_onSlice (s : State) (k : Nat) (f : Slice → Slice) : (s.onSlice k f).fenceDrop = s.fenceDrop := rfl
@[simp] theorem images_onSlice (s : State) (k : Nat) (f : Slice → Slice) : (s.onSlice k f).images = s.images := rfl
@[simp] theorem seals_onSlice (s : State) (k : Nat) (f : Slice → Slice) : (s.onSlice k f).seals = s.seals := rfl
@[simp] theorem devMem_onSlice (s : State) (k : Nat) (f : Slice → Slice) : (s.onSlice k f).devMem = s.devMem := rfl
@[simp] theorem devKey_onSlice (s : State) (k : Nat) (f : Slice → Slice) : (s.onSlice k f).devKey = s.devKey := rfl
@[simp] theorem devPoison_onSlice (s : State) (k : Nat) (f : Slice → Slice) : (s.onSlice k f).devPoison = s.devPoison := rfl
@[simp] theorem hostMem_onSlice (s : State) (k : Nat) (f : Slice → Slice) : (s.onSlice k f).hostMem = s.hostMem := rfl
@[simp] theorem atsCache_onSlice (s : State) (k : Nat) (f : Slice → Slice) : (s.onSlice k f).atsCache = s.atsCache := rfl
@[simp] theorem keySlots_onSlice (s : State) (k : Nat) (f : Slice → Slice) : (s.onSlice k f).keySlots = s.keySlots := rfl
@[simp] theorem nextKey_onSlice (s : State) (k : Nat) (f : Slice → Slice) : (s.onSlice k f).nextKey = s.nextKey := rfl
@[simp] theorem portCache_onSlice (s : State) (k : Nat) (f : Slice → Slice) : (s.onSlice k f).portCache = s.portCache := rfl
@[simp] theorem transit_onSlice (s : State) (k : Nat) (f : Slice → Slice) : (s.onSlice k f).transit = s.transit := rfl
@[simp] theorem replies_onSlice (s : State) (k : Nat) (f : Slice → Slice) : (s.onSlice k f).replies = s.replies := rfl
@[simp] theorem prefetch_onSlice (s : State) (k : Nat) (f : Slice → Slice) : (s.onSlice k f).prefetch = s.prefetch := rfl
@[simp] theorem shares_onSlice (s : State) (k : Nat) (f : Slice → Slice) : (s.onSlice k f).shares = s.shares := rfl
@[simp] theorem served_onSlice (s : State) (k : Nat) (f : Slice → Slice) : (s.onSlice k f).served = s.served := rfl
@[simp] theorem functions_onSlice (s : State) (k : Nat) (f : Slice → Slice) : (s.onSlice k f).functions = s.functions := rfl
@[simp] theorem subQs_onSlice (s : State) (k : Nat) (f : Slice → Slice) : (s.onSlice k f).subQs = s.subQs := rfl
@[simp] theorem compQs_onSlice (s : State) (k : Nat) (f : Slice → Slice) : (s.onSlice k f).compQs = s.compQs := rfl
@[simp] theorem slots_onSlice (s : State) (k : Nat) (f : Slice → Slice) : (s.onSlice k f).slots = s.slots := rfl
@[simp] theorem pendingQs_onSlice (s : State) (k : Nat) (f : Slice → Slice) : (s.onSlice k f).pendingQs = s.pendingQs := rfl
@[simp] theorem doorbells_onSlice (s : State) (k : Nat) (f : Slice → Slice) : (s.onSlice k f).doorbells = s.doorbells := rfl
@[simp] theorem fetched_onSlice (s : State) (k : Nat) (f : Slice → Slice) : (s.onSlice k f).fetched = s.fetched := rfl
@[simp] theorem held_onSlice (s : State) (k : Nat) (f : Slice → Slice) : (s.onSlice k f).held = s.held := rfl
@[simp] theorem jets_onSlice (s : State) (k : Nat) (f : Slice → Slice) : (s.onSlice k f).jets = s.jets := rfl
@[simp] theorem grants_onSlice (s : State) (k : Nat) (f : Slice → Slice) : (s.onSlice k f).grants = s.grants := rfl
@[simp] theorem bridges_onSlice (s : State) (k : Nat) (f : Slice → Slice) : (s.onSlice k f).bridges = s.bridges := rfl
@[simp] theorem reports_onSlice (s : State) (k : Nat) (f : Slice → Slice) : (s.onSlice k f).reports = s.reports := rfl
@[simp] theorem swapTimeouts_onSlice (s : State) (k : Nat) (f : Slice → Slice) : (s.onSlice k f).swapTimeouts = s.swapTimeouts := rfl
@[simp] theorem pageFaults_onSlice (s : State) (k : Nat) (f : Slice → Slice) : (s.onSlice k f).pageFaults = s.pageFaults := rfl
@[simp] theorem hostRequests_onSlice (s : State) (k : Nat) (f : Slice → Slice) : (s.onSlice k f).hostRequests = s.hostRequests := rfl
@[simp] theorem nextRequest_onSlice (s : State) (k : Nat) (f : Slice → Slice) : (s.onSlice k f).nextRequest = s.nextRequest := rfl
@[simp] theorem posted_onSlice (s : State) (k : Nat) (f : Slice → Slice) : (s.onSlice k f).posted = s.posted := rfl
@[simp] theorem flits_onSlice (s : State) (k : Nat) (f : Slice → Slice) : (s.onSlice k f).flits = s.flits := rfl
@[simp] theorem rings_onSlice (s : State) (k : Nat) (f : Slice → Slice) : (s.onSlice k f).rings = s.rings := rfl
@[simp] theorem tokens_onSlice (s : State) (k : Nat) (f : Slice → Slice) : (s.onSlice k f).tokens = s.tokens := rfl
@[simp] theorem spillAsks_onSlice (s : State) (k : Nat) (f : Slice → Slice) : (s.onSlice k f).spillAsks = s.spillAsks := rfl
@[simp] theorem lulls_onSlice (s : State) (k : Nat) (f : Slice → Slice) : (s.onSlice k f).lulls = s.lulls := rfl
@[simp] theorem heldOpm_onSlice (s : State) (k : Nat) (f : Slice → Slice) : (s.onSlice k f).heldOpm = s.heldOpm := rfl
@[simp] theorem mode_onSlice (s : State) (k : Nat) (f : Slice → Slice) : (s.onSlice k f).mode = s.mode := rfl
@[simp] theorem linkUp_onSlice (s : State) (k : Nat) (f : Slice → Slice) : (s.onSlice k f).linkUp = s.linkUp := rfl
@[simp] theorem pwrCap_onSlice (s : State) (k : Nat) (f : Slice → Slice) : (s.onSlice k f).pwrCap = s.pwrCap := rfl
@[simp] theorem power_onSlice (s : State) (k : Nat) (f : Slice → Slice) : (s.onSlice k f).power = s.power := rfl
@[simp] theorem temp_onSlice (s : State) (k : Nat) (f : Slice → Slice) : (s.onSlice k f).temp = s.temp := rfl
@[simp] theorem throttled_onSlice (s : State) (k : Nat) (f : Slice → Slice) : (s.onSlice k f).throttled = s.throttled := rfl
@[simp] theorem capped_onSlice (s : State) (k : Nat) (f : Slice → Slice) : (s.onSlice k f).capped = s.capped := rfl
@[simp] theorem tripped_onSlice (s : State) (k : Nat) (f : Slice → Slice) : (s.onSlice k f).tripped = s.tripped := rfl
@[simp] theorem fwDigest_onSlice (s : State) (k : Nat) (f : Slice → Slice) : (s.onSlice k f).fwDigest = s.fwDigest := rfl
@[simp] theorem errHead_onSlice (s : State) (k : Nat) (f : Slice → Slice) : (s.onSlice k f).errHead = s.errHead := rfl
@[simp] theorem errLog_onSlice (s : State) (k : Nat) (f : Slice → Slice) : (s.onSlice k f).errLog = s.errLog := rfl
@[simp] theorem unitFaults_onSlice (s : State) (k : Nat) (f : Slice → Slice) : (s.onSlice k f).unitFaults = s.unitFaults := rfl
@[simp] theorem testsDue_onSlice (s : State) (k : Nat) (f : Slice → Slice) : (s.onSlice k f).testsDue = s.testsDue := rfl
@[simp] theorem awake_onSlice (s : State) (k : Nat) (f : Slice → Slice) : (s.onSlice k f).awake = s.awake := rfl
@[simp] theorem badCells_onSlice (s : State) (k : Nat) (f : Slice → Slice) : (s.onSlice k f).badCells = s.badCells := rfl
@[simp] theorem dump_onSlice (s : State) (k : Nat) (f : Slice → Slice) : (s.onSlice k f).dump = s.dump := rfl
@[simp] theorem outbox_onSlice (s : State) (k : Nat) (f : Slice → Slice) : (s.onSlice k f).outbox = s.outbox := rfl
@[simp] theorem stamp_onSlice (s : State) (k : Nat) (f : Slice → Slice) : (s.onSlice k f).stamp = s.stamp := rfl
@[simp] theorem cycle_onSlice (s : State) (k : Nat) (f : Slice → Slice) : (s.onSlice k f).cycle = s.cycle := rfl
@[simp] theorem tick_onSlice (s : State) (k : Nat) (f : Slice → Slice) : (s.onSlice k f).tick = s.tick := rfl
@[simp] theorem since_onSlice (s : State) (k : Nat) (f : Slice → Slice) : (s.onSlice k f).since = s.since := rfl
@[simp] theorem turns_onSlice (s : State) (k : Nat) (f : Slice → Slice) : (s.onSlice k f).turns = s.turns := rfl
@[simp] theorem focus_onSlice (s : State) (k : Nat) (f : Slice → Slice) : (s.onSlice k f).focus = s.focus := rfl
@[simp] theorem agenda_onSlice (s : State) (k : Nat) (f : Slice → Slice) : (s.onSlice k f).agenda = s.agenda := rfl

/-! ### State after time has passed -/

@[simp] theorem tiles_advance (s : State)  : (s.advance).tiles = s.tiles := rfl
@[simp] theorem ctxs_advance (s : State)  : (s.advance).ctxs = s.ctxs := rfl
@[simp] theorem gens_advance (s : State)  : (s.advance).gens = s.gens := rfl
@[simp] theorem fenceDrop_advance (s : State)  : (s.advance).fenceDrop = s.fenceDrop := rfl
@[simp] theorem images_advance (s : State)  : (s.advance).images = s.images := rfl
@[simp] theorem seals_advance (s : State)  : (s.advance).seals = s.seals := rfl
@[simp] theorem devMem_advance (s : State)  : (s.advance).devMem = s.devMem := rfl
@[simp] theorem devKey_advance (s : State)  : (s.advance).devKey = s.devKey := rfl
@[simp] theorem devPoison_advance (s : State)  : (s.advance).devPoison = s.devPoison := rfl
@[simp] theorem hostMem_advance (s : State)  : (s.advance).hostMem = s.hostMem := rfl
@[simp] theorem atsCache_advance (s : State)  : (s.advance).atsCache = s.atsCache := rfl
@[simp] theorem keySlots_advance (s : State)  : (s.advance).keySlots = s.keySlots := rfl
@[simp] theorem nextKey_advance (s : State)  : (s.advance).nextKey = s.nextKey := rfl
@[simp] theorem portCache_advance (s : State)  : (s.advance).portCache = s.portCache := rfl
@[simp] theorem slices_advance (s : State)  : (s.advance).slices = s.slices := rfl
@[simp] theorem transit_advance (s : State)  : (s.advance).transit = s.transit := rfl
@[simp] theorem replies_advance (s : State)  : (s.advance).replies = s.replies := rfl
@[simp] theorem prefetch_advance (s : State)  : (s.advance).prefetch = s.prefetch := rfl
@[simp] theorem shares_advance (s : State)  : (s.advance).shares = s.shares := rfl
@[simp] theorem served_advance (s : State)  : (s.advance).served = s.served := rfl
@[simp] theorem functions_advance (s : State)  : (s.advance).functions = s.functions := rfl
@[simp] theorem subQs_advance (s : State)  : (s.advance).subQs = s.subQs := rfl
@[simp] theorem compQs_advance (s : State)  : (s.advance).compQs = s.compQs := rfl
@[simp] theorem slots_advance (s : State)  : (s.advance).slots = s.slots := rfl
@[simp] theorem pendingQs_advance (s : State)  : (s.advance).pendingQs = s.pendingQs := rfl
@[simp] theorem doorbells_advance (s : State)  : (s.advance).doorbells = s.doorbells := rfl
@[simp] theorem fetched_advance (s : State)  : (s.advance).fetched = s.fetched := rfl
@[simp] theorem held_advance (s : State)  : (s.advance).held = s.held := rfl
@[simp] theorem jets_advance (s : State)  : (s.advance).jets = s.jets := rfl
@[simp] theorem grants_advance (s : State)  : (s.advance).grants = s.grants := rfl
@[simp] theorem bridges_advance (s : State)  : (s.advance).bridges = s.bridges := rfl
@[simp] theorem reports_advance (s : State)  : (s.advance).reports = s.reports := rfl
@[simp] theorem swapTimeouts_advance (s : State)  : (s.advance).swapTimeouts = s.swapTimeouts := rfl
@[simp] theorem pageFaults_advance (s : State)  : (s.advance).pageFaults = s.pageFaults := rfl
@[simp] theorem hostRequests_advance (s : State)  : (s.advance).hostRequests = s.hostRequests := rfl
@[simp] theorem nextRequest_advance (s : State)  : (s.advance).nextRequest = s.nextRequest := rfl
@[simp] theorem posted_advance (s : State)  : (s.advance).posted = s.posted := rfl
@[simp] theorem flits_advance (s : State)  : (s.advance).flits = s.flits := rfl
@[simp] theorem rings_advance (s : State)  : (s.advance).rings = s.rings := rfl
@[simp] theorem tokens_advance (s : State)  : (s.advance).tokens = s.tokens := rfl
@[simp] theorem spillAsks_advance (s : State)  : (s.advance).spillAsks = s.spillAsks := rfl
@[simp] theorem lulls_advance (s : State)  : (s.advance).lulls = s.lulls := rfl
@[simp] theorem heldOpm_advance (s : State)  : (s.advance).heldOpm = s.heldOpm := rfl
@[simp] theorem mode_advance (s : State)  : (s.advance).mode = s.mode := rfl
@[simp] theorem linkUp_advance (s : State)  : (s.advance).linkUp = s.linkUp := rfl
@[simp] theorem pwrCap_advance (s : State)  : (s.advance).pwrCap = s.pwrCap := rfl
@[simp] theorem power_advance (s : State)  : (s.advance).power = s.power := rfl
@[simp] theorem temp_advance (s : State)  : (s.advance).temp = s.temp := rfl
@[simp] theorem throttled_advance (s : State)  : (s.advance).throttled = s.throttled := rfl
@[simp] theorem capped_advance (s : State)  : (s.advance).capped = s.capped := rfl
@[simp] theorem tripped_advance (s : State)  : (s.advance).tripped = s.tripped := rfl
@[simp] theorem fwDigest_advance (s : State)  : (s.advance).fwDigest = s.fwDigest := rfl
@[simp] theorem errHead_advance (s : State)  : (s.advance).errHead = s.errHead := rfl
@[simp] theorem errLog_advance (s : State)  : (s.advance).errLog = s.errLog := rfl
@[simp] theorem unitFaults_advance (s : State)  : (s.advance).unitFaults = s.unitFaults := rfl
@[simp] theorem testsDue_advance (s : State)  : (s.advance).testsDue = s.testsDue := rfl
@[simp] theorem badCells_advance (s : State)  : (s.advance).badCells = s.badCells := rfl
@[simp] theorem dump_advance (s : State)  : (s.advance).dump = s.dump := rfl
@[simp] theorem outbox_advance (s : State)  : (s.advance).outbox = s.outbox := rfl
@[simp] theorem stamp_advance (s : State)  : (s.advance).stamp = s.stamp := rfl
@[simp] theorem since_advance (s : State)  : (s.advance).since = s.since := rfl
@[simp] theorem turns_advance (s : State)  : (s.advance).turns = s.turns := rfl
@[simp] theorem focus_advance (s : State)  : (s.advance).focus = s.focus := rfl
@[simp] theorem agenda_advance (s : State)  : (s.advance).agenda = s.agenda := rfl

/-! ### State after its focus is set -/

@[simp] theorem tiles_focused (s : State) (t e : Nat) : (s.focused t e).tiles = s.tiles := rfl
@[simp] theorem ctxs_focused (s : State) (t e : Nat) : (s.focused t e).ctxs = s.ctxs := rfl
@[simp] theorem gens_focused (s : State) (t e : Nat) : (s.focused t e).gens = s.gens := rfl
@[simp] theorem fenceDrop_focused (s : State) (t e : Nat) : (s.focused t e).fenceDrop = s.fenceDrop := rfl
@[simp] theorem images_focused (s : State) (t e : Nat) : (s.focused t e).images = s.images := rfl
@[simp] theorem seals_focused (s : State) (t e : Nat) : (s.focused t e).seals = s.seals := rfl
@[simp] theorem devMem_focused (s : State) (t e : Nat) : (s.focused t e).devMem = s.devMem := rfl
@[simp] theorem devKey_focused (s : State) (t e : Nat) : (s.focused t e).devKey = s.devKey := rfl
@[simp] theorem devPoison_focused (s : State) (t e : Nat) : (s.focused t e).devPoison = s.devPoison := rfl
@[simp] theorem hostMem_focused (s : State) (t e : Nat) : (s.focused t e).hostMem = s.hostMem := rfl
@[simp] theorem atsCache_focused (s : State) (t e : Nat) : (s.focused t e).atsCache = s.atsCache := rfl
@[simp] theorem keySlots_focused (s : State) (t e : Nat) : (s.focused t e).keySlots = s.keySlots := rfl
@[simp] theorem nextKey_focused (s : State) (t e : Nat) : (s.focused t e).nextKey = s.nextKey := rfl
@[simp] theorem portCache_focused (s : State) (t e : Nat) : (s.focused t e).portCache = s.portCache := rfl
@[simp] theorem slices_focused (s : State) (t e : Nat) : (s.focused t e).slices = s.slices := rfl
@[simp] theorem transit_focused (s : State) (t e : Nat) : (s.focused t e).transit = s.transit := rfl
@[simp] theorem replies_focused (s : State) (t e : Nat) : (s.focused t e).replies = s.replies := rfl
@[simp] theorem prefetch_focused (s : State) (t e : Nat) : (s.focused t e).prefetch = s.prefetch := rfl
@[simp] theorem shares_focused (s : State) (t e : Nat) : (s.focused t e).shares = s.shares := rfl
@[simp] theorem served_focused (s : State) (t e : Nat) : (s.focused t e).served = s.served := rfl
@[simp] theorem functions_focused (s : State) (t e : Nat) : (s.focused t e).functions = s.functions := rfl
@[simp] theorem subQs_focused (s : State) (t e : Nat) : (s.focused t e).subQs = s.subQs := rfl
@[simp] theorem compQs_focused (s : State) (t e : Nat) : (s.focused t e).compQs = s.compQs := rfl
@[simp] theorem slots_focused (s : State) (t e : Nat) : (s.focused t e).slots = s.slots := rfl
@[simp] theorem pendingQs_focused (s : State) (t e : Nat) : (s.focused t e).pendingQs = s.pendingQs := rfl
@[simp] theorem doorbells_focused (s : State) (t e : Nat) : (s.focused t e).doorbells = s.doorbells := rfl
@[simp] theorem fetched_focused (s : State) (t e : Nat) : (s.focused t e).fetched = s.fetched := rfl
@[simp] theorem held_focused (s : State) (t e : Nat) : (s.focused t e).held = s.held := rfl
@[simp] theorem jets_focused (s : State) (t e : Nat) : (s.focused t e).jets = s.jets := rfl
@[simp] theorem grants_focused (s : State) (t e : Nat) : (s.focused t e).grants = s.grants := rfl
@[simp] theorem bridges_focused (s : State) (t e : Nat) : (s.focused t e).bridges = s.bridges := rfl
@[simp] theorem reports_focused (s : State) (t e : Nat) : (s.focused t e).reports = s.reports := rfl
@[simp] theorem swapTimeouts_focused (s : State) (t e : Nat) : (s.focused t e).swapTimeouts = s.swapTimeouts := rfl
@[simp] theorem pageFaults_focused (s : State) (t e : Nat) : (s.focused t e).pageFaults = s.pageFaults := rfl
@[simp] theorem hostRequests_focused (s : State) (t e : Nat) : (s.focused t e).hostRequests = s.hostRequests := rfl
@[simp] theorem nextRequest_focused (s : State) (t e : Nat) : (s.focused t e).nextRequest = s.nextRequest := rfl
@[simp] theorem posted_focused (s : State) (t e : Nat) : (s.focused t e).posted = s.posted := rfl
@[simp] theorem flits_focused (s : State) (t e : Nat) : (s.focused t e).flits = s.flits := rfl
@[simp] theorem rings_focused (s : State) (t e : Nat) : (s.focused t e).rings = s.rings := rfl
@[simp] theorem tokens_focused (s : State) (t e : Nat) : (s.focused t e).tokens = s.tokens := rfl
@[simp] theorem spillAsks_focused (s : State) (t e : Nat) : (s.focused t e).spillAsks = s.spillAsks := rfl
@[simp] theorem lulls_focused (s : State) (t e : Nat) : (s.focused t e).lulls = s.lulls := rfl
@[simp] theorem heldOpm_focused (s : State) (t e : Nat) : (s.focused t e).heldOpm = s.heldOpm := rfl
@[simp] theorem mode_focused (s : State) (t e : Nat) : (s.focused t e).mode = s.mode := rfl
@[simp] theorem linkUp_focused (s : State) (t e : Nat) : (s.focused t e).linkUp = s.linkUp := rfl
@[simp] theorem pwrCap_focused (s : State) (t e : Nat) : (s.focused t e).pwrCap = s.pwrCap := rfl
@[simp] theorem power_focused (s : State) (t e : Nat) : (s.focused t e).power = s.power := rfl
@[simp] theorem temp_focused (s : State) (t e : Nat) : (s.focused t e).temp = s.temp := rfl
@[simp] theorem throttled_focused (s : State) (t e : Nat) : (s.focused t e).throttled = s.throttled := rfl
@[simp] theorem capped_focused (s : State) (t e : Nat) : (s.focused t e).capped = s.capped := rfl
@[simp] theorem tripped_focused (s : State) (t e : Nat) : (s.focused t e).tripped = s.tripped := rfl
@[simp] theorem fwDigest_focused (s : State) (t e : Nat) : (s.focused t e).fwDigest = s.fwDigest := rfl
@[simp] theorem errHead_focused (s : State) (t e : Nat) : (s.focused t e).errHead = s.errHead := rfl
@[simp] theorem errLog_focused (s : State) (t e : Nat) : (s.focused t e).errLog = s.errLog := rfl
@[simp] theorem unitFaults_focused (s : State) (t e : Nat) : (s.focused t e).unitFaults = s.unitFaults := rfl
@[simp] theorem testsDue_focused (s : State) (t e : Nat) : (s.focused t e).testsDue = s.testsDue := rfl
@[simp] theorem awake_focused (s : State) (t e : Nat) : (s.focused t e).awake = s.awake := rfl
@[simp] theorem badCells_focused (s : State) (t e : Nat) : (s.focused t e).badCells = s.badCells := rfl
@[simp] theorem dump_focused (s : State) (t e : Nat) : (s.focused t e).dump = s.dump := rfl
@[simp] theorem outbox_focused (s : State) (t e : Nat) : (s.focused t e).outbox = s.outbox := rfl
@[simp] theorem stamp_focused (s : State) (t e : Nat) : (s.focused t e).stamp = s.stamp := rfl
@[simp] theorem cycle_focused (s : State) (t e : Nat) : (s.focused t e).cycle = s.cycle := rfl
@[simp] theorem tick_focused (s : State) (t e : Nat) : (s.focused t e).tick = s.tick := rfl
@[simp] theorem since_focused (s : State) (t e : Nat) : (s.focused t e).since = s.since := rfl
@[simp] theorem turns_focused (s : State) (t e : Nat) : (s.focused t e).turns = s.turns := rfl
@[simp] theorem agenda_focused (s : State) (t e : Nat) : (s.focused t e).agenda = s.agenda := rfl

/-! ### State after its agenda is set -/

@[simp] theorem tiles_withAgenda (s : State) (l : List Stimulus) : (s.withAgenda l).tiles = s.tiles := rfl
@[simp] theorem ctxs_withAgenda (s : State) (l : List Stimulus) : (s.withAgenda l).ctxs = s.ctxs := rfl
@[simp] theorem gens_withAgenda (s : State) (l : List Stimulus) : (s.withAgenda l).gens = s.gens := rfl
@[simp] theorem fenceDrop_withAgenda (s : State) (l : List Stimulus) : (s.withAgenda l).fenceDrop = s.fenceDrop := rfl
@[simp] theorem images_withAgenda (s : State) (l : List Stimulus) : (s.withAgenda l).images = s.images := rfl
@[simp] theorem seals_withAgenda (s : State) (l : List Stimulus) : (s.withAgenda l).seals = s.seals := rfl
@[simp] theorem devMem_withAgenda (s : State) (l : List Stimulus) : (s.withAgenda l).devMem = s.devMem := rfl
@[simp] theorem devKey_withAgenda (s : State) (l : List Stimulus) : (s.withAgenda l).devKey = s.devKey := rfl
@[simp] theorem devPoison_withAgenda (s : State) (l : List Stimulus) : (s.withAgenda l).devPoison = s.devPoison := rfl
@[simp] theorem hostMem_withAgenda (s : State) (l : List Stimulus) : (s.withAgenda l).hostMem = s.hostMem := rfl
@[simp] theorem atsCache_withAgenda (s : State) (l : List Stimulus) : (s.withAgenda l).atsCache = s.atsCache := rfl
@[simp] theorem keySlots_withAgenda (s : State) (l : List Stimulus) : (s.withAgenda l).keySlots = s.keySlots := rfl
@[simp] theorem nextKey_withAgenda (s : State) (l : List Stimulus) : (s.withAgenda l).nextKey = s.nextKey := rfl
@[simp] theorem portCache_withAgenda (s : State) (l : List Stimulus) : (s.withAgenda l).portCache = s.portCache := rfl
@[simp] theorem slices_withAgenda (s : State) (l : List Stimulus) : (s.withAgenda l).slices = s.slices := rfl
@[simp] theorem transit_withAgenda (s : State) (l : List Stimulus) : (s.withAgenda l).transit = s.transit := rfl
@[simp] theorem replies_withAgenda (s : State) (l : List Stimulus) : (s.withAgenda l).replies = s.replies := rfl
@[simp] theorem prefetch_withAgenda (s : State) (l : List Stimulus) : (s.withAgenda l).prefetch = s.prefetch := rfl
@[simp] theorem shares_withAgenda (s : State) (l : List Stimulus) : (s.withAgenda l).shares = s.shares := rfl
@[simp] theorem served_withAgenda (s : State) (l : List Stimulus) : (s.withAgenda l).served = s.served := rfl
@[simp] theorem functions_withAgenda (s : State) (l : List Stimulus) : (s.withAgenda l).functions = s.functions := rfl
@[simp] theorem subQs_withAgenda (s : State) (l : List Stimulus) : (s.withAgenda l).subQs = s.subQs := rfl
@[simp] theorem compQs_withAgenda (s : State) (l : List Stimulus) : (s.withAgenda l).compQs = s.compQs := rfl
@[simp] theorem slots_withAgenda (s : State) (l : List Stimulus) : (s.withAgenda l).slots = s.slots := rfl
@[simp] theorem pendingQs_withAgenda (s : State) (l : List Stimulus) : (s.withAgenda l).pendingQs = s.pendingQs := rfl
@[simp] theorem doorbells_withAgenda (s : State) (l : List Stimulus) : (s.withAgenda l).doorbells = s.doorbells := rfl
@[simp] theorem fetched_withAgenda (s : State) (l : List Stimulus) : (s.withAgenda l).fetched = s.fetched := rfl
@[simp] theorem held_withAgenda (s : State) (l : List Stimulus) : (s.withAgenda l).held = s.held := rfl
@[simp] theorem jets_withAgenda (s : State) (l : List Stimulus) : (s.withAgenda l).jets = s.jets := rfl
@[simp] theorem grants_withAgenda (s : State) (l : List Stimulus) : (s.withAgenda l).grants = s.grants := rfl
@[simp] theorem bridges_withAgenda (s : State) (l : List Stimulus) : (s.withAgenda l).bridges = s.bridges := rfl
@[simp] theorem reports_withAgenda (s : State) (l : List Stimulus) : (s.withAgenda l).reports = s.reports := rfl
@[simp] theorem swapTimeouts_withAgenda (s : State) (l : List Stimulus) : (s.withAgenda l).swapTimeouts = s.swapTimeouts := rfl
@[simp] theorem pageFaults_withAgenda (s : State) (l : List Stimulus) : (s.withAgenda l).pageFaults = s.pageFaults := rfl
@[simp] theorem hostRequests_withAgenda (s : State) (l : List Stimulus) : (s.withAgenda l).hostRequests = s.hostRequests := rfl
@[simp] theorem nextRequest_withAgenda (s : State) (l : List Stimulus) : (s.withAgenda l).nextRequest = s.nextRequest := rfl
@[simp] theorem posted_withAgenda (s : State) (l : List Stimulus) : (s.withAgenda l).posted = s.posted := rfl
@[simp] theorem flits_withAgenda (s : State) (l : List Stimulus) : (s.withAgenda l).flits = s.flits := rfl
@[simp] theorem rings_withAgenda (s : State) (l : List Stimulus) : (s.withAgenda l).rings = s.rings := rfl
@[simp] theorem tokens_withAgenda (s : State) (l : List Stimulus) : (s.withAgenda l).tokens = s.tokens := rfl
@[simp] theorem spillAsks_withAgenda (s : State) (l : List Stimulus) : (s.withAgenda l).spillAsks = s.spillAsks := rfl
@[simp] theorem lulls_withAgenda (s : State) (l : List Stimulus) : (s.withAgenda l).lulls = s.lulls := rfl
@[simp] theorem heldOpm_withAgenda (s : State) (l : List Stimulus) : (s.withAgenda l).heldOpm = s.heldOpm := rfl
@[simp] theorem mode_withAgenda (s : State) (l : List Stimulus) : (s.withAgenda l).mode = s.mode := rfl
@[simp] theorem linkUp_withAgenda (s : State) (l : List Stimulus) : (s.withAgenda l).linkUp = s.linkUp := rfl
@[simp] theorem pwrCap_withAgenda (s : State) (l : List Stimulus) : (s.withAgenda l).pwrCap = s.pwrCap := rfl
@[simp] theorem power_withAgenda (s : State) (l : List Stimulus) : (s.withAgenda l).power = s.power := rfl
@[simp] theorem temp_withAgenda (s : State) (l : List Stimulus) : (s.withAgenda l).temp = s.temp := rfl
@[simp] theorem throttled_withAgenda (s : State) (l : List Stimulus) : (s.withAgenda l).throttled = s.throttled := rfl
@[simp] theorem capped_withAgenda (s : State) (l : List Stimulus) : (s.withAgenda l).capped = s.capped := rfl
@[simp] theorem tripped_withAgenda (s : State) (l : List Stimulus) : (s.withAgenda l).tripped = s.tripped := rfl
@[simp] theorem fwDigest_withAgenda (s : State) (l : List Stimulus) : (s.withAgenda l).fwDigest = s.fwDigest := rfl
@[simp] theorem errHead_withAgenda (s : State) (l : List Stimulus) : (s.withAgenda l).errHead = s.errHead := rfl
@[simp] theorem errLog_withAgenda (s : State) (l : List Stimulus) : (s.withAgenda l).errLog = s.errLog := rfl
@[simp] theorem unitFaults_withAgenda (s : State) (l : List Stimulus) : (s.withAgenda l).unitFaults = s.unitFaults := rfl
@[simp] theorem testsDue_withAgenda (s : State) (l : List Stimulus) : (s.withAgenda l).testsDue = s.testsDue := rfl
@[simp] theorem awake_withAgenda (s : State) (l : List Stimulus) : (s.withAgenda l).awake = s.awake := rfl
@[simp] theorem badCells_withAgenda (s : State) (l : List Stimulus) : (s.withAgenda l).badCells = s.badCells := rfl
@[simp] theorem dump_withAgenda (s : State) (l : List Stimulus) : (s.withAgenda l).dump = s.dump := rfl
@[simp] theorem outbox_withAgenda (s : State) (l : List Stimulus) : (s.withAgenda l).outbox = s.outbox := rfl
@[simp] theorem stamp_withAgenda (s : State) (l : List Stimulus) : (s.withAgenda l).stamp = s.stamp := rfl
@[simp] theorem cycle_withAgenda (s : State) (l : List Stimulus) : (s.withAgenda l).cycle = s.cycle := rfl
@[simp] theorem tick_withAgenda (s : State) (l : List Stimulus) : (s.withAgenda l).tick = s.tick := rfl
@[simp] theorem since_withAgenda (s : State) (l : List Stimulus) : (s.withAgenda l).since = s.since := rfl
@[simp] theorem turns_withAgenda (s : State) (l : List Stimulus) : (s.withAgenda l).turns = s.turns := rfl
@[simp] theorem focus_withAgenda (s : State) (l : List Stimulus) : (s.withAgenda l).focus = s.focus := rfl

@[simp] theorem tile_focused (s : State) (t e : Nat) (u : Nat) : (s.focused t e).tile u = s.tile u := rfl
@[simp] theorem tile_withAgenda (s : State) (l : List Stimulus) (u : Nat) : (s.withAgenda l).tile u = s.tile u := rfl
@[simp] theorem here_focused (s : State) (t e : Nat) : (s.focused t e).here = t := rfl
@[simp] theorem here_withAgenda (s : State) (l : List Stimulus) : (s.withAgenda l).here = s.here := rfl
@[simp] theorem here_advance (s : State) : s.advance.here = s.here := rfl
@[simp] theorem tile_advance (s : State) (u : Nat) : s.advance.tile u = s.tile u := rfl
@[simp] theorem tile_onCtx (s : State) (n : Nat) (f : Context → Context) (u : Nat) : (s.onCtx n f).tile u = s.tile u := by
  simp [State.tile]

/-! ### A tile after its counter, its queue or a register is set -/

@[simp] theorem x_setCounter (tl : Tile) (e : Engine) (c : Counter) : (tl.setCounter e c).x = tl.x := by cases e <;> rfl
@[simp] theorem linkIn_setCounter (tl : Tile) (e : Engine) (c : Counter) : (tl.setCounter e c).linkIn = tl.linkIn := by cases e <;> rfl
@[simp] theorem linkOut_setCounter (tl : Tile) (e : Engine) (c : Counter) : (tl.setCounter e c).linkOut = tl.linkOut := by cases e <;> rfl
@[simp] theorem forward_setCounter (tl : Tile) (e : Engine) (c : Counter) : (tl.setCounter e c).forward = tl.forward := by cases e <;> rfl
@[simp] theorem phase_setCounter (tl : Tile) (e : Engine) (c : Counter) : (tl.setCounter e c).phase = tl.phase := by cases e <;> rfl
@[simp] theorem g_setCounter (tl : Tile) (e : Engine) (c : Counter) : (tl.setCounter e c).g = tl.g := by cases e <;> rfl
@[simp] theorem outcomes_setCounter (tl : Tile) (e : Engine) (c : Counter) : (tl.setCounter e c).outcomes = tl.outcomes := by cases e <;> rfl
@[simp] theorem freed_setCounter (tl : Tile) (e : Engine) (c : Counter) : (tl.setCounter e c).freed = tl.freed := by cases e <;> rfl
@[simp] theorem consL_setCounter (tl : Tile) (e : Engine) (c : Counter) : (tl.setCounter e c).consL = tl.consL := by cases e <;> rfl
@[simp] theorem consX_setCounter (tl : Tile) (e : Engine) (c : Counter) : (tl.setCounter e c).consX = tl.consX := by cases e <;> rfl
@[simp] theorem consS_setCounter (tl : Tile) (e : Engine) (c : Counter) : (tl.setCounter e c).consS = tl.consS := by cases e <;> rfl
@[simp] theorem qL_setCounter (tl : Tile) (e : Engine) (c : Counter) : (tl.setCounter e c).qL = tl.qL := by cases e <;> rfl
@[simp] theorem qX_setCounter (tl : Tile) (e : Engine) (c : Counter) : (tl.setCounter e c).qX = tl.qX := by cases e <;> rfl
@[simp] theorem qS_setCounter (tl : Tile) (e : Engine) (c : Counter) : (tl.setCounter e c).qS = tl.qS := by cases e <;> rfl
@[simp] theorem nextId_setCounter (tl : Tile) (e : Engine) (c : Counter) : (tl.setCounter e c).nextId = tl.nextId := by cases e <;> rfl
@[simp] theorem tokLX_setCounter (tl : Tile) (e : Engine) (c : Counter) : (tl.setCounter e c).tokLX = tl.tokLX := by cases e <;> rfl
@[simp] theorem tokXL_setCounter (tl : Tile) (e : Engine) (c : Counter) : (tl.setCounter e c).tokXL = tl.tokXL := by cases e <;> rfl
@[simp] theorem tokXS_setCounter (tl : Tile) (e : Engine) (c : Counter) : (tl.setCounter e c).tokXS = tl.tokXS := by cases e <;> rfl
@[simp] theorem tokSX_setCounter (tl : Tile) (e : Engine) (c : Counter) : (tl.setCounter e c).tokSX = tl.tokSX := by cases e <;> rfl
@[simp] theorem hasText_setCounter (tl : Tile) (e : Engine) (c : Counter) : (tl.setCounter e c).hasText = tl.hasText := by cases e <;> rfl
@[simp] theorem nwords_setCounter (tl : Tile) (e : Engine) (c : Counter) : (tl.setCounter e c).nwords = tl.nwords := by cases e <;> rfl
@[simp] theorem entry_setCounter (tl : Tile) (e : Engine) (c : Counter) : (tl.setCounter e c).entry = tl.entry := by cases e <;> rfl
@[simp] theorem istore_setCounter (tl : Tile) (e : Engine) (c : Counter) : (tl.setCounter e c).istore = tl.istore := by cases e <;> rfl
@[simp] theorem istoreBad_setCounter (tl : Tile) (e : Engine) (c : Counter) : (tl.setCounter e c).istoreBad = tl.istoreBad := by cases e <;> rfl
@[simp] theorem istoreWritten_setCounter (tl : Tile) (e : Engine) (c : Counter) : (tl.setCounter e c).istoreWritten = tl.istoreWritten := by cases e <;> rfl
@[simp] theorem inHandler_setCounter (tl : Tile) (e : Engine) (c : Counter) : (tl.setCounter e c).inHandler = tl.inHandler := by cases e <;> rfl
@[simp] theorem resumePc_setCounter (tl : Tile) (e : Engine) (c : Counter) : (tl.setCounter e c).resumePc = tl.resumePc := by cases e <;> rfl
@[simp] theorem pending_setCounter (tl : Tile) (e : Engine) (c : Counter) : (tl.setCounter e c).pending = tl.pending := by cases e <;> rfl
@[simp] theorem trapNoCmd_setCounter (tl : Tile) (e : Engine) (c : Counter) : (tl.setCounter e c).trapNoCmd = tl.trapNoCmd := by cases e <;> rfl
@[simp] theorem trapAtEnd_setCounter (tl : Tile) (e : Engine) (c : Counter) : (tl.setCounter e c).trapAtEnd = tl.trapAtEnd := by cases e <;> rfl
@[simp] theorem trapEntry_setCounter (tl : Tile) (e : Engine) (c : Counter) : (tl.setCounter e c).trapEntry = tl.trapEntry := by cases e <;> rfl
@[simp] theorem cwait_setCounter (tl : Tile) (e : Engine) (c : Counter) : (tl.setCounter e c).cwait = tl.cwait := by cases e <;> rfl
@[simp] theorem repOn_setCounter (tl : Tile) (e : Engine) (c : Counter) : (tl.setCounter e c).repOn = tl.repOn := by cases e <;> rfl
@[simp] theorem haltedAt_setCounter (tl : Tile) (e : Engine) (c : Counter) : (tl.setCounter e c).haltedAt = tl.haltedAt := by cases e <;> rfl
@[simp] theorem restored_setCounter (tl : Tile) (e : Engine) (c : Counter) : (tl.setCounter e c).restored = tl.restored := by cases e <;> rfl
@[simp] theorem drained_setCounter (tl : Tile) (e : Engine) (c : Counter) : (tl.setCounter e c).drained = tl.drained := by cases e <;> rfl
@[simp] theorem escalated_setCounter (tl : Tile) (e : Engine) (c : Counter) : (tl.setCounter e c).escalated = tl.escalated := by cases e <;> rfl
@[simp] theorem tileId_setCounter (tl : Tile) (e : Engine) (c : Counter) : (tl.setCounter e c).tileId = tl.tileId := by cases e <;> rfl
@[simp] theorem origin_setCounter (tl : Tile) (e : Engine) (c : Counter) : (tl.setCounter e c).origin = tl.origin := by cases e <;> rfl
@[simp] theorem drift_setCounter (tl : Tile) (e : Engine) (c : Counter) : (tl.setCounter e c).drift = tl.drift := by cases e <;> rfl
@[simp] theorem trapVec_setCounter (tl : Tile) (e : Engine) (c : Counter) : (tl.setCounter e c).trapVec = tl.trapVec := by cases e <;> rfl
@[simp] theorem trapCause_setCounter (tl : Tile) (e : Engine) (c : Counter) : (tl.setCounter e c).trapCause = tl.trapCause := by cases e <;> rfl
@[simp] theorem trapPc_setCounter (tl : Tile) (e : Engine) (c : Counter) : (tl.setCounter e c).trapPc = tl.trapPc := by cases e <;> rfl
@[simp] theorem repIdx_setCounter (tl : Tile) (e : Engine) (c : Counter) : (tl.setCounter e c).repIdx = tl.repIdx := by cases e <;> rfl
@[simp] theorem subBatch_setCounter (tl : Tile) (e : Engine) (c : Counter) : (tl.setCounter e c).subBatch = tl.subBatch := by cases e <;> rfl
@[simp] theorem groupMask_setCounter (tl : Tile) (e : Engine) (c : Counter) : (tl.setCounter e c).groupMask = tl.groupMask := by cases e <;> rfl
@[simp] theorem fflags_setCounter (tl : Tile) (e : Engine) (c : Counter) : (tl.setCounter e c).fflags = tl.fflags := by cases e <;> rfl
@[simp] theorem lstat_setCounter (tl : Tile) (e : Engine) (c : Counter) : (tl.setCounter e c).lstat = tl.lstat := by cases e <;> rfl
@[simp] theorem sstat_setCounter (tl : Tile) (e : Engine) (c : Counter) : (tl.setCounter e c).sstat = tl.sstat := by cases e <;> rfl
@[simp] theorem fired_setCounter (tl : Tile) (e : Engine) (c : Counter) : (tl.setCounter e c).fired = tl.fired := by cases e <;> rfl
@[simp] theorem phDrop_setCounter (tl : Tile) (e : Engine) (c : Counter) : (tl.setCounter e c).phDrop = tl.phDrop := by cases e <;> rfl
@[simp] theorem monFull_setCounter (tl : Tile) (e : Engine) (c : Counter) : (tl.setCounter e c).monFull = tl.monFull := by cases e <;> rfl
@[simp] theorem bkpt_setCounter (tl : Tile) (e : Engine) (c : Counter) : (tl.setCounter e c).bkpt = tl.bkpt := by cases e <;> rfl
@[simp] theorem watch_setCounter (tl : Tile) (e : Engine) (c : Counter) : (tl.setCounter e c).watch = tl.watch := by cases e <;> rfl
@[simp] theorem dbgCtl_setCounter (tl : Tile) (e : Engine) (c : Counter) : (tl.setCounter e c).dbgCtl = tl.dbgCtl := by cases e <;> rfl
@[simp] theorem scratch_setCounter (tl : Tile) (e : Engine) (c : Counter) : (tl.setCounter e c).scratch = tl.scratch := by cases e <;> rfl
@[simp] theorem poison_setCounter (tl : Tile) (e : Engine) (c : Counter) : (tl.setCounter e c).poison = tl.poison := by cases e <;> rfl
@[simp] theorem spares_setCounter (tl : Tile) (e : Engine) (c : Counter) : (tl.setCounter e c).spares = tl.spares := by cases e <;> rfl
@[simp] theorem zflags_setCounter (tl : Tile) (e : Engine) (c : Counter) : (tl.setCounter e c).zflags = tl.zflags := by cases e <;> rfl
@[simp] theorem xOld_setCounter (tl : Tile) (e : Engine) (c : Counter) : (tl.setCounter e c).xOld = tl.xOld := by cases e <;> rfl
@[simp] theorem badRegs_setCounter (tl : Tile) (e : Engine) (c : Counter) : (tl.setCounter e c).badRegs = tl.badRegs := by cases e <;> rfl
@[simp] theorem acc_setCounter (tl : Tile) (e : Engine) (c : Counter) : (tl.setCounter e c).acc = tl.acc := by cases e <;> rfl
@[simp] theorem latch_setCounter (tl : Tile) (e : Engine) (c : Counter) : (tl.setCounter e c).latch = tl.latch := by cases e <;> rfl
@[simp] theorem lw0_setCounter (tl : Tile) (e : Engine) (c : Counter) : (tl.setCounter e c).lw0 = tl.lw0 := by cases e <;> rfl
@[simp] theorem lw1_setCounter (tl : Tile) (e : Engine) (c : Counter) : (tl.setCounter e c).lw1 = tl.lw1 := by cases e <;> rfl
@[simp] theorem actW_setCounter (tl : Tile) (e : Engine) (c : Counter) : (tl.setCounter e c).actW = tl.actW := by cases e <;> rfl
@[simp] theorem wpend_setCounter (tl : Tile) (e : Engine) (c : Counter) : (tl.setCounter e c).wpend = tl.wpend := by cases e <;> rfl
@[simp] theorem lanes_setCounter (tl : Tile) (e : Engine) (c : Counter) : (tl.setCounter e c).lanes = tl.lanes := by cases e <;> rfl
@[simp] theorem rowOps_setCounter (tl : Tile) (e : Engine) (c : Counter) : (tl.setCounter e c).rowOps = tl.rowOps := by cases e <;> rfl
@[simp] theorem rowCfg_setCounter (tl : Tile) (e : Engine) (c : Counter) : (tl.setCounter e c).rowCfg = tl.rowCfg := by cases e <;> rfl
@[simp] theorem rowSw_setCounter (tl : Tile) (e : Engine) (c : Counter) : (tl.setCounter e c).rowSw = tl.rowSw := by cases e <;> rfl
@[simp] theorem gen_setCounter (tl : Tile) (e : Engine) (c : Counter) : (tl.setCounter e c).gen = tl.gen := by cases e <;> rfl
@[simp] theorem arrivals_setCounter (tl : Tile) (e : Engine) (c : Counter) : (tl.setCounter e c).arrivals = tl.arrivals := by cases e <;> rfl
@[simp] theorem mon_setCounter (tl : Tile) (e : Engine) (c : Counter) : (tl.setCounter e c).mon = tl.mon := by cases e <;> rfl
@[simp] theorem ring_setCounter (tl : Tile) (e : Engine) (c : Counter) : (tl.setCounter e c).ring = tl.ring := by cases e <;> rfl
@[simp] theorem slotWaits_setCounter (tl : Tile) (e : Engine) (c : Counter) : (tl.setCounter e c).slotWaits = tl.slotWaits := by cases e <;> rfl
@[simp] theorem pushL_setCounter (tl : Tile) (e : Engine) (c : Counter) : (tl.setCounter e c).pushL = tl.pushL := by cases e <;> rfl
@[simp] theorem pushX_setCounter (tl : Tile) (e : Engine) (c : Counter) : (tl.setCounter e c).pushX = tl.pushX := by cases e <;> rfl
@[simp] theorem pushS_setCounter (tl : Tile) (e : Engine) (c : Counter) : (tl.setCounter e c).pushS = tl.pushS := by cases e <;> rfl
@[simp] theorem sStamp_setCounter (tl : Tile) (e : Engine) (c : Counter) : (tl.setCounter e c).sStamp = tl.sStamp := by cases e <;> rfl
@[simp] theorem notes_setCounter (tl : Tile) (e : Engine) (c : Counter) : (tl.setCounter e c).notes = tl.notes := by cases e <;> rfl
@[simp] theorem relSince_setCounter (tl : Tile) (e : Engine) (c : Counter) : (tl.setCounter e c).relSince = tl.relSince := by cases e <;> rfl
@[simp] theorem pubs_setCounter (tl : Tile) (e : Engine) (c : Counter) : (tl.setCounter e c).pubs = tl.pubs := by cases e <;> rfl
@[simp] theorem subs_setCounter (tl : Tile) (e : Engine) (c : Counter) : (tl.setCounter e c).subs = tl.subs := by cases e <;> rfl
@[simp] theorem batches_setCounter (tl : Tile) (e : Engine) (c : Counter) : (tl.setCounter e c).batches = tl.batches := by cases e <;> rfl
@[simp] theorem inPorts_setCounter (tl : Tile) (e : Engine) (c : Counter) : (tl.setCounter e c).inPorts = tl.inPorts := by cases e <;> rfl
@[simp] theorem outPorts_setCounter (tl : Tile) (e : Engine) (c : Counter) : (tl.setCounter e c).outPorts = tl.outPorts := by cases e <;> rfl
@[simp] theorem cfgErr_setCounter (tl : Tile) (e : Engine) (c : Counter) : (tl.setCounter e c).cfgErr = tl.cfgErr := by cases e <;> rfl
@[simp] theorem routes_setCounter (tl : Tile) (e : Engine) (c : Counter) : (tl.setCounter e c).routes = tl.routes := by cases e <;> rfl
@[simp] theorem owner_setCounter (tl : Tile) (e : Engine) (c : Counter) : (tl.setCounter e c).owner = tl.owner := by cases e <;> rfl
@[simp] theorem clearing_setCounter (tl : Tile) (e : Engine) (c : Counter) : (tl.setCounter e c).clearing = tl.clearing := by cases e <;> rfl
@[simp] theorem excluded_setCounter (tl : Tile) (e : Engine) (c : Counter) : (tl.setCounter e c).excluded = tl.excluded := by cases e <;> rfl
@[simp] theorem lull_setCounter (tl : Tile) (e : Engine) (c : Counter) : (tl.setCounter e c).lull = tl.lull := by cases e <;> rfl
@[simp] theorem x_setQueue (tl : Tile) (e : Engine) (q : List QEntry) : (tl.setQueue e q).x = tl.x := by cases e <;> rfl
@[simp] theorem linkIn_setQueue (tl : Tile) (e : Engine) (q : List QEntry) : (tl.setQueue e q).linkIn = tl.linkIn := by cases e <;> rfl
@[simp] theorem linkOut_setQueue (tl : Tile) (e : Engine) (q : List QEntry) : (tl.setQueue e q).linkOut = tl.linkOut := by cases e <;> rfl
@[simp] theorem forward_setQueue (tl : Tile) (e : Engine) (q : List QEntry) : (tl.setQueue e q).forward = tl.forward := by cases e <;> rfl
@[simp] theorem phase_setQueue (tl : Tile) (e : Engine) (q : List QEntry) : (tl.setQueue e q).phase = tl.phase := by cases e <;> rfl
@[simp] theorem g_setQueue (tl : Tile) (e : Engine) (q : List QEntry) : (tl.setQueue e q).g = tl.g := by cases e <;> rfl
@[simp] theorem cntC_setQueue (tl : Tile) (e : Engine) (q : List QEntry) : (tl.setQueue e q).cntC = tl.cntC := by cases e <;> rfl
@[simp] theorem cntL_setQueue (tl : Tile) (e : Engine) (q : List QEntry) : (tl.setQueue e q).cntL = tl.cntL := by cases e <;> rfl
@[simp] theorem cntX_setQueue (tl : Tile) (e : Engine) (q : List QEntry) : (tl.setQueue e q).cntX = tl.cntX := by cases e <;> rfl
@[simp] theorem cntS_setQueue (tl : Tile) (e : Engine) (q : List QEntry) : (tl.setQueue e q).cntS = tl.cntS := by cases e <;> rfl
@[simp] theorem outcomes_setQueue (tl : Tile) (e : Engine) (q : List QEntry) : (tl.setQueue e q).outcomes = tl.outcomes := by cases e <;> rfl
@[simp] theorem freed_setQueue (tl : Tile) (e : Engine) (q : List QEntry) : (tl.setQueue e q).freed = tl.freed := by cases e <;> rfl
@[simp] theorem consL_setQueue (tl : Tile) (e : Engine) (q : List QEntry) : (tl.setQueue e q).consL = tl.consL := by cases e <;> rfl
@[simp] theorem consX_setQueue (tl : Tile) (e : Engine) (q : List QEntry) : (tl.setQueue e q).consX = tl.consX := by cases e <;> rfl
@[simp] theorem consS_setQueue (tl : Tile) (e : Engine) (q : List QEntry) : (tl.setQueue e q).consS = tl.consS := by cases e <;> rfl
@[simp] theorem nextId_setQueue (tl : Tile) (e : Engine) (q : List QEntry) : (tl.setQueue e q).nextId = tl.nextId := by cases e <;> rfl
@[simp] theorem tokLX_setQueue (tl : Tile) (e : Engine) (q : List QEntry) : (tl.setQueue e q).tokLX = tl.tokLX := by cases e <;> rfl
@[simp] theorem tokXL_setQueue (tl : Tile) (e : Engine) (q : List QEntry) : (tl.setQueue e q).tokXL = tl.tokXL := by cases e <;> rfl
@[simp] theorem tokXS_setQueue (tl : Tile) (e : Engine) (q : List QEntry) : (tl.setQueue e q).tokXS = tl.tokXS := by cases e <;> rfl
@[simp] theorem tokSX_setQueue (tl : Tile) (e : Engine) (q : List QEntry) : (tl.setQueue e q).tokSX = tl.tokSX := by cases e <;> rfl
@[simp] theorem hasText_setQueue (tl : Tile) (e : Engine) (q : List QEntry) : (tl.setQueue e q).hasText = tl.hasText := by cases e <;> rfl
@[simp] theorem nwords_setQueue (tl : Tile) (e : Engine) (q : List QEntry) : (tl.setQueue e q).nwords = tl.nwords := by cases e <;> rfl
@[simp] theorem entry_setQueue (tl : Tile) (e : Engine) (q : List QEntry) : (tl.setQueue e q).entry = tl.entry := by cases e <;> rfl
@[simp] theorem istore_setQueue (tl : Tile) (e : Engine) (q : List QEntry) : (tl.setQueue e q).istore = tl.istore := by cases e <;> rfl
@[simp] theorem istoreBad_setQueue (tl : Tile) (e : Engine) (q : List QEntry) : (tl.setQueue e q).istoreBad = tl.istoreBad := by cases e <;> rfl
@[simp] theorem istoreWritten_setQueue (tl : Tile) (e : Engine) (q : List QEntry) : (tl.setQueue e q).istoreWritten = tl.istoreWritten := by cases e <;> rfl
@[simp] theorem inHandler_setQueue (tl : Tile) (e : Engine) (q : List QEntry) : (tl.setQueue e q).inHandler = tl.inHandler := by cases e <;> rfl
@[simp] theorem resumePc_setQueue (tl : Tile) (e : Engine) (q : List QEntry) : (tl.setQueue e q).resumePc = tl.resumePc := by cases e <;> rfl
@[simp] theorem pending_setQueue (tl : Tile) (e : Engine) (q : List QEntry) : (tl.setQueue e q).pending = tl.pending := by cases e <;> rfl
@[simp] theorem trapNoCmd_setQueue (tl : Tile) (e : Engine) (q : List QEntry) : (tl.setQueue e q).trapNoCmd = tl.trapNoCmd := by cases e <;> rfl
@[simp] theorem trapAtEnd_setQueue (tl : Tile) (e : Engine) (q : List QEntry) : (tl.setQueue e q).trapAtEnd = tl.trapAtEnd := by cases e <;> rfl
@[simp] theorem trapEntry_setQueue (tl : Tile) (e : Engine) (q : List QEntry) : (tl.setQueue e q).trapEntry = tl.trapEntry := by cases e <;> rfl
@[simp] theorem cwait_setQueue (tl : Tile) (e : Engine) (q : List QEntry) : (tl.setQueue e q).cwait = tl.cwait := by cases e <;> rfl
@[simp] theorem repOn_setQueue (tl : Tile) (e : Engine) (q : List QEntry) : (tl.setQueue e q).repOn = tl.repOn := by cases e <;> rfl
@[simp] theorem haltedAt_setQueue (tl : Tile) (e : Engine) (q : List QEntry) : (tl.setQueue e q).haltedAt = tl.haltedAt := by cases e <;> rfl
@[simp] theorem restored_setQueue (tl : Tile) (e : Engine) (q : List QEntry) : (tl.setQueue e q).restored = tl.restored := by cases e <;> rfl
@[simp] theorem drained_setQueue (tl : Tile) (e : Engine) (q : List QEntry) : (tl.setQueue e q).drained = tl.drained := by cases e <;> rfl
@[simp] theorem escalated_setQueue (tl : Tile) (e : Engine) (q : List QEntry) : (tl.setQueue e q).escalated = tl.escalated := by cases e <;> rfl
@[simp] theorem tileId_setQueue (tl : Tile) (e : Engine) (q : List QEntry) : (tl.setQueue e q).tileId = tl.tileId := by cases e <;> rfl
@[simp] theorem origin_setQueue (tl : Tile) (e : Engine) (q : List QEntry) : (tl.setQueue e q).origin = tl.origin := by cases e <;> rfl
@[simp] theorem drift_setQueue (tl : Tile) (e : Engine) (q : List QEntry) : (tl.setQueue e q).drift = tl.drift := by cases e <;> rfl
@[simp] theorem trapVec_setQueue (tl : Tile) (e : Engine) (q : List QEntry) : (tl.setQueue e q).trapVec = tl.trapVec := by cases e <;> rfl
@[simp] theorem trapCause_setQueue (tl : Tile) (e : Engine) (q : List QEntry) : (tl.setQueue e q).trapCause = tl.trapCause := by cases e <;> rfl
@[simp] theorem trapPc_setQueue (tl : Tile) (e : Engine) (q : List QEntry) : (tl.setQueue e q).trapPc = tl.trapPc := by cases e <;> rfl
@[simp] theorem repIdx_setQueue (tl : Tile) (e : Engine) (q : List QEntry) : (tl.setQueue e q).repIdx = tl.repIdx := by cases e <;> rfl
@[simp] theorem subBatch_setQueue (tl : Tile) (e : Engine) (q : List QEntry) : (tl.setQueue e q).subBatch = tl.subBatch := by cases e <;> rfl
@[simp] theorem groupMask_setQueue (tl : Tile) (e : Engine) (q : List QEntry) : (tl.setQueue e q).groupMask = tl.groupMask := by cases e <;> rfl
@[simp] theorem fflags_setQueue (tl : Tile) (e : Engine) (q : List QEntry) : (tl.setQueue e q).fflags = tl.fflags := by cases e <;> rfl
@[simp] theorem lstat_setQueue (tl : Tile) (e : Engine) (q : List QEntry) : (tl.setQueue e q).lstat = tl.lstat := by cases e <;> rfl
@[simp] theorem sstat_setQueue (tl : Tile) (e : Engine) (q : List QEntry) : (tl.setQueue e q).sstat = tl.sstat := by cases e <;> rfl
@[simp] theorem fired_setQueue (tl : Tile) (e : Engine) (q : List QEntry) : (tl.setQueue e q).fired = tl.fired := by cases e <;> rfl
@[simp] theorem phDrop_setQueue (tl : Tile) (e : Engine) (q : List QEntry) : (tl.setQueue e q).phDrop = tl.phDrop := by cases e <;> rfl
@[simp] theorem monFull_setQueue (tl : Tile) (e : Engine) (q : List QEntry) : (tl.setQueue e q).monFull = tl.monFull := by cases e <;> rfl
@[simp] theorem bkpt_setQueue (tl : Tile) (e : Engine) (q : List QEntry) : (tl.setQueue e q).bkpt = tl.bkpt := by cases e <;> rfl
@[simp] theorem watch_setQueue (tl : Tile) (e : Engine) (q : List QEntry) : (tl.setQueue e q).watch = tl.watch := by cases e <;> rfl
@[simp] theorem dbgCtl_setQueue (tl : Tile) (e : Engine) (q : List QEntry) : (tl.setQueue e q).dbgCtl = tl.dbgCtl := by cases e <;> rfl
@[simp] theorem scratch_setQueue (tl : Tile) (e : Engine) (q : List QEntry) : (tl.setQueue e q).scratch = tl.scratch := by cases e <;> rfl
@[simp] theorem poison_setQueue (tl : Tile) (e : Engine) (q : List QEntry) : (tl.setQueue e q).poison = tl.poison := by cases e <;> rfl
@[simp] theorem spares_setQueue (tl : Tile) (e : Engine) (q : List QEntry) : (tl.setQueue e q).spares = tl.spares := by cases e <;> rfl
@[simp] theorem zflags_setQueue (tl : Tile) (e : Engine) (q : List QEntry) : (tl.setQueue e q).zflags = tl.zflags := by cases e <;> rfl
@[simp] theorem xOld_setQueue (tl : Tile) (e : Engine) (q : List QEntry) : (tl.setQueue e q).xOld = tl.xOld := by cases e <;> rfl
@[simp] theorem badRegs_setQueue (tl : Tile) (e : Engine) (q : List QEntry) : (tl.setQueue e q).badRegs = tl.badRegs := by cases e <;> rfl
@[simp] theorem acc_setQueue (tl : Tile) (e : Engine) (q : List QEntry) : (tl.setQueue e q).acc = tl.acc := by cases e <;> rfl
@[simp] theorem latch_setQueue (tl : Tile) (e : Engine) (q : List QEntry) : (tl.setQueue e q).latch = tl.latch := by cases e <;> rfl
@[simp] theorem lw0_setQueue (tl : Tile) (e : Engine) (q : List QEntry) : (tl.setQueue e q).lw0 = tl.lw0 := by cases e <;> rfl
@[simp] theorem lw1_setQueue (tl : Tile) (e : Engine) (q : List QEntry) : (tl.setQueue e q).lw1 = tl.lw1 := by cases e <;> rfl
@[simp] theorem actW_setQueue (tl : Tile) (e : Engine) (q : List QEntry) : (tl.setQueue e q).actW = tl.actW := by cases e <;> rfl
@[simp] theorem wpend_setQueue (tl : Tile) (e : Engine) (q : List QEntry) : (tl.setQueue e q).wpend = tl.wpend := by cases e <;> rfl
@[simp] theorem lanes_setQueue (tl : Tile) (e : Engine) (q : List QEntry) : (tl.setQueue e q).lanes = tl.lanes := by cases e <;> rfl
@[simp] theorem rowOps_setQueue (tl : Tile) (e : Engine) (q : List QEntry) : (tl.setQueue e q).rowOps = tl.rowOps := by cases e <;> rfl
@[simp] theorem rowCfg_setQueue (tl : Tile) (e : Engine) (q : List QEntry) : (tl.setQueue e q).rowCfg = tl.rowCfg := by cases e <;> rfl
@[simp] theorem rowSw_setQueue (tl : Tile) (e : Engine) (q : List QEntry) : (tl.setQueue e q).rowSw = tl.rowSw := by cases e <;> rfl
@[simp] theorem gen_setQueue (tl : Tile) (e : Engine) (q : List QEntry) : (tl.setQueue e q).gen = tl.gen := by cases e <;> rfl
@[simp] theorem arrivals_setQueue (tl : Tile) (e : Engine) (q : List QEntry) : (tl.setQueue e q).arrivals = tl.arrivals := by cases e <;> rfl
@[simp] theorem mon_setQueue (tl : Tile) (e : Engine) (q : List QEntry) : (tl.setQueue e q).mon = tl.mon := by cases e <;> rfl
@[simp] theorem ring_setQueue (tl : Tile) (e : Engine) (q : List QEntry) : (tl.setQueue e q).ring = tl.ring := by cases e <;> rfl
@[simp] theorem slotWaits_setQueue (tl : Tile) (e : Engine) (q : List QEntry) : (tl.setQueue e q).slotWaits = tl.slotWaits := by cases e <;> rfl
@[simp] theorem pushL_setQueue (tl : Tile) (e : Engine) (q : List QEntry) : (tl.setQueue e q).pushL = tl.pushL := by cases e <;> rfl
@[simp] theorem pushX_setQueue (tl : Tile) (e : Engine) (q : List QEntry) : (tl.setQueue e q).pushX = tl.pushX := by cases e <;> rfl
@[simp] theorem pushS_setQueue (tl : Tile) (e : Engine) (q : List QEntry) : (tl.setQueue e q).pushS = tl.pushS := by cases e <;> rfl
@[simp] theorem sStamp_setQueue (tl : Tile) (e : Engine) (q : List QEntry) : (tl.setQueue e q).sStamp = tl.sStamp := by cases e <;> rfl
@[simp] theorem notes_setQueue (tl : Tile) (e : Engine) (q : List QEntry) : (tl.setQueue e q).notes = tl.notes := by cases e <;> rfl
@[simp] theorem relSince_setQueue (tl : Tile) (e : Engine) (q : List QEntry) : (tl.setQueue e q).relSince = tl.relSince := by cases e <;> rfl
@[simp] theorem pubs_setQueue (tl : Tile) (e : Engine) (q : List QEntry) : (tl.setQueue e q).pubs = tl.pubs := by cases e <;> rfl
@[simp] theorem subs_setQueue (tl : Tile) (e : Engine) (q : List QEntry) : (tl.setQueue e q).subs = tl.subs := by cases e <;> rfl
@[simp] theorem batches_setQueue (tl : Tile) (e : Engine) (q : List QEntry) : (tl.setQueue e q).batches = tl.batches := by cases e <;> rfl
@[simp] theorem inPorts_setQueue (tl : Tile) (e : Engine) (q : List QEntry) : (tl.setQueue e q).inPorts = tl.inPorts := by cases e <;> rfl
@[simp] theorem outPorts_setQueue (tl : Tile) (e : Engine) (q : List QEntry) : (tl.setQueue e q).outPorts = tl.outPorts := by cases e <;> rfl
@[simp] theorem cfgErr_setQueue (tl : Tile) (e : Engine) (q : List QEntry) : (tl.setQueue e q).cfgErr = tl.cfgErr := by cases e <;> rfl
@[simp] theorem routes_setQueue (tl : Tile) (e : Engine) (q : List QEntry) : (tl.setQueue e q).routes = tl.routes := by cases e <;> rfl
@[simp] theorem owner_setQueue (tl : Tile) (e : Engine) (q : List QEntry) : (tl.setQueue e q).owner = tl.owner := by cases e <;> rfl
@[simp] theorem clearing_setQueue (tl : Tile) (e : Engine) (q : List QEntry) : (tl.setQueue e q).clearing = tl.clearing := by cases e <;> rfl
@[simp] theorem excluded_setQueue (tl : Tile) (e : Engine) (q : List QEntry) : (tl.setQueue e q).excluded = tl.excluded := by cases e <;> rfl
@[simp] theorem lull_setQueue (tl : Tile) (e : Engine) (q : List QEntry) : (tl.setQueue e q).lull = tl.lull := by cases e <;> rfl
@[simp] theorem x_clearBad (tl : Tile) (off n : Nat) : (tl.clearBad off n).x = tl.x := by unfold Tile.clearBad; split <;> rfl
@[simp] theorem linkIn_clearBad (tl : Tile) (off n : Nat) : (tl.clearBad off n).linkIn = tl.linkIn := by unfold Tile.clearBad; split <;> rfl
@[simp] theorem linkOut_clearBad (tl : Tile) (off n : Nat) : (tl.clearBad off n).linkOut = tl.linkOut := by unfold Tile.clearBad; split <;> rfl
@[simp] theorem forward_clearBad (tl : Tile) (off n : Nat) : (tl.clearBad off n).forward = tl.forward := by unfold Tile.clearBad; split <;> rfl
@[simp] theorem phase_clearBad (tl : Tile) (off n : Nat) : (tl.clearBad off n).phase = tl.phase := by unfold Tile.clearBad; split <;> rfl
@[simp] theorem g_clearBad (tl : Tile) (off n : Nat) : (tl.clearBad off n).g = tl.g := by unfold Tile.clearBad; split <;> rfl
@[simp] theorem cntC_clearBad (tl : Tile) (off n : Nat) : (tl.clearBad off n).cntC = tl.cntC := by unfold Tile.clearBad; split <;> rfl
@[simp] theorem cntL_clearBad (tl : Tile) (off n : Nat) : (tl.clearBad off n).cntL = tl.cntL := by unfold Tile.clearBad; split <;> rfl
@[simp] theorem cntX_clearBad (tl : Tile) (off n : Nat) : (tl.clearBad off n).cntX = tl.cntX := by unfold Tile.clearBad; split <;> rfl
@[simp] theorem cntS_clearBad (tl : Tile) (off n : Nat) : (tl.clearBad off n).cntS = tl.cntS := by unfold Tile.clearBad; split <;> rfl
@[simp] theorem outcomes_clearBad (tl : Tile) (off n : Nat) : (tl.clearBad off n).outcomes = tl.outcomes := by unfold Tile.clearBad; split <;> rfl
@[simp] theorem freed_clearBad (tl : Tile) (off n : Nat) : (tl.clearBad off n).freed = tl.freed := by unfold Tile.clearBad; split <;> rfl
@[simp] theorem consL_clearBad (tl : Tile) (off n : Nat) : (tl.clearBad off n).consL = tl.consL := by unfold Tile.clearBad; split <;> rfl
@[simp] theorem consX_clearBad (tl : Tile) (off n : Nat) : (tl.clearBad off n).consX = tl.consX := by unfold Tile.clearBad; split <;> rfl
@[simp] theorem consS_clearBad (tl : Tile) (off n : Nat) : (tl.clearBad off n).consS = tl.consS := by unfold Tile.clearBad; split <;> rfl
@[simp] theorem qL_clearBad (tl : Tile) (off n : Nat) : (tl.clearBad off n).qL = tl.qL := by unfold Tile.clearBad; split <;> rfl
@[simp] theorem qX_clearBad (tl : Tile) (off n : Nat) : (tl.clearBad off n).qX = tl.qX := by unfold Tile.clearBad; split <;> rfl
@[simp] theorem qS_clearBad (tl : Tile) (off n : Nat) : (tl.clearBad off n).qS = tl.qS := by unfold Tile.clearBad; split <;> rfl
@[simp] theorem nextId_clearBad (tl : Tile) (off n : Nat) : (tl.clearBad off n).nextId = tl.nextId := by unfold Tile.clearBad; split <;> rfl
@[simp] theorem tokLX_clearBad (tl : Tile) (off n : Nat) : (tl.clearBad off n).tokLX = tl.tokLX := by unfold Tile.clearBad; split <;> rfl
@[simp] theorem tokXL_clearBad (tl : Tile) (off n : Nat) : (tl.clearBad off n).tokXL = tl.tokXL := by unfold Tile.clearBad; split <;> rfl
@[simp] theorem tokXS_clearBad (tl : Tile) (off n : Nat) : (tl.clearBad off n).tokXS = tl.tokXS := by unfold Tile.clearBad; split <;> rfl
@[simp] theorem tokSX_clearBad (tl : Tile) (off n : Nat) : (tl.clearBad off n).tokSX = tl.tokSX := by unfold Tile.clearBad; split <;> rfl
@[simp] theorem hasText_clearBad (tl : Tile) (off n : Nat) : (tl.clearBad off n).hasText = tl.hasText := by unfold Tile.clearBad; split <;> rfl
@[simp] theorem nwords_clearBad (tl : Tile) (off n : Nat) : (tl.clearBad off n).nwords = tl.nwords := by unfold Tile.clearBad; split <;> rfl
@[simp] theorem entry_clearBad (tl : Tile) (off n : Nat) : (tl.clearBad off n).entry = tl.entry := by unfold Tile.clearBad; split <;> rfl
@[simp] theorem istore_clearBad (tl : Tile) (off n : Nat) : (tl.clearBad off n).istore = tl.istore := by unfold Tile.clearBad; split <;> rfl
@[simp] theorem istoreBad_clearBad (tl : Tile) (off n : Nat) : (tl.clearBad off n).istoreBad = tl.istoreBad := by unfold Tile.clearBad; split <;> rfl
@[simp] theorem istoreWritten_clearBad (tl : Tile) (off n : Nat) : (tl.clearBad off n).istoreWritten = tl.istoreWritten := by unfold Tile.clearBad; split <;> rfl
@[simp] theorem inHandler_clearBad (tl : Tile) (off n : Nat) : (tl.clearBad off n).inHandler = tl.inHandler := by unfold Tile.clearBad; split <;> rfl
@[simp] theorem resumePc_clearBad (tl : Tile) (off n : Nat) : (tl.clearBad off n).resumePc = tl.resumePc := by unfold Tile.clearBad; split <;> rfl
@[simp] theorem pending_clearBad (tl : Tile) (off n : Nat) : (tl.clearBad off n).pending = tl.pending := by unfold Tile.clearBad; split <;> rfl
@[simp] theorem trapNoCmd_clearBad (tl : Tile) (off n : Nat) : (tl.clearBad off n).trapNoCmd = tl.trapNoCmd := by unfold Tile.clearBad; split <;> rfl
@[simp] theorem trapAtEnd_clearBad (tl : Tile) (off n : Nat) : (tl.clearBad off n).trapAtEnd = tl.trapAtEnd := by unfold Tile.clearBad; split <;> rfl
@[simp] theorem trapEntry_clearBad (tl : Tile) (off n : Nat) : (tl.clearBad off n).trapEntry = tl.trapEntry := by unfold Tile.clearBad; split <;> rfl
@[simp] theorem cwait_clearBad (tl : Tile) (off n : Nat) : (tl.clearBad off n).cwait = tl.cwait := by unfold Tile.clearBad; split <;> rfl
@[simp] theorem repOn_clearBad (tl : Tile) (off n : Nat) : (tl.clearBad off n).repOn = tl.repOn := by unfold Tile.clearBad; split <;> rfl
@[simp] theorem haltedAt_clearBad (tl : Tile) (off n : Nat) : (tl.clearBad off n).haltedAt = tl.haltedAt := by unfold Tile.clearBad; split <;> rfl
@[simp] theorem restored_clearBad (tl : Tile) (off n : Nat) : (tl.clearBad off n).restored = tl.restored := by unfold Tile.clearBad; split <;> rfl
@[simp] theorem drained_clearBad (tl : Tile) (off n : Nat) : (tl.clearBad off n).drained = tl.drained := by unfold Tile.clearBad; split <;> rfl
@[simp] theorem escalated_clearBad (tl : Tile) (off n : Nat) : (tl.clearBad off n).escalated = tl.escalated := by unfold Tile.clearBad; split <;> rfl
@[simp] theorem tileId_clearBad (tl : Tile) (off n : Nat) : (tl.clearBad off n).tileId = tl.tileId := by unfold Tile.clearBad; split <;> rfl
@[simp] theorem origin_clearBad (tl : Tile) (off n : Nat) : (tl.clearBad off n).origin = tl.origin := by unfold Tile.clearBad; split <;> rfl
@[simp] theorem drift_clearBad (tl : Tile) (off n : Nat) : (tl.clearBad off n).drift = tl.drift := by unfold Tile.clearBad; split <;> rfl
@[simp] theorem trapVec_clearBad (tl : Tile) (off n : Nat) : (tl.clearBad off n).trapVec = tl.trapVec := by unfold Tile.clearBad; split <;> rfl
@[simp] theorem trapCause_clearBad (tl : Tile) (off n : Nat) : (tl.clearBad off n).trapCause = tl.trapCause := by unfold Tile.clearBad; split <;> rfl
@[simp] theorem trapPc_clearBad (tl : Tile) (off n : Nat) : (tl.clearBad off n).trapPc = tl.trapPc := by unfold Tile.clearBad; split <;> rfl
@[simp] theorem repIdx_clearBad (tl : Tile) (off n : Nat) : (tl.clearBad off n).repIdx = tl.repIdx := by unfold Tile.clearBad; split <;> rfl
@[simp] theorem subBatch_clearBad (tl : Tile) (off n : Nat) : (tl.clearBad off n).subBatch = tl.subBatch := by unfold Tile.clearBad; split <;> rfl
@[simp] theorem groupMask_clearBad (tl : Tile) (off n : Nat) : (tl.clearBad off n).groupMask = tl.groupMask := by unfold Tile.clearBad; split <;> rfl
@[simp] theorem fflags_clearBad (tl : Tile) (off n : Nat) : (tl.clearBad off n).fflags = tl.fflags := by unfold Tile.clearBad; split <;> rfl
@[simp] theorem lstat_clearBad (tl : Tile) (off n : Nat) : (tl.clearBad off n).lstat = tl.lstat := by unfold Tile.clearBad; split <;> rfl
@[simp] theorem sstat_clearBad (tl : Tile) (off n : Nat) : (tl.clearBad off n).sstat = tl.sstat := by unfold Tile.clearBad; split <;> rfl
@[simp] theorem fired_clearBad (tl : Tile) (off n : Nat) : (tl.clearBad off n).fired = tl.fired := by unfold Tile.clearBad; split <;> rfl
@[simp] theorem phDrop_clearBad (tl : Tile) (off n : Nat) : (tl.clearBad off n).phDrop = tl.phDrop := by unfold Tile.clearBad; split <;> rfl
@[simp] theorem monFull_clearBad (tl : Tile) (off n : Nat) : (tl.clearBad off n).monFull = tl.monFull := by unfold Tile.clearBad; split <;> rfl
@[simp] theorem bkpt_clearBad (tl : Tile) (off n : Nat) : (tl.clearBad off n).bkpt = tl.bkpt := by unfold Tile.clearBad; split <;> rfl
@[simp] theorem watch_clearBad (tl : Tile) (off n : Nat) : (tl.clearBad off n).watch = tl.watch := by unfold Tile.clearBad; split <;> rfl
@[simp] theorem dbgCtl_clearBad (tl : Tile) (off n : Nat) : (tl.clearBad off n).dbgCtl = tl.dbgCtl := by unfold Tile.clearBad; split <;> rfl
@[simp] theorem scratch_clearBad (tl : Tile) (off n : Nat) : (tl.clearBad off n).scratch = tl.scratch := by unfold Tile.clearBad; split <;> rfl
@[simp] theorem poison_clearBad (tl : Tile) (off n : Nat) : (tl.clearBad off n).poison = tl.poison := by unfold Tile.clearBad; split <;> rfl
@[simp] theorem spares_clearBad (tl : Tile) (off n : Nat) : (tl.clearBad off n).spares = tl.spares := by unfold Tile.clearBad; split <;> rfl
@[simp] theorem zflags_clearBad (tl : Tile) (off n : Nat) : (tl.clearBad off n).zflags = tl.zflags := by unfold Tile.clearBad; split <;> rfl
@[simp] theorem xOld_clearBad (tl : Tile) (off n : Nat) : (tl.clearBad off n).xOld = tl.xOld := by unfold Tile.clearBad; split <;> rfl
@[simp] theorem acc_clearBad (tl : Tile) (off n : Nat) : (tl.clearBad off n).acc = tl.acc := by unfold Tile.clearBad; split <;> rfl
@[simp] theorem latch_clearBad (tl : Tile) (off n : Nat) : (tl.clearBad off n).latch = tl.latch := by unfold Tile.clearBad; split <;> rfl
@[simp] theorem lw0_clearBad (tl : Tile) (off n : Nat) : (tl.clearBad off n).lw0 = tl.lw0 := by unfold Tile.clearBad; split <;> rfl
@[simp] theorem lw1_clearBad (tl : Tile) (off n : Nat) : (tl.clearBad off n).lw1 = tl.lw1 := by unfold Tile.clearBad; split <;> rfl
@[simp] theorem actW_clearBad (tl : Tile) (off n : Nat) : (tl.clearBad off n).actW = tl.actW := by unfold Tile.clearBad; split <;> rfl
@[simp] theorem wpend_clearBad (tl : Tile) (off n : Nat) : (tl.clearBad off n).wpend = tl.wpend := by unfold Tile.clearBad; split <;> rfl
@[simp] theorem lanes_clearBad (tl : Tile) (off n : Nat) : (tl.clearBad off n).lanes = tl.lanes := by unfold Tile.clearBad; split <;> rfl
@[simp] theorem rowOps_clearBad (tl : Tile) (off n : Nat) : (tl.clearBad off n).rowOps = tl.rowOps := by unfold Tile.clearBad; split <;> rfl
@[simp] theorem rowCfg_clearBad (tl : Tile) (off n : Nat) : (tl.clearBad off n).rowCfg = tl.rowCfg := by unfold Tile.clearBad; split <;> rfl
@[simp] theorem rowSw_clearBad (tl : Tile) (off n : Nat) : (tl.clearBad off n).rowSw = tl.rowSw := by unfold Tile.clearBad; split <;> rfl
@[simp] theorem gen_clearBad (tl : Tile) (off n : Nat) : (tl.clearBad off n).gen = tl.gen := by unfold Tile.clearBad; split <;> rfl
@[simp] theorem arrivals_clearBad (tl : Tile) (off n : Nat) : (tl.clearBad off n).arrivals = tl.arrivals := by unfold Tile.clearBad; split <;> rfl
@[simp] theorem mon_clearBad (tl : Tile) (off n : Nat) : (tl.clearBad off n).mon = tl.mon := by unfold Tile.clearBad; split <;> rfl
@[simp] theorem ring_clearBad (tl : Tile) (off n : Nat) : (tl.clearBad off n).ring = tl.ring := by unfold Tile.clearBad; split <;> rfl
@[simp] theorem slotWaits_clearBad (tl : Tile) (off n : Nat) : (tl.clearBad off n).slotWaits = tl.slotWaits := by unfold Tile.clearBad; split <;> rfl
@[simp] theorem pushL_clearBad (tl : Tile) (off n : Nat) : (tl.clearBad off n).pushL = tl.pushL := by unfold Tile.clearBad; split <;> rfl
@[simp] theorem pushX_clearBad (tl : Tile) (off n : Nat) : (tl.clearBad off n).pushX = tl.pushX := by unfold Tile.clearBad; split <;> rfl
@[simp] theorem pushS_clearBad (tl : Tile) (off n : Nat) : (tl.clearBad off n).pushS = tl.pushS := by unfold Tile.clearBad; split <;> rfl
@[simp] theorem sStamp_clearBad (tl : Tile) (off n : Nat) : (tl.clearBad off n).sStamp = tl.sStamp := by unfold Tile.clearBad; split <;> rfl
@[simp] theorem notes_clearBad (tl : Tile) (off n : Nat) : (tl.clearBad off n).notes = tl.notes := by unfold Tile.clearBad; split <;> rfl
@[simp] theorem relSince_clearBad (tl : Tile) (off n : Nat) : (tl.clearBad off n).relSince = tl.relSince := by unfold Tile.clearBad; split <;> rfl
@[simp] theorem pubs_clearBad (tl : Tile) (off n : Nat) : (tl.clearBad off n).pubs = tl.pubs := by unfold Tile.clearBad; split <;> rfl
@[simp] theorem subs_clearBad (tl : Tile) (off n : Nat) : (tl.clearBad off n).subs = tl.subs := by unfold Tile.clearBad; split <;> rfl
@[simp] theorem batches_clearBad (tl : Tile) (off n : Nat) : (tl.clearBad off n).batches = tl.batches := by unfold Tile.clearBad; split <;> rfl
@[simp] theorem inPorts_clearBad (tl : Tile) (off n : Nat) : (tl.clearBad off n).inPorts = tl.inPorts := by unfold Tile.clearBad; split <;> rfl
@[simp] theorem outPorts_clearBad (tl : Tile) (off n : Nat) : (tl.clearBad off n).outPorts = tl.outPorts := by unfold Tile.clearBad; split <;> rfl
@[simp] theorem cfgErr_clearBad (tl : Tile) (off n : Nat) : (tl.clearBad off n).cfgErr = tl.cfgErr := by unfold Tile.clearBad; split <;> rfl
@[simp] theorem routes_clearBad (tl : Tile) (off n : Nat) : (tl.clearBad off n).routes = tl.routes := by unfold Tile.clearBad; split <;> rfl
@[simp] theorem owner_clearBad (tl : Tile) (off n : Nat) : (tl.clearBad off n).owner = tl.owner := by unfold Tile.clearBad; split <;> rfl
@[simp] theorem clearing_clearBad (tl : Tile) (off n : Nat) : (tl.clearBad off n).clearing = tl.clearing := by unfold Tile.clearBad; split <;> rfl
@[simp] theorem excluded_clearBad (tl : Tile) (off n : Nat) : (tl.clearBad off n).excluded = tl.excluded := by unfold Tile.clearBad; split <;> rfl
@[simp] theorem lull_clearBad (tl : Tile) (off n : Nat) : (tl.clearBad off n).lull = tl.lull := by unfold Tile.clearBad; split <;> rfl
@[simp] theorem linkIn_setX (tl : Tile) (r : Nat) (v : Word) : (tl.setX r v).linkIn = tl.linkIn := by unfold Tile.setX; split <;> simp
@[simp] theorem linkOut_setX (tl : Tile) (r : Nat) (v : Word) : (tl.setX r v).linkOut = tl.linkOut := by unfold Tile.setX; split <;> simp
@[simp] theorem forward_setX (tl : Tile) (r : Nat) (v : Word) : (tl.setX r v).forward = tl.forward := by unfold Tile.setX; split <;> simp
@[simp] theorem phase_setX (tl : Tile) (r : Nat) (v : Word) : (tl.setX r v).phase = tl.phase := by unfold Tile.setX; split <;> simp
@[simp] theorem g_setX (tl : Tile) (r : Nat) (v : Word) : (tl.setX r v).g = tl.g := by unfold Tile.setX; split <;> simp
@[simp] theorem cntC_setX (tl : Tile) (r : Nat) (v : Word) : (tl.setX r v).cntC = tl.cntC := by unfold Tile.setX; split <;> simp
@[simp] theorem cntL_setX (tl : Tile) (r : Nat) (v : Word) : (tl.setX r v).cntL = tl.cntL := by unfold Tile.setX; split <;> simp
@[simp] theorem cntX_setX (tl : Tile) (r : Nat) (v : Word) : (tl.setX r v).cntX = tl.cntX := by unfold Tile.setX; split <;> simp
@[simp] theorem cntS_setX (tl : Tile) (r : Nat) (v : Word) : (tl.setX r v).cntS = tl.cntS := by unfold Tile.setX; split <;> simp
@[simp] theorem outcomes_setX (tl : Tile) (r : Nat) (v : Word) : (tl.setX r v).outcomes = tl.outcomes := by unfold Tile.setX; split <;> simp
@[simp] theorem freed_setX (tl : Tile) (r : Nat) (v : Word) : (tl.setX r v).freed = tl.freed := by unfold Tile.setX; split <;> simp
@[simp] theorem consL_setX (tl : Tile) (r : Nat) (v : Word) : (tl.setX r v).consL = tl.consL := by unfold Tile.setX; split <;> simp
@[simp] theorem consX_setX (tl : Tile) (r : Nat) (v : Word) : (tl.setX r v).consX = tl.consX := by unfold Tile.setX; split <;> simp
@[simp] theorem consS_setX (tl : Tile) (r : Nat) (v : Word) : (tl.setX r v).consS = tl.consS := by unfold Tile.setX; split <;> simp
@[simp] theorem qL_setX (tl : Tile) (r : Nat) (v : Word) : (tl.setX r v).qL = tl.qL := by unfold Tile.setX; split <;> simp
@[simp] theorem qX_setX (tl : Tile) (r : Nat) (v : Word) : (tl.setX r v).qX = tl.qX := by unfold Tile.setX; split <;> simp
@[simp] theorem qS_setX (tl : Tile) (r : Nat) (v : Word) : (tl.setX r v).qS = tl.qS := by unfold Tile.setX; split <;> simp
@[simp] theorem nextId_setX (tl : Tile) (r : Nat) (v : Word) : (tl.setX r v).nextId = tl.nextId := by unfold Tile.setX; split <;> simp
@[simp] theorem tokLX_setX (tl : Tile) (r : Nat) (v : Word) : (tl.setX r v).tokLX = tl.tokLX := by unfold Tile.setX; split <;> simp
@[simp] theorem tokXL_setX (tl : Tile) (r : Nat) (v : Word) : (tl.setX r v).tokXL = tl.tokXL := by unfold Tile.setX; split <;> simp
@[simp] theorem tokXS_setX (tl : Tile) (r : Nat) (v : Word) : (tl.setX r v).tokXS = tl.tokXS := by unfold Tile.setX; split <;> simp
@[simp] theorem tokSX_setX (tl : Tile) (r : Nat) (v : Word) : (tl.setX r v).tokSX = tl.tokSX := by unfold Tile.setX; split <;> simp
@[simp] theorem hasText_setX (tl : Tile) (r : Nat) (v : Word) : (tl.setX r v).hasText = tl.hasText := by unfold Tile.setX; split <;> simp
@[simp] theorem nwords_setX (tl : Tile) (r : Nat) (v : Word) : (tl.setX r v).nwords = tl.nwords := by unfold Tile.setX; split <;> simp
@[simp] theorem entry_setX (tl : Tile) (r : Nat) (v : Word) : (tl.setX r v).entry = tl.entry := by unfold Tile.setX; split <;> simp
@[simp] theorem istore_setX (tl : Tile) (r : Nat) (v : Word) : (tl.setX r v).istore = tl.istore := by unfold Tile.setX; split <;> simp
@[simp] theorem istoreBad_setX (tl : Tile) (r : Nat) (v : Word) : (tl.setX r v).istoreBad = tl.istoreBad := by unfold Tile.setX; split <;> simp
@[simp] theorem istoreWritten_setX (tl : Tile) (r : Nat) (v : Word) : (tl.setX r v).istoreWritten = tl.istoreWritten := by unfold Tile.setX; split <;> simp
@[simp] theorem inHandler_setX (tl : Tile) (r : Nat) (v : Word) : (tl.setX r v).inHandler = tl.inHandler := by unfold Tile.setX; split <;> simp
@[simp] theorem resumePc_setX (tl : Tile) (r : Nat) (v : Word) : (tl.setX r v).resumePc = tl.resumePc := by unfold Tile.setX; split <;> simp
@[simp] theorem pending_setX (tl : Tile) (r : Nat) (v : Word) : (tl.setX r v).pending = tl.pending := by unfold Tile.setX; split <;> simp
@[simp] theorem trapNoCmd_setX (tl : Tile) (r : Nat) (v : Word) : (tl.setX r v).trapNoCmd = tl.trapNoCmd := by unfold Tile.setX; split <;> simp
@[simp] theorem trapAtEnd_setX (tl : Tile) (r : Nat) (v : Word) : (tl.setX r v).trapAtEnd = tl.trapAtEnd := by unfold Tile.setX; split <;> simp
@[simp] theorem trapEntry_setX (tl : Tile) (r : Nat) (v : Word) : (tl.setX r v).trapEntry = tl.trapEntry := by unfold Tile.setX; split <;> simp
@[simp] theorem cwait_setX (tl : Tile) (r : Nat) (v : Word) : (tl.setX r v).cwait = tl.cwait := by unfold Tile.setX; split <;> simp
@[simp] theorem repOn_setX (tl : Tile) (r : Nat) (v : Word) : (tl.setX r v).repOn = tl.repOn := by unfold Tile.setX; split <;> simp
@[simp] theorem haltedAt_setX (tl : Tile) (r : Nat) (v : Word) : (tl.setX r v).haltedAt = tl.haltedAt := by unfold Tile.setX; split <;> simp
@[simp] theorem restored_setX (tl : Tile) (r : Nat) (v : Word) : (tl.setX r v).restored = tl.restored := by unfold Tile.setX; split <;> simp
@[simp] theorem drained_setX (tl : Tile) (r : Nat) (v : Word) : (tl.setX r v).drained = tl.drained := by unfold Tile.setX; split <;> simp
@[simp] theorem escalated_setX (tl : Tile) (r : Nat) (v : Word) : (tl.setX r v).escalated = tl.escalated := by unfold Tile.setX; split <;> simp
@[simp] theorem tileId_setX (tl : Tile) (r : Nat) (v : Word) : (tl.setX r v).tileId = tl.tileId := by unfold Tile.setX; split <;> simp
@[simp] theorem origin_setX (tl : Tile) (r : Nat) (v : Word) : (tl.setX r v).origin = tl.origin := by unfold Tile.setX; split <;> simp
@[simp] theorem drift_setX (tl : Tile) (r : Nat) (v : Word) : (tl.setX r v).drift = tl.drift := by unfold Tile.setX; split <;> simp
@[simp] theorem trapVec_setX (tl : Tile) (r : Nat) (v : Word) : (tl.setX r v).trapVec = tl.trapVec := by unfold Tile.setX; split <;> simp
@[simp] theorem trapCause_setX (tl : Tile) (r : Nat) (v : Word) : (tl.setX r v).trapCause = tl.trapCause := by unfold Tile.setX; split <;> simp
@[simp] theorem trapPc_setX (tl : Tile) (r : Nat) (v : Word) : (tl.setX r v).trapPc = tl.trapPc := by unfold Tile.setX; split <;> simp
@[simp] theorem repIdx_setX (tl : Tile) (r : Nat) (v : Word) : (tl.setX r v).repIdx = tl.repIdx := by unfold Tile.setX; split <;> simp
@[simp] theorem subBatch_setX (tl : Tile) (r : Nat) (v : Word) : (tl.setX r v).subBatch = tl.subBatch := by unfold Tile.setX; split <;> simp
@[simp] theorem groupMask_setX (tl : Tile) (r : Nat) (v : Word) : (tl.setX r v).groupMask = tl.groupMask := by unfold Tile.setX; split <;> simp
@[simp] theorem fflags_setX (tl : Tile) (r : Nat) (v : Word) : (tl.setX r v).fflags = tl.fflags := by unfold Tile.setX; split <;> simp
@[simp] theorem lstat_setX (tl : Tile) (r : Nat) (v : Word) : (tl.setX r v).lstat = tl.lstat := by unfold Tile.setX; split <;> simp
@[simp] theorem sstat_setX (tl : Tile) (r : Nat) (v : Word) : (tl.setX r v).sstat = tl.sstat := by unfold Tile.setX; split <;> simp
@[simp] theorem fired_setX (tl : Tile) (r : Nat) (v : Word) : (tl.setX r v).fired = tl.fired := by unfold Tile.setX; split <;> simp
@[simp] theorem phDrop_setX (tl : Tile) (r : Nat) (v : Word) : (tl.setX r v).phDrop = tl.phDrop := by unfold Tile.setX; split <;> simp
@[simp] theorem monFull_setX (tl : Tile) (r : Nat) (v : Word) : (tl.setX r v).monFull = tl.monFull := by unfold Tile.setX; split <;> simp
@[simp] theorem bkpt_setX (tl : Tile) (r : Nat) (v : Word) : (tl.setX r v).bkpt = tl.bkpt := by unfold Tile.setX; split <;> simp
@[simp] theorem watch_setX (tl : Tile) (r : Nat) (v : Word) : (tl.setX r v).watch = tl.watch := by unfold Tile.setX; split <;> simp
@[simp] theorem dbgCtl_setX (tl : Tile) (r : Nat) (v : Word) : (tl.setX r v).dbgCtl = tl.dbgCtl := by unfold Tile.setX; split <;> simp
@[simp] theorem scratch_setX (tl : Tile) (r : Nat) (v : Word) : (tl.setX r v).scratch = tl.scratch := by unfold Tile.setX; split <;> simp
@[simp] theorem poison_setX (tl : Tile) (r : Nat) (v : Word) : (tl.setX r v).poison = tl.poison := by unfold Tile.setX; split <;> simp
@[simp] theorem spares_setX (tl : Tile) (r : Nat) (v : Word) : (tl.setX r v).spares = tl.spares := by unfold Tile.setX; split <;> simp
@[simp] theorem zflags_setX (tl : Tile) (r : Nat) (v : Word) : (tl.setX r v).zflags = tl.zflags := by unfold Tile.setX; split <;> simp
@[simp] theorem xOld_setX (tl : Tile) (r : Nat) (v : Word) : (tl.setX r v).xOld = tl.xOld := by unfold Tile.setX; split <;> simp
@[simp] theorem acc_setX (tl : Tile) (r : Nat) (v : Word) : (tl.setX r v).acc = tl.acc := by unfold Tile.setX; split <;> simp
@[simp] theorem latch_setX (tl : Tile) (r : Nat) (v : Word) : (tl.setX r v).latch = tl.latch := by unfold Tile.setX; split <;> simp
@[simp] theorem lw0_setX (tl : Tile) (r : Nat) (v : Word) : (tl.setX r v).lw0 = tl.lw0 := by unfold Tile.setX; split <;> simp
@[simp] theorem lw1_setX (tl : Tile) (r : Nat) (v : Word) : (tl.setX r v).lw1 = tl.lw1 := by unfold Tile.setX; split <;> simp
@[simp] theorem actW_setX (tl : Tile) (r : Nat) (v : Word) : (tl.setX r v).actW = tl.actW := by unfold Tile.setX; split <;> simp
@[simp] theorem wpend_setX (tl : Tile) (r : Nat) (v : Word) : (tl.setX r v).wpend = tl.wpend := by unfold Tile.setX; split <;> simp
@[simp] theorem lanes_setX (tl : Tile) (r : Nat) (v : Word) : (tl.setX r v).lanes = tl.lanes := by unfold Tile.setX; split <;> simp
@[simp] theorem rowOps_setX (tl : Tile) (r : Nat) (v : Word) : (tl.setX r v).rowOps = tl.rowOps := by unfold Tile.setX; split <;> simp
@[simp] theorem rowCfg_setX (tl : Tile) (r : Nat) (v : Word) : (tl.setX r v).rowCfg = tl.rowCfg := by unfold Tile.setX; split <;> simp
@[simp] theorem rowSw_setX (tl : Tile) (r : Nat) (v : Word) : (tl.setX r v).rowSw = tl.rowSw := by unfold Tile.setX; split <;> simp
@[simp] theorem gen_setX (tl : Tile) (r : Nat) (v : Word) : (tl.setX r v).gen = tl.gen := by unfold Tile.setX; split <;> simp
@[simp] theorem arrivals_setX (tl : Tile) (r : Nat) (v : Word) : (tl.setX r v).arrivals = tl.arrivals := by unfold Tile.setX; split <;> simp
@[simp] theorem mon_setX (tl : Tile) (r : Nat) (v : Word) : (tl.setX r v).mon = tl.mon := by unfold Tile.setX; split <;> simp
@[simp] theorem ring_setX (tl : Tile) (r : Nat) (v : Word) : (tl.setX r v).ring = tl.ring := by unfold Tile.setX; split <;> simp
@[simp] theorem slotWaits_setX (tl : Tile) (r : Nat) (v : Word) : (tl.setX r v).slotWaits = tl.slotWaits := by unfold Tile.setX; split <;> simp
@[simp] theorem pushL_setX (tl : Tile) (r : Nat) (v : Word) : (tl.setX r v).pushL = tl.pushL := by unfold Tile.setX; split <;> simp
@[simp] theorem pushX_setX (tl : Tile) (r : Nat) (v : Word) : (tl.setX r v).pushX = tl.pushX := by unfold Tile.setX; split <;> simp
@[simp] theorem pushS_setX (tl : Tile) (r : Nat) (v : Word) : (tl.setX r v).pushS = tl.pushS := by unfold Tile.setX; split <;> simp
@[simp] theorem sStamp_setX (tl : Tile) (r : Nat) (v : Word) : (tl.setX r v).sStamp = tl.sStamp := by unfold Tile.setX; split <;> simp
@[simp] theorem notes_setX (tl : Tile) (r : Nat) (v : Word) : (tl.setX r v).notes = tl.notes := by unfold Tile.setX; split <;> simp
@[simp] theorem relSince_setX (tl : Tile) (r : Nat) (v : Word) : (tl.setX r v).relSince = tl.relSince := by unfold Tile.setX; split <;> simp
@[simp] theorem pubs_setX (tl : Tile) (r : Nat) (v : Word) : (tl.setX r v).pubs = tl.pubs := by unfold Tile.setX; split <;> simp
@[simp] theorem subs_setX (tl : Tile) (r : Nat) (v : Word) : (tl.setX r v).subs = tl.subs := by unfold Tile.setX; split <;> simp
@[simp] theorem batches_setX (tl : Tile) (r : Nat) (v : Word) : (tl.setX r v).batches = tl.batches := by unfold Tile.setX; split <;> simp
@[simp] theorem inPorts_setX (tl : Tile) (r : Nat) (v : Word) : (tl.setX r v).inPorts = tl.inPorts := by unfold Tile.setX; split <;> simp
@[simp] theorem outPorts_setX (tl : Tile) (r : Nat) (v : Word) : (tl.setX r v).outPorts = tl.outPorts := by unfold Tile.setX; split <;> simp
@[simp] theorem cfgErr_setX (tl : Tile) (r : Nat) (v : Word) : (tl.setX r v).cfgErr = tl.cfgErr := by unfold Tile.setX; split <;> simp
@[simp] theorem routes_setX (tl : Tile) (r : Nat) (v : Word) : (tl.setX r v).routes = tl.routes := by unfold Tile.setX; split <;> simp
@[simp] theorem owner_setX (tl : Tile) (r : Nat) (v : Word) : (tl.setX r v).owner = tl.owner := by unfold Tile.setX; split <;> simp
@[simp] theorem clearing_setX (tl : Tile) (r : Nat) (v : Word) : (tl.setX r v).clearing = tl.clearing := by unfold Tile.setX; split <;> simp
@[simp] theorem excluded_setX (tl : Tile) (r : Nat) (v : Word) : (tl.setX r v).excluded = tl.excluded := by unfold Tile.setX; split <;> simp
@[simp] theorem lull_setX (tl : Tile) (r : Nat) (v : Word) : (tl.setX r v).lull = tl.lull := by unfold Tile.setX; split <;> simp

end Sys2Proof.Laws
end

