-- ==== Sys2Proof/Tests/Slice0.lean ====
section
/-! SUPPORT. Tests of the decoder, of the refusals of `wellFormed`, and for every statement with hypotheses a state and operands
that meet them. Words come from the field positions of the opcode table, expected values from the rules named. -/

namespace Sys2Proof.Tests

open Sys2Proof Sys2Proof.Machine

-- Each test is checked before the next begins: together their threads would pass the memory limit of a compile.
set_option Elab.async false

/-! ### Decoding -/

/-- `add` to `or`: each word laid out from the field positions of the opcode table (R152-R156). -/
theorem test_decode_add_to_or :
    decodeTableWord 32 0x00858200 = some (.add 16 22 1) ∧
    decodeTableWord 32 0x004A9801 = some (.sub 9 10 12) ∧
    decodeTableWord 32 0x005E9402 = some (.mul 11 26 10) ∧
    decodeTableWord 32 0x00131603 = some (.mulh 2 12 11) ∧
    decodeTableWord 32 0x00910204 = some (.mulhsu 18 4 1) ∧
    decodeTableWord 32 0x000EB405 = some (.mulhx 1 26 26) ∧
    decodeTableWord 32 0x00E95206 = some (.div 29 5 9) ∧
    decodeTableWord 32 0x00363407 = some (.divx 6 24 26) ∧
    decodeTableWord 32 0x00D33208 = some (.rem 26 12 25) ∧
    decodeTableWord 32 0x00E9AC09 = some (.remx 29 6 22) ∧
    decodeTableWord 32 0x0023F610 = some (.and 4 15 27) ∧
    decodeTableWord 32 0x0061FE11 = some (.or 12 7 31) := by decide +kernel

/-- `xor` to `maxx`: each word laid out from the field positions of the opcode table (R152-R156). -/
theorem test_decode_xor_to_maxx :
    decodeTableWord 32 0x00779C12 = some (.xor 14 30 14) ∧
    decodeTableWord 32 0x00FBEA13 = some (.andn 31 15 21) ∧
    decodeTableWord 32 0x009ECC14 = some (.orn 19 27 6) ∧
    decodeTableWord 32 0x00857818 = some (.sll 16 21 28) ∧
    decodeTableWord 32 0x00A05019 = some (.srl 20 1 8) ∧
    decodeTableWord 32 0x00148A1A = some (.sra 2 18 5) ∧
    decodeTableWord 32 0x00B9EA1B = some (.rol 23 7 21) ∧
    decodeTableWord 32 0x004BE21C = some (.ror 9 15 17) ∧
    decodeTableWord 32 0x00429420 = some (.min 8 10 10) ∧
    decodeTableWord 32 0x004F2221 = some (.max 9 28 17) ∧
    decodeTableWord 32 0x00278022 = some (.minx 4 30 0) ∧
    decodeTableWord 32 0x00196A23 = some (.maxx 3 5 21) := by decide +kernel

/-- `slt` to `zextB`: each word laid out from the field positions of the opcode table (R152-R156). -/
theorem test_decode_slt_to_zextB :
    decodeTableWord 32 0x00EBD624 = some (.slt 29 15 11) ∧
    decodeTableWord 32 0x003F3E25 = some (.sltx 7 28 31) ∧
    decodeTableWord 32 0x00FD2C26 = some (.seq 31 20 22) ∧
    decodeTableWord 32 0x00AA2827 = some (.sne 21 8 20) ∧
    decodeTableWord 32 0x00047C28 = some (.sel 0 17 30) ∧
    decodeTableWord 32 0x00588030 = some (.clz 11 2) ∧
    decodeTableWord 32 0x00C8C031 = some (.ctz 25 3) ∧
    decodeTableWord 32 0x009D4032 = some (.popc 19 21) ∧
    decodeTableWord 32 0x00B28034 = some (.sextB 22 10) ∧
    decodeTableWord 32 0x004C8035 = some (.sextH 9 18) ∧
    decodeTableWord 32 0x00F04036 = some (.sextW 30 1) ∧
    decodeTableWord 32 0x0009C038 = some (.zextB 1 7) := by decide +kernel

/-- `zextH` to `srli`: each word laid out from the field positions of the opcode table (R152-R156). -/
theorem test_decode_zextH_to_srli :
    decodeTableWord 32 0x00BB0039 = some (.zextH 23 12) ∧
    decodeTableWord 32 0x0084C03A = some (.zextW 16 19) ∧
    decodeTableWord 32 0x01453204 = some (.lea 8 20 25 4) ∧
    decodeTableWord 32 0x012CAC10 = some (.madd 5 18 22) ∧
    decodeTableWord 32 0x01593611 = some (.bfe 11 4 27) ∧
    decodeTableWord 32 0x01D28412 = some (.bfi 26 10 2) ∧
    decodeTableWord 32 0x10B27CBB = some (.addi 22 9 15547) ∧
    decodeTableWord 32 0x112EBF27 = some (.andi 5 26 16167) ∧
    decodeTableWord 32 0x1278F554 = some (.ori 15 3 13652) ∧
    decodeTableWord 32 0x136A9BAE = some (.xori 13 10 7086) ∧
    decodeTableWord 32 0x1495C005 = some (.slli 18 23 5) ∧
    decodeTableWord 32 0x15118007 = some (.srli 2 6 7) := by decide +kernel

/-- `srai` to `aminx`: each word laid out from the field positions of the opcode table (R152-R156). -/
theorem test_decode_srai_to_aminx :
    decodeTableWord 32 0x1677002E = some (.srai 14 28 46) ∧
    decodeTableWord 32 0x17F56C57 = some (.slti 30 21 11351) ∧
    decodeTableWord 32 0x18205D3E = some (.sltxi 4 1 7486) ∧
    decodeTableWord 32 0x19C654A9 = some (.lui 24 414889) ∧
    decodeTableWord 32 0x1A967D58 = some (.auipc 18 425304) ∧
    decodeTableWord 32 0x206DCF1B = some (.ld 13 23 3 1 4 1 11) ∧
    decodeTableWord 32 0x21776305 = some (.ldz 14 29 8 1 4 0 5) ∧
    decodeTableWord 32 0x229EBB39 = some (.st 19 26 14 1 4 3 9) ∧
    decodeTableWord 32 0x282EDA70 = some (.amoadd 5 27 6 1 1 1) ∧
    decodeTableWord 32 0x28176AE1 = some (.amomin 2 29 10 1 3 0) ∧
    decodeTableWord 32 0x28A5CB32 = some (.amomax 20 23 2 1 4 1) ∧
    decodeTableWord 32 0x28796A73 = some (.aminx 15 5 10 1 1 1) := by decide +kernel

/-- `amaxx` to `mux`: each word laid out from the field positions of the opcode table (R152-R156). -/
theorem test_decode_amaxx_to_mux :
    decodeTableWord 32 0x28EC1AA4 = some (.amaxx 29 16 6 1 2 0) ∧
    decodeTableWord 32 0x280BF635 = some (.amoand 1 15 13 1 0 1) ∧
    decodeTableWord 32 0x283342F6 = some (.amoor 6 13 0 1 3 1) ∧
    decodeTableWord 32 0x281CDAA7 = some (.amoxor 3 19 6 1 2 0) ∧
    decodeTableWord 32 0x280D2EB8 = some (.amoswp 1 20 11 1 2 1) ∧
    decodeTableWord 32 0x28D7FAF9 = some (.amocas 26 31 14 1 3 1) ∧
    decodeTableWord 32 0x282C6E7A = some (.amotas 5 17 11 1 1 1) ∧
    decodeTableWord 32 0x290321AD = some (.fence 3 8621) ∧
    decodeTableWord 32 0x2A0C0007 = some (.bar 3 0 7) ∧
    decodeTableWord 32 0x2A280038 = some (.bart 2 56) ∧
    decodeTableWord 32 0x2BD579F0 = some (.tx 26 21 28 1 1 3 2) ∧
    decodeTableWord 32 0x2F000402 = some (.mux 2 0 0 2) := by decide +kernel

/-- `waitw` to `beq`: each word laid out from the field positions of the opcode table (R152-R156). -/
theorem test_decode_waitw_to_beq :
    decodeTableWord 32 0x2CA9F430 = some (.waitw 21 7 13 0 0 1) ∧
    decodeTableWord 32 0x2CD08038 = some (.waitwArm 26 2 1) ∧
    decodeTableWord 32 0x2D9FC000 = some (.acqs 19 31 0 0) ∧
    decodeTableWord 32 0x2DD2C401 = some (.rels 26 11 2 0) ∧
    decodeTableWord 32 0x2D0770E2 = some (.renq 29 24 3 2) ∧
    decodeTableWord 32 0x2E53A800 = some (.subSubscribe 10 14 20) ∧
    decodeTableWord 32 0x2E01C001 = some (.unsub 7) ∧
    decodeTableWord 32 0x2E000002 = some (.pflush) ∧
    decodeTableWord 32 0x2E034003 = some (.resync 13) ∧
    decodeTableWord 32 0x2E5D8004 = some (.subq 11 22) ∧
    decodeTableWord 32 0x30000EA0 = some (.b 3744) ∧
    decodeTableWord 32 0x3136A85B = some (.beq 6 26 10331) := by decide +kernel

/-- `bne` to `tlclr`: each word laid out from the field positions of the opcode table (R152-R156). -/
theorem test_decode_bne_to_tlclr :
    decodeTableWord 32 0x329DBA6B = some (.bne 19 22 14955) ∧
    decodeTableWord 32 0x338BC214 = some (.blt 17 15 532) ∧
    decodeTableWord 32 0x348DDC03 = some (.bge 17 23 7171) ∧
    decodeTableWord 32 0x35BE0FBE = some (.bltx 23 24 4030) ∧
    decodeTableWord 32 0x36BD25E8 = some (.bgex 23 20 9704) ∧
    decodeTableWord 32 0x371627C6 = some (.call 22 10182) ∧
    decodeTableWord 32 0x37370000 = some (.ret 23) ∧
    decodeTableWord 32 0x37493704 = some (.loop 9 14084) ∧
    decodeTableWord 32 0x37600000 = some (.halt) ∧
    decodeTableWord 32 0x38624005 = some (.tlset 12 9 5) ∧
    decodeTableWord 32 0x39DB002D = some (.tlget 27 12 45) ∧
    decodeTableWord 32 0x3A100000 = some (.tlclr 2) := by decide +kernel

/-- `tlmov` to `csrr`: each word laid out from the field positions of the opcode table (R152-R156). -/
theorem test_decode_tlmov_to_csrr :
    decodeTableWord 32 0x3A228001 = some (.tlmov 4 10) ∧
    decodeTableWord 32 0x3A210011 = some (.tlchkL 4 4) ∧
    decodeTableWord 32 0x3AE94012 = some (.tlchkX 29 5) ∧
    decodeTableWord 32 0x3A6BC013 = some (.tlchkS 13 15) ∧
    decodeTableWord 32 0x3B0D5600 = some (.tlld 1 21 5 1 0) ∧
    decodeTableWord 32 0x3B470A41 = some (.tlst 8 28 2 1 1) ∧
    decodeTableWord 32 0x3C5F8000 = some (.spt 11 30) ∧
    decodeTableWord 32 0x3CB44019 = some (.spc 22 17 9) ∧
    decodeTableWord 32 0x3C0D6028 = some (.mkpLocal 1 21 16) ∧
    decodeTableWord 32 0x3CBAF629 = some (.mkpShared 23 11 27) ∧
    decodeTableWord 32 0x3C633E2B = some (.mkpOpm 12 12 31) ∧
    decodeTableWord 32 0x3D680543 = some (.csrr 13 1347) := by decide +kernel

/-- `csrw` to `rcv`: each word laid out from the field positions of the opcode table (R152-R156). -/
theorem test_decode_csrw_to_rcv :
    decodeTableWord 32 0x3D0609BA = some (.csrw 24 442) ∧
    decodeTableWord 32 0x3D04106D = some (.csrs 16 109) ∧
    decodeTableWord 32 0x3D031E24 = some (.csrc 12 1572) ∧
    decodeTableWord 32 0x3D002000 = some (.eret) ∧
    decodeTableWord 32 0x3D002800 = some (.brk) ∧
    decodeTableWord 32 0x3D083000 = some (.lpoll 1) ∧
    decodeTableWord 32 0x3E00029A = some (.rep 1 0 1 0 26) ∧
    decodeTableWord 32 0x3F0033C1 = some (.trap 13249) ∧
    decodeTableWord 32 0x482AF59A = some (.ldn 0 1 10 11 13 0 1 4 1 10) ∧
    decodeTableWord 32 0x60709F1E = some (.ldr 1 0 12 2 7 1 1 0 1 14) ∧
    decodeTableWord 32 0x48858B5E = some (.ldh 0 1 1 6 2 1 1 2 1 14) ∧
    decodeTableWord 32 0x40C70613 = some (.rcv 0 0 1 3 0 1 1 0 0 1 3) := by decide +kernel

/-- `gath` to `mmas`: each word laid out from the field positions of the opcode table (R152-R156). -/
theorem test_decode_gath_to_mmas :
    decodeTableWord 32 0x411AC2F8 = some (.gath 0 0 6 11 0 2 15 2 0) ∧
    decodeTableWord 32 0x61438000 = some (.pfx 1 0 14) ∧
    decodeTableWord 32 0x43D02C27 = some (.lNest 0 0 4 11303) ∧
    decodeTableWord 32 0xE8138B95 = some (.stn 1 1 4 14 2 1 1 4 1 5) ∧
    decodeTableWord 32 0xC06B1B18 = some (.strm 0 0 10 12 6 1 1 0 1 8) ∧
    decodeTableWord 32 0xC0AF235B = some (.sth 0 0 11 12 8 1 1 2 1 11) ∧
    decodeTableWord 32 0xE0DE8B3A = some (.snd 1 0 7 2 1 2 1 1 1 1 10) ∧
    decodeTableWord 32 0xE91B83B4 = some (.scat 1 1 6 14 3 11 1) ∧
    decodeTableWord 32 0xE1400000 = some (.eos 1 0 0) ∧
    decodeTableWord 32 0xE3F830E3 = some (.sNest 1 0 14 12515) ∧
    decodeTableWord 32 0x801259D8 = some (.mma 0 0 0 0 4 9 3 0 3 1 0 1 1) ∧
    decodeTableWord 32 0xB8618100 = some (.mmas 1 1 1 0 8 3 0 0 0 0 2) := by decide +kernel

/-- `mmat` to `emode`: each word laid out from the field positions of the opcode table (R152-R156). -/
theorem test_decode_mmat_to_emode :
    decodeTableWord 32 0xAC955780 = some (.mmat 1 0 1 1 5 2 2 2 1 1 3) ∧
    decodeTableWord 32 0xA0EE8000 = some (.wld 1 0 0 0 11 5) ∧
    decodeTableWord 32 0x98CD75C0 = some (.wldPort 0 1 1 0 3 2 215) ∧
    decodeTableWord 32 0x89000000 = some (.wswap 0 0 1 0) ∧
    decodeTableWord 32 0xB1401200 = some (.scacc 1 1 0 0 0 0 2 0 1) ∧
    decodeTableWord 32 0xA5A80000 = some (.accclr 1 0 0 1 20) ∧
    decodeTableWord 32 0xB9E2713D = some (.accst 1 1 1 0 8 4 14 1 0 3 13) ∧
    decodeTableWord 32 0x922C5C1C = some (.accld 0 1 0 0 11 0 11 4 0 1 12) ∧
    decodeTableWord 32 0x967A48E8 = some (.erow 0 1 0 1 14 9 2 3 2 2 0) ∧
    decodeTableWord 32 0xBE803FFE = some (.ecfg 1 1 1 1 16382) ∧
    decodeTableWord 32 0x9A80F5AE = some (.ecfgSt 0 1 1 0 30126) ∧
    decodeTableWord 32 0xAEC02A08 = some (.emode 1 0 1 1 10760) := by decide +kernel

/-- `emodePort` to `xNest`: each word laid out from the field positions of the opcode table (R152-R156). -/
theorem test_decode_emodePort_to_xNest :
    decodeTableWord 32 0x8EC10003 = some (.emodePort 0 0 1 1 3) ∧
    decodeTableWord 32 0x8F08E7B9 = some (.gld 0 0 1 1 17 26553) ∧
    decodeTableWord 32 0x8B17BE3F = some (.gset 0 0 1 0 7 48703) ∧
    decodeTableWord 32 0xB320116D = some (.gsave 1 1 0 0 4461) ∧
    decodeTableWord 32 0x8B304DB4 = some (.grest 0 0 1 0 19892) ∧
    decodeTableWord 32 0xBF4F4A75 = some (.zscan 1 1 1 1 3 52 2677) ∧
    decodeTableWord 32 0xBF607A44 = some (.zclr 1 1 1 1 7 2628) ∧
    decodeTableWord 32 0x97DC2F33 = some (.xNest 0 1 0 1 7 12083) := by decide +kernel
/-- Every check of `wellFormed` on operand codes refuses a term that breaks it (R153, R168, R318, R329, R330, R332, R334, R163,
R176). -/
theorem test_ill_formed_C :
    wellFormed (.fence 5 0) = false ∧ wellFormed (.ld 1 2 0 1 7 3 0) = false ∧ wellFormed (.ld 1 2 0 0 1 3 0) = false ∧
    wellFormed (.ldz 1 2 0 0 0 3 0) = false ∧ wellFormed (.st 1 2 0 0 4 3 0) = false ∧
    wellFormed (.amoadd 1 2 0 0 2 0) = false ∧ wellFormed (.waitw 1 2 3 0 1 0) = false ∧
    wellFormed (.tx 1 2 3 0 0 0 0) = false ∧ wellFormed (.tx 1 2 3 0 1 0 0) = false ∧ wellFormed (.tx 1 2 3 1 0 0 0) = false ∧
    wellFormed (.mux 5 0 0 0) = false ∧ wellFormed (.mux 0 0 0 7) = false ∧ wellFormed (.renq 1 2 0 0) = false ∧
    wellFormed (.renq 1 2 6 1) = false ∧ wellFormed (.beq 28 1 0) = false ∧ wellFormed (.loop 31 0) = false ∧
    wellFormed (.ret 29) = false ∧ wellFormed (.tlset 0 1 9) = false ∧ wellFormed (.tlget 1 0 0x2E) = false ∧
    wellFormed (.spc 1 2 7) = false := by decide

/-- The same for commands (R198, R218, R219, R228-R232, R249, R263). -/
theorem test_ill_formed_commands :
    wellFormed (.ldn 0 0 0 0 0 0 0 1 0 0) = false ∧ wellFormed (.stn 0 0 0 0 0 1 0 5 0 0) = false ∧
    wellFormed (.ldn 0 0 0 0 0 0 0 0 0 3) = false ∧ wellFormed (.gath 0 0 1 0 0 0 0 0 1) = false ∧
    wellFormed (.mma 0 0 0 0 0 0 5 0 0 1 0 0 0) = false ∧ wellFormed (.mma 0 0 0 0 0 0 0 0 2 1 0 0 0) = false ∧
    wellFormed (.mma 0 0 0 0 0 0 0 3 0 1 0 0 0) = false ∧ wellFormed (.mma 0 0 0 0 0 1 0 0 0 0 0 0 0) = false ∧
    wellFormed (.wld 0 0 0 0 0 6) = false ∧ wellFormed (.scacc 0 0 0 0 0 0 4 0 0) = false ∧
    wellFormed (.accclr 0 0 0 0 0) = false ∧ wellFormed (.accst 0 0 0 0 0 0 6 0 0 0 0) = false ∧
    wellFormed (.accst 0 0 0 0 0 0 0 5 0 0 0) = false ∧ wellFormed (.accst 0 0 0 0 0 0 0 0 3 0 0) = false ∧
    wellFormed (.accld 0 0 0 0 0 0 15 0 0 0 0) = false ∧ wellFormed (.erow 0 0 0 0 0 1 0 0 0 0 1) = false ∧
    wellFormed (.erow 0 0 0 0 0 0 1 0 0 0 0) = false ∧ wellFormed (.erow 0 0 0 0 0 0 0 4 0 2 0) = false ∧
    wellFormed (.erow 0 0 0 0 0 0 0 0 3 0 0) = false ∧ wellFormed (.gset 0 0 0 0 15 32) = false ∧
    wellFormed (.zscan 0 0 0 0 5 0 0) = false := by decide

/-- The units of events: 2,048 tiles, 32 contexts and functions, 64 jet ports, 4,096 queues, 512 slices, 256 memory ports (R1). -/
theorem test_ill_formed_events :
    wellFormed (.waitwWake 2048) = false ∧ wellFormed (.slotWaitServed 0 8) = false ∧
    wellFormed (.batchWindowExpiry 0 32) = false ∧ wellFormed (.placement 32) = false ∧ wellFormed (.vfFlr 32) = false ∧
    wellFormed (.jetInWord 64) = false ∧ wellFormed (.packetFetch 4096) = false ∧ wellFormed (.nop (.queue 4096) 0) = false ∧
    wellFormed (.bind (.lane 64 0) 0) = false ∧ wellFormed (.lullMarkerArrival (.tile 2048)) = false ∧
    wellFormed (.lullMarkerArrival (.generator 32 0)) = false ∧ wellFormed (.scrubPass 8) = false ∧
    wellFormed (.arbiterBurst 0 4) = false ∧ wellFormed (.sliceMissResponse 512) = false ∧
    wellFormed (.accountingWindow 32) = false ∧ wellFormed (.memoryPortRequest 256 0 0 0 1 none) = false ∧
    wellFormed (.jpctl 0 64 0) = false ∧ wellFormed (.spdmMeasurements 0 32 0) = false := by decide

/-! ### Small states -/

/-- A range entry: 64 KB of device memory in plaintext, readable and writable. -/
def tr : RangeEntry :=
  { ctx := 0, gen := 0, keyId := 0, plain := true, share := 0, noAlloc := false, posted := false, peer := false, paged := false,
    canRead := true, canWrite := true, peerId := 0, pbase := 0x100000, vlimit := 0x10000, vbase := 0 }

/-- A context of two rows and two columns at the corner of the module, with that range and a read-only one. -/
def tc : Context :=
  { func := 0, gen := 0, row := 0, col := 0, width := 2, height := 2, memPorts := 1,
    ranges := [tr, { tr with vbase := 0x20000, vlimit := 0x30000, canWrite := false }], key := 0, copy := 0, backing := [],
    phase := .placed, ports := [0], jets := [], fifo := [], run := none, busy := false, heldFault := none, lastOps := [],
    gens := [], queues := [], regions := [], sealedRec := none, evictAsked := false, toClear := [], destroy := none,
    idleSince := 0, aged := 0, waitsRoom := false }

/-- Tile 0 running at word 2 of a text of 16 words, in a phase of the whole context's group: `x1` = 5, `x2` = 7, `x3` = byte 0
of its scratchpad, a word on every link input. -/
def ta : Tile :=
  { Tile.reset with
      x := [(1, 5), (2, 7), (3, 0x8000000000000000)], linkIn := [(0, [9]), (1, [8]), (2, [7]), (3, [6])],
      hasText := true, nwords := 16, trapVec := 0x4000, owner := some 0, phase := some 9,
      cntC := { pc := 2, st := .running, ended := false }, cntL := { pc := 2, st := .running, ended := false },
      cntX := { pc := 2, st := .running, ended := false }, cntS := { pc := 2, st := .running, ended := false } }

/-- A device with that context, tile 0 as given, and its other three tiles as they are after reset. -/
def on0 (tl : Tile) : State :=
  { State.reset with
      ctxs := [(0, tc)],
      tiles := [(0, tl), (1, { Tile.reset with owner := some 0, tileId := 1 }),
        (64, { Tile.reset with owner := some 0, tileId := 64 }), (65, { Tile.reset with owner := some 0, tileId := 65 })] }

/-- The device with tile 0 as `ta`. -/
def sa : State := on0 ta

/-- The word `add x3, x1, x2` (0x00184400) at word 2. -/
def taAdd : Tile := { ta with istore := [(2, 0x00184400)] }

/-- A `nest`-free word of L at word 2: `ldn` (0x48084000). -/
def taLdn : Tile := { ta with istore := [(2, 0x48084000)] }

/-- An answer with a property. -/
def okB {ε α : Type} (r : Except ε α) (p : α → Bool) : Bool :=
  match r with
  | .ok x => p x
  | .error _ => false

/-- An option that holds a value with a property. -/
def someB {α : Type} (o : Option α) (p : α → Bool) : Bool :=
  match o with
  | some x => p x
  | none => false

/-- The outcome is a next state. -/
def goesOn (o : Out) : Bool :=
  match o with
  | .next _ => true
  | _ => false

theorem goes_on {o : Out} (h : goesOn o = true) : ∃ t, o = .next t := by
  cases o with
  | next t => exact ⟨t, rfl⟩
  | fault f => cases h
  | refused r => cases h

theorem ok_of {ε α : Type} {r : Except ε α} {p : α → Prop} [DecidablePred p] (h : okB r (fun x => decide (p x)) = true) :
    ∃ x, r = .ok x ∧ p x := by
  cases r with
  | error e => exact absurd h (by simp [okB])
  | ok x => exact ⟨x, rfl, of_decide_eq_true h⟩

theorem some_of {α : Type} {o : Option α} {p : α → Prop} [DecidablePred p] (h : someB o (fun x => decide (p x)) = true) :
    ∃ x, o = some x ∧ p x := by
  cases o with
  | none => exact absurd h (by simp [someB])
  | some x => exact ⟨x, rfl, of_decide_eq_true h⟩

/-! ### Encoding and steps -/

/-- `RoundTrip`: a barrier at the top of every field. -/
theorem witness_RoundTrip : wellFormed (.bar 4 15 63) = true ∧ (encode (.bar 4 15 63)).isSome = true := by decide

/-- `DecodeOnlyItsWord`: its hypothesis at a word of the spec. -/
theorem witness_DecodeOnlyItsWord : decode 0x2060C030#32 = .ok (.ld 24 3 0 0 0 3 0) ∨ decode 0x00184400#32 = .ok (.add 3 1 2) :=
  .inr rfl

/-- `StepTakesEvent`: an event at the head of the agenda. -/
theorem witness_StepTakesEvent_agenda : ∃ s : State, s.agenda = [.act (.scrubPass 7)] ∧ wellFormed (.scrubPass 7) = true ∧
    isWord (.scrubPass 7) = false ∧ accepts s.mode (.scrubPass 7) = true :=
  ⟨{ State.reset with agenda := [.act (.scrubPass 7)] }, rfl, by decide, by decide, by decide⟩

/-- `StepTakesEvent`: after reset some agent takes the step. -/
theorem witness_StepTakesEvent_choice : State.reset.agenda = [] ∧ ∃ p, chooseStep State.reset = some p ∧ (wellFormed p.1 = true ∧
    isWord p.1 = false ∧ accepts State.reset.mode p.1 = true) := ⟨rfl, some_of (by decide)⟩

/-- `StepTakesEvent`: at an odd tick some agent takes the step too, whichever the free value picks. -/
theorem witness_StepTakesEvent_free : let s : State := { State.reset with tick := 1 }
    s.agenda = [] ∧ ∃ p, chooseStep s = some p ∧ wellFormed p.1 = true ∧ isWord p.1 = false ∧ accepts s.mode p.1 = true := by
  intro s
  have h : ∀ i ∈ offeredSteps s, wellFormed i = true ∧ isWord i = false ∧ accepts s.mode i = true := by decide
  have hl : Config.schedule s.tick % (offeredSteps s).length < (offeredSteps s).length := Nat.mod_lt _ (by decide)
  refine ⟨rfl, ((offeredSteps s)[Config.schedule s.tick % (offeredSteps s).length]'hl,
    (offeredSteps s).eraseIdx (Config.schedule s.tick % (offeredSteps s).length)), ?_, h _ (List.getElem_mem hl)⟩
  simp only [chooseStep, show s.mode = .ready from rfl, if_true, show s.tick % 2 = 1 from rfl]
  simp [List.getElem?_eq_getElem hl]

/-- `StepTakesEvent`: no agent steps in a device without power; a write of the host is an input and no event. -/
theorem witness_StepTakesEvent_rest : (∃ s : State, s.agenda = [] ∧ chooseStep s = none) ∧
    ∃ (s : State) (x : Stimulus), s.agenda = [x] ∧ ∀ i, x ≠ .act i :=
  ⟨⟨{ State.reset with mode := .off }, rfl, rfl⟩,
   ⟨{ State.reset with agenda := [.hostWrite 0 0 [1]] }, .hostWrite 0 0 [1], rfl, by simp⟩⟩

/-- `IssueRunsDecoded`: `add` at C's counter. -/
theorem witness_IssueRunsDecoded : ∃ s : State, s.agenda = [.act (.wordIssue 0 .C)] ∧ s.mode = .ready ∧ tileOk 0 = true ∧
    (s.tile 0).cntC.st ≠ .halted ∧ (s.tile 0).lull = .none ∧ (s.tile 0).cntC.pc < (s.tile 0).nwords ∧
    tGet false (s.tile 0).istoreBad (s.tile 0).cntC.pc = false ∧
    engOf (tGet 0 (s.tile 0).istore (s.tile 0).cntC.pc) = .C ∧
    decode (tGet 0 (s.tile 0).istore (s.tile 0).cntC.pc) = .ok (.add 3 1 2) ∧
    breakpointAtC (s.tile 0) = none :=
  ⟨{ on0 taAdd with agenda := [.act (.wordIssue 0 .C)] },
    rfl, rfl, rfl, by decide, by decide, by decide, by decide, by decide, rfl, by decide⟩

/-- `IssueRunsDecoded`: a `rep` (0x3E000243) whose next word holds no error. -/
theorem witness_IssueRunsDecoded_rep : isRep 0x3E000243 = true ∧ engOf 0x3E000243 = .C ∧
    decodeTableWord 32 0x3E000243 = some (.rep 1 0 0 1 3) ∧ breakpointAtC { ta with istore := [(2, 0x3E000243)] } = none ∧
    tGet false ta.istoreBad (ta.cntC.pc + 1) = false := by decide

/-- A tile with an `ldn` in L's queue, not started. -/
def taQueued : Tile := { taLdn with phase := none, qL := [newEntry taLdn 0x48084000 2 0 [] false false], nextId := 1 }

/-- `StartRunsDecoded`: the `ldn` at the head of L's queue may start. -/
theorem witness_StartRunsDecoded :
    let s : State := { on0 taQueued with agenda := [.act (.commandStart 0 .L)] }
    s.mode = .ready ∧ tileOk 0 = true ∧ ∃ q, startable (s.withAgenda []).advance 0 .L = some q ∧
      (decodeTableWord 32 q.word.toNat = some (.ldn 0 1 2 1 0 0 0 0 0 0) ∧ isNest q.word = false ∧ q.pushed = false ∧
      q.popped = false ∧ breakpointOf (s.tile 0) .L q.index = none) :=
  ⟨rfl, rfl, some_of (by decide)⟩

/-- A tile with an `accclr` (0xA5A80000) of banks 2 and 4 in X's queue and a token from L. -/
def taClear : Tile := { ta with phase := none, tokLX := 1, qX := [newEntry ta 0xA5A80000 2 0 [] false false], nextId := 1 }

/-- `StartAnswers`: an `accclr` that may start. -/
theorem witness_StartAnswers : ∃ q, startable (on0 taClear) 0 .X = some q ∧
    (decodeTableWord 32 q.word.toNat = some (.accclr 1 0 0 1 20) ∧ isNest q.word = false ∧ q.pushed = false ∧ q.popped = false ∧
    breakpointOf ((on0 taClear).tile 0) .X q.index = none ∧ (20 : BitVec 5) ≠ 0) := some_of (by decide)

/-- `WordIssueQueues`: a word of its own engine with room in the queue, a word of another, and a queue of 32 entries. -/
theorem witness_WordIssueQueues : (taLdn.cntL.st ≠ .halted ∧ taLdn.lull = .none ∧ taLdn.cntL.pc < taLdn.nwords ∧
    tGet false taLdn.istoreBad taLdn.cntL.pc = false ∧ isFlow (tGet 0 taLdn.istore taLdn.cntL.pc) = false ∧
    engOf (tGet 0 taLdn.istore taLdn.cntL.pc) = .L ∧ isNest (tGet 0 taLdn.istore taLdn.cntL.pc) = false ∧
    (taLdn.queue .L).length < 32 ∧ taLdn.pushes .L = []) ∧
    (isFlow (tGet 0 taAdd.istore taAdd.cntL.pc) = false ∧ engOf (tGet 0 taAdd.istore taAdd.cntL.pc) ≠ .L) ∧
    32 ≤ ({ taLdn with qL := List.replicate 32 (newEntry taLdn 0x48084000 2 0 [] false false) }.queue .L).length := by
  refine ⟨by decide, by decide, ?_⟩
  simp [Tile.queue]

/-! ### C: registers, arithmetic, pointers -/

/-- `RegisterArithmetic`, `BitCounts`, `Immediates`, `AddressArithmetic`: registers of the file, `x27` and `x0` among them. -/
theorem witness_RegisterArithmetic : inFile sa [1, 2] ∧ inFile sa [0] ∧ inFile sa [27, 0, 27] ∧ isLink 27 = false ∧ isLink 0 = false := by
  unfold inFile; decide

/-- `RegisterLinks`: a check that fails (no tile lies to the north); sources that are links, with a destination in the file and
one that is a link with room. -/
theorem witness_RegisterLinks :
    (∃ f ∈ regForms 2 28 1 0 0 0 0, f.1 = Instr.add 2 28 1 ∧ f.2.1 = [28, 1]) ∧
    (∃ c info, checkLinks sa.here [28, 1] [2] sa = .error (.trap c info)) ∧
    checkLinks sa.here [1, 29] [3] sa = .ok () ∧ (∃ s1, readRegs sa.here [1, 29] sa = .ok ([5, 8], s1)) ∧ isLink 3 = false ∧
    checkLinks sa.here [29, 30] [30] sa = .ok () ∧ isLink 30 = true ∧
    okB (readRegs sa.here [29, 30] sa) (fun p => p.1 == [8, 7] && decide (p.2.linkFill 0 2 < 8)) = true :=
  ⟨⟨_, List.mem_cons_self, rfl, rfl⟩, ⟨.PERM, 0, rfl⟩, rfl, ⟨_, rfl⟩, by decide, rfl, by decide, by decide⟩

/-- `RegisterLinks`: an empty second source; a register with an uncorrectable error; a neighbour's input that is full. -/
theorem witness_RegisterLinks_waits :
    (let s := on0 { ta with linkIn := [(1, [8])] }
     checkLinks s.here [29, 30] [3] s = .ok () ∧ ∃ e, readRegs s.here [29, 30] s = .error e ∧ e = .stall) ∧
    (let s := on0 { ta with badRegs := [(opmX 1 / 8, true)] }
     checkLinks s.here [1, 2] [3] s = .ok () ∧ ∃ c info, readRegs s.here [1, 2] s = .error (.trap c info)) ∧
    (let f := sa.onTile 64 fun tl => { tl with linkIn := [(0, [1, 2, 3, 4, 5, 6, 7, 8])] }
     checkLinks f.here [1, 2] [30] f = .ok () ∧ (∃ p, readRegs f.here [1, 2] f = .ok p ∧ 8 ≤ p.2.linkFill f.here 2)) :=
  ⟨⟨rfl, _, rfl, rfl⟩, ⟨rfl, .MEMERR, 0, rfl⟩, rfl, _, rfl, by decide⟩

/-- `ReadInOrder`: an empty link; a register and a link with a word, then a register; a register, then an empty link. -/
theorem witness_ReadInOrder :
    (isLink 29 = true ∧ tGet [] ((on0 { ta with linkIn := [] }).tile 0).linkIn ((29 : BitVec 5).toNat - 28) = []) ∧
    (∃ s1, readReg 0 29 sa = .ok (8, s1) ∧ ∃ v2 s2, readRegs 0 [1] s1 = .ok (v2, s2)) ∧
    (isLink 1 = false ∧ tGet [] (sa.tile 0).linkIn ((29 : BitVec 5).toNat - 28) = [8]) ∧
    (let s := on0 { ta with linkIn := [] }
     ∃ v s1, readReg 0 1 s = .ok (v, s1) ∧ ∃ e, readRegs 0 [29] s1 = .error e) :=
  ⟨⟨by decide, by decide⟩, ⟨_, rfl, _, _, rfl⟩, ⟨by decide, by decide⟩, _, _, rfl, _, rfl⟩

/-- `RegisterFile`: `x0`, the last register of the file, a link with a word, one with room, and a tile outside a phase. -/
theorem witness_RegisterFile : (sa.tile 0).badAt (opmX 0) 8 = false ∧ isLink 27 = false ∧ isLink 31 = true ∧
    tGet [] (sa.tile 0).linkIn ((31 : BitVec 5).toNat - 28) = [6] ∧ isLink 30 = true ∧ sa.linkFill 0 ((30 : BitVec 5).toNat - 28) < 8 ∧
    (let s := on0 { ta with phase := none }; (s.tile s.here).phase = none ∧ (28 : BitVec 5) ∈ [28, 1, 2]) ∧
    ∃ f ∈ regForms 1 28 2 0 0 0 0, (28 : BitVec 5) ∈ f.2.1 := by
  refine ⟨by decide, by decide, by decide, by decide, by decide, by decide, by decide, _, List.mem_cons_self, List.mem_cons_self⟩

/-- `Retirement`: no step and nothing pending; a single step; a pending trap that is delivered. -/
theorem witness_Retirement :
    (ta.dbgCtl.getLsbD 0 = false ∧ ta.pending = []) ∧
    (let tl := { ta with dbgCtl := 1 }; tl.dbgCtl.getLsbD 0 = true ∧ tl.inHandler = false) ∧
    (let tl := { ta with pending := [{ eng := .L, cause := .RANGE, info := 0, index := 1, saved := false, entry := none }] }
     tl.dbgCtl.getLsbD 0 = false ∧ tl.inHandler = false ∧ tl.lull = .none ∧ tl.escalated = false ∧ 2 ^ 14 ≤ tl.trapVec.toNat ∧
     tl.dbgCtl.getLsbD 2 = false ∧ nextPending tl.pending = some { eng := .L, cause := .RANGE, info := 0, index := 1, saved := false, entry := none }) := by
  decide

/-- `Pointers`: the tile to the south-east by its relative coordinate, on the same die, and the last offset below 2 MB; an offset and
a coordinate that are too large, and a coordinate outside the rectangle. -/
theorem witness_Pointers :
    (let s := on0 { ta with x := [(1, 65), (2, 0x1FFFFF)] }
     inFile s [1, 2] ∧ isLink 4 = false ∧ (xr s 1).toNat < 2 ^ 11 ∧ s.tileOfRel s.here (xr s 1).toNat = some 65 ∧
     (xr s 2).toNat < 2 ^ 21 ∧ dieOf 65 = dieOf s.here) ∧
    (let s := on0 { ta with x := [(1, 2 ^ 11), (2, 2 ^ 24)] }
     2 ^ 11 ≤ (xr s 1).toNat ∧ 2 ^ 21 ≤ (xr s 2).toNat ∧ 2 ^ 24 ≤ (xr s 2).toNat) ∧
    (let s := on0 { ta with x := [(1, 2), (2, 0x1FFFFF)] }
     (xr s 1).toNat < 2 ^ 11 ∧ s.tileOfRel s.here (xr s 1).toNat = none ∧ (xr s 2).toNat < 2 ^ 21) := by
  unfold inFile; decide

/-- `Pointers`: a tile on another die of a context of 16 columns and a row more than a die has. -/
theorem witness_Pointers_die : let s : State := { sa with ctxs := [(0, { tc with width := 32, height := 32 })] }
    ∃ u, s.tileOfRel s.here 16 = some u ∧ dieOf u ≠ dieOf s.here := by
  intro s
  exact some_of (p := fun u => dieOf u ≠ dieOf s.here) (by decide)

/-- `Pointers`: the rows of the table of `spc` (R174): an address that is not canonical, one of its own space, own and foreign tiles,
and each target. -/
theorem test_spc_rows :
    spcValue sa 0 0x1000000000000000 8 = noPointer ∧ spcValue sa 0 0x8000000000000008 8 = 0x8000000000000008 ∧
    spcValue sa 0 0x8000000000000008 9 = 0x9000000000000008 ∧ spcValue sa 0 0x8002000000000008 9 = noPointer ∧
    spcValue sa 0 0x9000000000000008 8 = 0x8000000000000008 ∧ spcValue sa 0 0x9001000000000008 8 = noPointer ∧
    spcValue sa 0 0x8000000000000008 11 = 0xB000000000000008 ∧ spcValue sa 0 0x9001000000000008 11 = 0xB002000000000008 ∧
    spcValue sa 0 0x9005000000000008 11 = noPointer ∧ spcValue sa 0 0xA000000000000008 11 = 0xB0000000001F0008 ∧
    spcValue sa 0 0x0000000000000008 11 = noPointer := by decide

/-- `RecordFields`: the first and the last field, and a signed one. -/
theorem witness_RecordFields : (0x00#6, 64, false) ∈ recordFields ∧ (0x2D#6, 16, false) ∈ recordFields ∧
    (0x18#6, 32, true) ∈ recordFields ∧ (0x00#6 : BitVec 6) ≠ 0x2D#6 := by decide

/-- `LayoutRecords`: registers of the file and a record without an error. -/
theorem witness_LayoutRecords : inFile sa [1] ∧ isLink 4 = false ∧ (sa.tile sa.here).badAt (opmG 15) 96 = false := by
  unfold inFile; decide

/-! ### C: memory -/

/-- `Loads`, `HomeReads`: the first bytes of the scratchpad by the local address in `x3`, and device memory by the address 0xFFF8,
the last doubleword of its range. -/
theorem witness_Loads :
    let s := on0 { ta with x := [(1, 0xFFF8), (3, 0x8000000000000000)], scratch := [(0, 1), (7, 0x80)] }
    inFile s [3] ∧ inFile s [1] ∧ isLink 4 = false ∧
    accessOk s (eaOf s 3 3 0) 8 true false (.scratch 0 0) ∧ cRead s s.here (.scratch 0 0) 8 = .ok 0x8000000000000001 ∧
    accessOk s (eaOf s 1 3 0) 8 true false (.global 0xFFF8) ∧ cRead s s.here (.global 0xFFF8) 8 = .ok 0 := by
  refine ⟨by unfold inFile; decide, by unfold inFile; decide, by decide, ⟨rfl, by decide, rfl⟩, rfl, ⟨rfl, by decide, rfl⟩, rfl⟩

/-- Tile 0 with an address of its scratchpad, 0x8000000000000000, waiting on the link from the east. -/
def taLinkAddr : Tile := { ta with linkIn := [(1, [0x8000000000000000])] }

/-- `MemoryLinks`: a base to the north of the rectangle; an empty base; a base from the east with a destination in the file, and one
whose neighbour is full; a store's base that is a link. -/
theorem witness_MemoryLinks :
    (∃ c info, checkLinks sa.here [28] [1] sa = .error (.trap c info)) ∧
    (∃ c info, checkLinks sa.here [28, 1] [] sa = .error (.trap c info)) ∧
    (let s := on0 { ta with linkIn := [] }
     checkLinks s.here [29] [1] s = .ok () ∧ (∃ e, readReg s.here 29 s = .error e ∧ e = .stall) ∧
     checkLinks s.here [29, 1] [] s = .ok () ∧ ∃ e, readRegs s.here [29, 1] s = .error e ∧ e = .stall) ∧
    (let s := on0 taLinkAddr
     checkLinks s.here [29] [1] s = .ok () ∧
     ∃ s1, readReg s.here 29 s = .ok (0x8000000000000000, s1) ∧ accessOk s1 0x8000000000000000 8 true false (.scratch 0 0) ∧
       cRead s1 s.here (.scratch 0 0) 8 = .ok 0 ∧ ∃ t, writeReg s.here 1 0 s1 = .ok t) ∧
    (let s := (on0 taLinkAddr).onTile 64 fun tl => { tl with linkIn := [(0, [1, 2, 3, 4, 5, 6, 7, 8])] }
     checkLinks s.here [29] [30] s = .ok () ∧ isLink 30 = true ∧ 8 ≤ s.linkFill s.here ((30 : BitVec 5).toNat - 28)) ∧
    (let s := on0 taLinkAddr
     checkLinks s.here [29, 1] [] s = .ok () ∧
     ∃ s1, readRegs s.here [29, 1] s = .ok ([0x8000000000000000, 5], s1) ∧
       accessOk s1 0x8000000000000000 8 false true (.scratch 0 0)) :=
  ⟨⟨.PERM, 0, rfl⟩, ⟨.PERM, 0, rfl⟩, ⟨rfl, ⟨_, rfl, rfl⟩, rfl, _, rfl, rfl⟩,
   ⟨rfl, _, rfl, ⟨rfl, by decide, rfl⟩, rfl, _, rfl⟩, ⟨rfl, by decide, by decide⟩, rfl, _, rfl, rfl, by decide, rfl⟩

/-- `HomeReads`: an unpoisoned and a poisoned line, a translation and two refusals. -/
theorem witness_HomeReads :
    poisoned (sa.tile 0).poison 0 8 64 = false ∧ dieOf 0 = dieOf 1 ∧
    poisoned ((on0 { ta with poison := [(1, true)] }).tile 0).poison 120 8 64 = true ∧
    translateFor sa 0 0xFFF8 8 true false = .ok (.device 0x10FFF8 0) ∧ poisoned sa.devPoison 0x10FFF8 8 64 = false ∧
    translateFor sa 0 0xFFF9 8 true false = .error (.refuse .RANGE) :=
  ⟨by decide, by decide, by decide, rfl, by decide, rfl⟩

/-- Tile 0 with an uncorrectable error in the first word of its publisher table. -/
def taPubsBad : Tile := { ta with badRegs := [(opmPub 0 / 8, true)] }

/-- `Stores`: a scratchpad, a publisher table with an error, device memory, and a release at scope K that waits for an update on its way. -/
theorem witness_Stores :
    inFile sa [3, 1] ∧ accessOk sa (eaOf sa 3 3 7) 8 false true (.scratch 0 56) ∧ (sa.tile 0).pubsBad = false ∧
    ((on0 taPubsBad).tile 0).pubsBad = true ∧
    (let s := on0 { ta with x := [(3, 0xFFF8)] }
     accessOk s (eaOf s 3 3 0) 8 false true (.global 0xFFF8) ∧ translateFor s s.here 0xFFF8 8 false true = .ok (.device 0x10FFF8 0)) ∧
    (let s := { sa with flits := [{ pubTile := 0, pubIdx := 0, subTile := 1, subIdx := 0,
                                    flit := { line := 0, bytes := [], cls := 0, stamp := 0 } }], stamp := 1 }
     accessOk s (eaOf s 3 3 7) 8 false true (.scratch 0 56) ∧ ∃ s1, release s s.here (2 : BitVec 3).toNat = .error (.wait s1)) ∧
    (∃ s1, afterRelease sa 1 2 s1) ∧ ∃ s1, afterRelease sa 0 2 s1 :=
  ⟨by unfold inFile; decide, ⟨rfl, by decide, rfl⟩, rfl, by decide, ⟨⟨rfl, by decide, rfl⟩, rfl⟩, ⟨⟨rfl, by decide, rfl⟩, _, rfl⟩,
   ⟨_, .inr ⟨rfl, rfl⟩⟩, _, .inl ⟨rfl, rfl⟩⟩

/-- `ScratchWrite`: the first block of a scratchpad in its canonical form. -/
theorem witness_ScratchWrite : (sa.tile 0).scratch.wf = true ∧ ([1, 2] : List Byte) ≠ [] ∧ 510 / 512 ≤ 1 ∧ 1 ≤ (511 + 2 - 1) / 512 := by
  decide

/-- `DeviceWrite`: the last two bytes of a line. -/
theorem witness_DeviceWrite : ([1, 2] : List Byte) ≠ [] ∧ 126 / 128 = (126 + ([1, 2] : List Byte).length - 1) / 128 ∧
    sa.devMem.wf = true ∧ 126 < hbmBytes ∧ hbmBytes ≤ 768000000000 ∧ 768000000000 / 128 = (768000000000 + 2 - 1) / 128 := by decide

/-- Tile 0 with an address of device memory in `x3`, 0xFFF8, in a context that lists no port, so that no slice sees an access. -/
def saDev : State := { on0 { ta with x := [(1, 5), (2, 7), (3, 0xFFF8)] } with ctxs := [(0, { tc with ports := [] })] }

/-- `StoreFrame`: a store to the scratchpad with AR, and one to device memory, go on. -/
theorem witness_StoreFrame : (inFile sa [3, 1] ∧ accessOk sa (eaOf sa 3 3 7) 8 false true (.scratch 0 56) ∧ (sa.tile 0).pubsBad = false ∧
      (∃ s1, afterRelease sa 1 2 s1) ∧ ∃ t, exec (.st 1 3 0 1 2 3 7) sa = .next t) ∧
    (inFile saDev [3, 1] ∧ accessOk saDev (eaOf saDev 3 3 0) 8 false true (.global 0xFFF8) ∧ afterRelease saDev 0 0 saDev ∧
      (∃ t, exec (.st 1 3 0 0 0 3 0) saDev = .next t) ∧
      translateFor saDev saDev.here 0xFFF8 8 false true = .ok (.device 0x10FFF8 0) ∧ 0x10FFF8 < hbmBytes ∧
      0x10FFF8 / 128 = (0x10FFF8 + 8 - 1) / 128) ∧
    ∃ t, exec (.st 1 3 0 0 0 3 0) (on0 { ta with x := [(3, 0x8000000000000000)] }) = .next t :=
  ⟨⟨by unfold inFile; decide, ⟨rfl, by decide, rfl⟩, rfl, ⟨_, .inr ⟨rfl, rfl⟩⟩, _, rfl⟩,
   ⟨by unfold inFile; decide, ⟨rfl, by decide, rfl⟩, .inl ⟨rfl, rfl⟩, ⟨_, rfl⟩, rfl, by decide, by decide⟩, _, rfl⟩

/-- `ArithmeticFrame`: an addition, a shift by an immediate and a selection of registers of the file. -/
theorem witness_ArithmeticFrame : (∀ i ∈ [Instr.add 3 1 2, .srai 3 1 63, .sel 3 1 2, .clz 3 1, .addi 3 1 0x2000],
      i ∈ (regForms 3 1 2 0x2000 0 63 0).map (·.1)) ∧
    (∀ f ∈ regForms 3 1 2 0x2000 0 63 0, inFile sa f.2.1) ∧ isLink 3 = false ∧
    ∀ f ∈ regForms 3 1 2 0x2000 0 63 0, ∃ t, exec f.1 sa = .next t := by
  unfold inFile
  refine ⟨by decide, by decide, by decide, ?_⟩
  have h : ∀ f ∈ regForms 3 1 2 0x2000 0 63 0, goesOn (exec f.1 sa) = true := by decide +kernel
  exact fun f hf => goes_on (h f hf)

/-- `AtomicFrame`: a doubleword of the scratchpad with AR, and one of device memory; the pair `x26`, `x27` of `amocas`. -/
theorem witness_AtomicFrame : (inFile sa [3] ∧ isLink 1 = false ∧ accessOk sa (xr sa 3) 8 true true (.scratch 0 0) ∧
      (∃ s1, afterRelease sa 1 2 s1) ∧ (sa.tile 0).pubsBad = false ∧ poisoned (sa.tile 0).poison 0 8 64 = false ∧
      inFile sa [1] ∧ (∃ t, exec (.amoadd 1 3 0 1 2 1) sa = .next t) ∧ inFile sa [26, 26 + 1] ∧ (26 : BitVec 5).toNat % 2 = 0 ∧
      (26 : BitVec 5).toNat ≤ 26 ∧ (∃ t, exec (.amocas 26 3 0 1 2 1) sa = .next t) ∧ ∃ t, exec (.amotas 1 3 0 1 2 1) sa = .next t) ∧
    (inFile saDev [3] ∧ accessOk saDev (xr saDev 3) 8 true true (.global 0xFFF8) ∧ afterRelease saDev 0 0 saDev ∧
      translateFor saDev saDev.here 0xFFF8 8 true true = .ok (.device 0x10FFF8 0) ∧
      translateFor saDev saDev.here 0xFFF8 8 false true = .ok (.device 0x10FFF8 0) ∧ poisoned saDev.devPoison 0x10FFF8 8 64 = false ∧
      inFile saDev [1] ∧ ∃ t, exec (.amoadd 1 3 0 0 0 1) saDev = .next t) :=
  ⟨⟨by unfold inFile; decide, by decide, ⟨rfl, by decide, rfl⟩, ⟨_, .inr ⟨rfl, rfl⟩⟩, rfl, by decide, by unfold inFile; decide,
    ⟨_, rfl⟩, by unfold inFile; decide, by decide, by decide, ⟨_, rfl⟩, _, rfl⟩,
   by unfold inFile; decide, ⟨rfl, by decide, rfl⟩, .inl ⟨rfl, rfl⟩, rfl, rfl, by decide, by unfold inFile; decide, _, rfl⟩

/-- `Atomics`: a doubleword of the scratchpad, and the pair `x26`, `x27` of `amocas`. -/
theorem witness_Atomics : inFile sa [3] ∧ isLink 1 = false ∧ accessOk sa (xr sa 3) 8 true true (.scratch 0 0) ∧
    poisoned (sa.tile 0).poison 0 8 64 = false ∧ (sa.tile 0).pubsBad = false ∧ inFile sa [26, 26 + 1] ∧ (26 : BitVec 5).toNat % 2 = 0 ∧
    (26 : BitVec 5).toNat ≤ 26 :=
  ⟨by unfold inFile; decide, by decide, ⟨rfl, by decide, rfl⟩, by decide, rfl, by unfold inFile; decide, by decide, by decide⟩

/-- `Atomics`: device memory, with and without AR, and a release that waits. -/
theorem witness_Atomics_device :
    (let s := on0 { ta with x := [(3, 0xFFF8)] }
     accessOk s (xr s 3) 8 true true (.global 0xFFF8) ∧ translateFor s s.here 0xFFF8 8 true true = .ok (.device 0x10FFF8 0) ∧
     ∃ bs, routeRead s (.device 0x10FFF8 0) 8 = .ok bs) ∧
    (∃ s1, afterRelease sa 1 2 s1) ∧
    (let s := { sa with flits := [{ pubTile := 0, pubIdx := 0, subTile := 1, subIdx := 0,
                                    flit := { line := 0, bytes := [], cls := 0, stamp := 0 } }], stamp := 1 }
     ∃ s1, release s s.here (2 : BitVec 3).toNat = .error (.wait s1)) :=
  ⟨⟨⟨rfl, by decide, rfl⟩, rfl, _, rfl⟩, ⟨_, .inr ⟨rfl, rfl⟩⟩, _, rfl⟩

/-- `AccessTraps`: a misaligned address. -/
theorem witness_AccessTraps : let s := on0 { ta with x := [(3, 0x8000000000000004)] }
    inFile s [3, 1] ∧ scalarHome s s.here .C (eaOf s 3 3 0) 8 8 = .error .ALIGN :=
  ⟨by unfold inFile; decide, rfl⟩

/-- `AddressChecks`: an address that is not canonical and one of space 0xB; another tile's local address; a misaligned one; one past the end
of space 0xA and of 0x0; one in the private band and one outside the rectangle; and an address of each space that passes. -/
theorem witness_AddressChecks :
    ¬ canonicalAddr 0x1000000000000000 ∧ (0xB000000000000000 : Word).extractLsb' 60 4 = 11#4 ∧
    (canonicalAddr 0x8002000000000000 ∧ (0x8002000000000000 : Word).extractLsb' 49 11 ≠ (sa.tile 0).tileId) ∧
    (canonicalAddr 0x8000000000000004 ∧ (0x8000000000000004 : Word).toNat % 8 ≠ 0) ∧
    (canonicalAddr 0xA000000000004000 ∧ leavesSpace 0xA000000000004000 8) ∧
    (canonicalAddr 0x0FFFFFFFFFFFFFF8 ∧ leavesSpace 0x0FFFFFFFFFFFFFF8 16) ∧
    (canonicalAddr 0x80000000001F0000 ∧ ¬ leavesSpace 0x80000000001F0000 8 ∧ forbidden sa 0 0x80000000001F0000 8) ∧
    (canonicalAddr 0x9005000000000000 ∧ ¬ leavesSpace 0x9005000000000000 8 ∧ forbidden sa 0 0x9005000000000000 8) ∧
    (canonicalAddr 0 ∧ ¬ leavesSpace 0 8 ∧ ¬ forbidden sa 0 0 8) ∧
    (canonicalAddr 0x80000000001EFFF8 ∧ ¬ leavesSpace 0x80000000001EFFF8 8 ∧ ¬ forbidden sa 0 0x80000000001EFFF8 8) ∧
    (canonicalAddr 0xA000000000003FF8 ∧ ¬ leavesSpace 0xA000000000003FF8 8 ∧ ¬ forbidden sa 0 0xA000000000003FF8 8) ∧
    (canonicalAddr 0x9001000000000000 ∧ ¬ leavesSpace 0x9001000000000000 8 ∧ ¬ forbidden sa 0 0x9001000000000000 8) := by
  unfold canonicalAddr leavesSpace forbidden
  refine ⟨?_, ?_, ?_, ?_, ?_, ?_, ?_, ?_, ?_, ?_, ?_, ?_⟩ <;> decide

/-- `RecordMoves`: 96 bytes at the start of the own scratchpad. -/
theorem witness_RecordMoves : inFile sa [3] ∧ scalarHome sa sa.here .C (xr sa 3) 96 8 = .ok (.scratch sa.here 0) ∧
    (∀ rd wr, watchOf (sa.tile sa.here) (xr sa 3) 96 rd wr = none) ∧
    checkLapsed sa sa.here (.scratch sa.here 0) 96 = .ok () ∧ poisoned (sa.tile sa.here).poison 0 96 64 = false ∧
    (sa.tile sa.here).badAt (opmG 15) 96 = false :=
  ⟨by unfold inFile; decide, rfl, by decide, rfl, by decide, by decide⟩

/-- Tile 0 with an address of device memory in `x3`, in a context that lists no port, so that no slice sees an access. -/
def saFar : State := { on0 { ta with x := [(3, 0xFFA0)] } with ctxs := [(0, { tc with ports := [] })] }

/-- The states between the twelve doublewords of a `tlst` of zeros. -/
def farWrites : Nat → State
  | 0 => saFar
  | k + 1 => match cWrite (farWrites k) 0 (.global (0xFFA0 + 8 * k)) 8 0 0 with
    | .ok s => s
    | .error _ => farWrites k

theorem farWrites_ok (k : Nat) (h : okB (cWrite (farWrites k) 0 (.global (0xFFA0 + 8 * k)) 8 0 0) (fun _ => true) = true) :
    cWrite (farWrites k) 0 (.global (0xFFA0 + 8 * k)) 8 0 0 = .ok (farWrites (k + 1)) := by
  rw [farWrites]
  generalize cWrite (farWrites k) 0 (.global (0xFFA0 + 8 * k)) 8 0 0 = x at h ⊢
  cases x with
  | ok s => rfl
  | error e => cases h

/-- `RecordMoves`: 96 bytes of device memory, read and written a doubleword at a time; a release that has been made, and one that waits. -/
theorem witness_RecordMoves_device : let s := saFar
    inFile s [3] ∧ scalarHome s s.here .C (xr s 3) 96 8 = .ok (.global 0xFFA0) ∧
    (∀ rd wr, watchOf (s.tile s.here) (xr s 3) 96 rd wr = none) ∧ checkLapsed s s.here (.global 0xFFA0) 96 = .ok () ∧
    (∀ k, k < 12 → cRead s s.here (.global (0xFFA0 + 8 * k)) 8 = .ok 0) ∧
    (farWrites 0 = s ∧ ∀ k, k < 12 → cWrite (farWrites k) s.here (.global (0xFFA0 + 8 * k)) 8 0 0 = .ok (farWrites (k + 1))) ∧
    (∃ s1, afterRelease s 1 2 s1) ∧
    (let f := { sa with flits := [{ pubTile := 0, pubIdx := 0, subTile := 1, subIdx := 0,
                                    flit := { line := 0, bytes := [], cls := 0, stamp := 0 } }], stamp := 1 }
     ∃ s1, release f f.here (2 : BitVec 3).toNat = .error (.wait s1)) := by
  have reads : ∀ k, k < 12 → okB (cRead saFar 0 (.global (0xFFA0 + 8 * k)) 8) (fun v => decide (v = 0)) = true := by decide +kernel
  have writes : ∀ k, k < 12 → okB (cWrite (farWrites k) 0 (.global (0xFFA0 + 8 * k)) 8 0 0) (fun _ => true) = true := by
    decide +kernel
  exact ⟨by unfold inFile; decide, rfl, by decide, rfl, fun k hk => let ⟨_, h, e⟩ := ok_of (p := (· = 0)) (reads k hk); e ▸ h,
    ⟨rfl, fun k hk => farWrites_ok k (writes k hk)⟩, ⟨_, .inr ⟨rfl, rfl⟩⟩, _, rfl⟩
/-! ### C: synchronisation -/

/-- Tile 0 in no phase. -/
def tq : Tile := { ta with phase := none }

/-- An update on its way from tile 0 to tile 1. -/
def flit01 : FlitInFlight :=
  { pubTile := 0, pubIdx := 0, subTile := 1, subIdx := 0, flit := { line := 0, bytes := [], cls := 0, stamp := 0 } }

/-- A posted store of C of tile 0, in class 0, that no peer has acknowledged. -/
def posted0 : PeerStore :=
  { author := .engine 0 .C 0, cls := 0, number := 0, ctx := 0, gen := 0, peer := 1, va := 0, addr := 0, bytes := [1] }

/-- A device with that update, and with that posted store, where one more has been counted than it. -/
def saFlit : State := { on0 tq with flits := [flit01], stamp := 1 }
def saPosted : State := { on0 tq with posted := [posted0], nextRequest := 1 }

/-- `Fences`: scopes T and Y; a fence that begins with nothing under way, with an update of class 0 under way, and with a posted store
at Y; one that has waited since the update was formed, and one since before that. -/
theorem witness_Fences : (0 : BitVec 3) = 0 ∧ (4 : BitVec 3) ≠ 0 ∧ (3 : BitVec 3).toNat < 4 ∧ (sa.tile sa.here).relSince = none ∧
    (let s2 := closeContext (closeBatches sa sa.here) sa.here
     settledWithin s2 sa.here 4 0xFFFF s2.stamp = true ∧ postedWithin s2 sa.here 4 [.C] 0xFFFF s2.nextRequest = true) ∧
    (let s2 := closeContext (closeBatches saFlit saFlit.here) saFlit.here
     settledWithin s2 saFlit.here 4 0x0001 s2.stamp = false) ∧
    (let s2 := closeContext (closeBatches saPosted saPosted.here) saPosted.here
     postedWithin s2 saPosted.here 4 [.C] 0x0001 s2.nextRequest = false) ∧
    (let s := saFlit.onTile 0 fun tl => { tl with relSince := some (1, 0) }
     (s.tile s.here).relSince = some (1, 0) ∧ settledWithin s s.here 4 1 1 = false ∧ settledWithin s s.here 4 1 0 = true ∧
     postedWithin s s.here 4 [.C] 1 0 = true) := by decide

/-- `BarrierWords`: the group of one tile and that of the whole context fit, and one of four rows does not, of a selector not reserved;
instances that have completed, that have not been arrived at, and one that C waits at; phases of the same and of another selector,
with the wires empty and not; engines behind C, and a command in flight. -/
theorem witness_BarrierWords :
    let s := on0 tq
    gselReserved 0 = false ∧ gselReserved 9 = false ∧ s.groupFits s.here 0 = true ∧ s.groupFits s.here 9 = true ∧
    (gselReserved 14 = false ∧ s.groupFits s.here 14 = false) ∧
    (tq.arrival 9).waiting = false ∧ (tq.arrival 9).done = false ∧ tq.phase = none ∧
    (let d := { tq with arrivals := [(9, { Arrival.none with done := true })] }
     (d.arrival 9).waiting = false ∧ (d.arrival 9).done = true ∧ d.phase = none) ∧
    ({ tq with arrivals := [(9, { Arrival.none with waiting := true })] }.arrival 9).waiting = true ∧
    (ta.phase = some 9 ∧ ta.wiresEmpty = true ∧ { ta with linkOut := [(1, [5])] }.wiresEmpty = false) ∧
    tq.drainedToC = true ∧ tq.noneInFlight = true ∧
    { tq with cntC := { pc := 3, st := .running, ended := false } }.drainedToC = false ∧
    { tq with qL := [{ newEntry tq 0x48084000 1 0 [] false false with phase := .running }] }.noneInFlight = false ∧
    gselReserved 0x30 = true ∧ gselReserved 7 = true ∧ (9 : BitVec 6) ≠ 0 := by decide

/-- `BarrierWords`: releases at scopes D and K, of C and of the four engines: made where nothing is under way, and waiting for an update. -/
theorem witness_BarrierWords_release :
    (∃ s1, releaseC (on0 tq) 0 [.C] allClasses (1 : BitVec 3).toNat = .ok s1) ∧
    (∃ s1, releaseC (on0 tq) 0 [.C, .L, .X, .S] allClasses (2 : BitVec 3).toNat = .ok s1) ∧
    (∃ s1, releaseC saFlit 0 [.C] allClasses (2 : BitVec 3).toNat = .error (.wait s1)) ∧
    ∃ s1, releaseC saFlit 0 [.C, .L, .X, .S] allClasses (2 : BitVec 3).toNat = .error (.wait s1) :=
  ⟨⟨_, rfl⟩, ⟨_, rfl⟩, ⟨_, rfl⟩, _, rfl⟩

/-- `BarrierCompletes`: two tiles of a context with programs have arrived at the instance of their group. -/
theorem witness_BarrierCompletes :
    let w : Tile := { tq with arrivals := [(1, { Arrival.none with waiting := true, bart := true })] }
    let s := (on0 w).onTile 1 fun tl => { tl with hasText := true, arrivals := w.arrivals }
    gselReserved 1 = false ∧ s.groupFits 0 1 = true ∧ barrierReady s 0 1 = true ∧ (s.members 0 1).Nodup ∧ s.members 0 1 = [0, 1] := by
  decide

/-- `TransferPhases`: outside a phase, and in one: the outputs east and south have neighbours in the group. -/
theorem witness_TransferPhases_mux : tq.phase = none ∧ tq.cwait = none ∧ ta.phase = some 9 ∧
    (sa.phaseNeighbour sa.here 9 1).isSome = true ∧ (sa.phaseNeighbour sa.here 9 2).isSome = true ∧ isLink 4 = false := by decide

/-- `TransferPhases`: `tx` of more than 4,096 doublewords; one that sends two to the east; one that receives one from there. -/
theorem witness_TransferPhases_tx :
    let s := on0 { ta with x := [(1, 0x8000000000000040), (2, 2), (4, 0x8000000000000080), (5, 4097), (6, 1)] }
    inFile s [1, 2, 4] ∧ inFile s [1, 5, 4] ∧ inFile s [1, 6, 4] ∧ 4096 < (xr s 5).toNat ∧ (xr s 2).toNat ≤ 4096 ∧
    txHome s s.here (xr s 1) (8 * (xr s 2).toNat) = .ok 0x40 ∧ (s.phaseNeighbour s.here 9 1).isSome = true ∧
    (s.tile 0).source 1 = 0 ∧ poisoned (s.tile 0).poison 0x40 16 64 = false ∧ lapsedAt (s.tile 0) 0x40 16 = none ∧
    (s.tile 0).subsBad = false ∧ (s.tile 0).pubsBad = false ∧
    s.linkFill s.here 1 + (xr s 2).toNat ≤ 8 ∧
    txHome s s.here (xr s 4) (8 * (xr s 6).toNat) = .ok 0x80 ∧ (s.tile 0).forwarded 1 = false ∧
    lapsedAt (s.tile 0) 0x80 8 = none ∧ tGet [] (s.tile 0).linkIn 1 = [8] ∧ (xr s 6).toNat ≤ 1 := by
  unfold inFile; exact ⟨by decide, by decide, by decide, by decide, by decide, rfl, by decide, by decide, by decide, by decide,
    by decide, by decide, by decide, rfl, by decide, by decide, by decide, by decide⟩

/-- All sixteen entries of the monitor table armed for other lines. -/
def monFull : Table MonEntry := (List.range 16).map fun k => (k, { line := BitVec.ofNat 64 (64 * k + 64), wide := true, armed := true })

/-- The monitor table with entry 2 armed for the first line of tile 0's scratchpad. -/
def monOwn : Table MonEntry := [(2, { line := (lineOf sa (.scratch 0 0)).1, wide := false, armed := true })]

/-- `Waitw`, `Arming`: a value that differs, an equal one with a free entry, a full table, a line that an entry watches already, an entry
that has fired, and a table with an uncorrectable error. -/
theorem witness_Waitw :
    let s := on0 { tq with x := [(1, 1), (3, 0x8000000000000000)] }
    let line := (lineOf s (.scratch 0 0)).1
    let wide := (lineOf s (.scratch 0 0)).2
    inFile s [3, 1] ∧ inFile s [3, 0] ∧ isLink 4 = false ∧ (s.tile 0).cwait = none ∧ accessOk s (xr s 3) 8 true false (.scratch 0 0) ∧
    cRead s s.here (.scratch 0 0) 8 = .ok 0 ∧ 0 ≠ (xr s 1).toNat % 2 ^ 64 ∧ 0 = (xr s 0).toNat % 2 ^ 64 ∧
    tq.badAt (opmMon 0) (16 * monBytes) = false ∧ tq.watcher line wide = none ∧ tq.freeMon = some 0 ∧ tq.fired = 0 ∧
    { tq with fired := 4 }.fired ≠ 0 ∧ { tq with mon := monFull }.freeMon = none ∧
    { tq with mon := monFull }.watcher line wide = none ∧ { tq with mon := monOwn }.watcher line wide = some 2 ∧
    { tq with badRegs := [(opmMon 0 / 8, true)] }.badAt (opmMon 0) (16 * monBytes) = true := by
  unfold inFile
  exact ⟨by decide, by decide, by decide, rfl, ⟨rfl, by decide, rfl⟩, rfl, by decide, by decide, by decide, by decide, by decide, by decide,
    by decide, by decide, by decide, by decide, by decide⟩

/-- `Arming`: an address that its checks refuse, one that its translation refuses, and one that it translates. -/
theorem witness_Arming :
    let s := on0 { tq with x := [(1, 4), (2, 0x10000), (3, 0xFFF8)] }
    inFile s [1] ∧ inFile s [2] ∧ inFile s [3] ∧ scalarHome s s.here .C (xr s 1) 8 8 = .error .ALIGN ∧
    scalarHome s s.here .C (xr s 2) 8 8 = .ok (.global 0x10000) ∧
    translateFor s s.here 0x10000 8 true false = .error (.refuse .RANGE) ∧
    scalarHome s s.here .C (xr s 3) 8 8 = .ok (.global 0xFFF8) ∧
    ∃ r, translateFor s s.here 0xFFF8 8 true false = .ok r := by
  unfold inFile; exact ⟨by decide, by decide, by decide, rfl, rfl, rfl, rfl, _, rfl⟩

/-- Tile 0 asleep in a `waitw` (`x1`, at `x3`, 32 bits: the word of `.waitw 1 3 0 0 0 0`). -/
def tAsleep : Tile := { tq with cwait := some .asleep, istore := [(2, (encode (.waitw 1 3 0 0 0 0)).getD 0)] }

/-- `WakesUp`: a sleeper with a fired entry, and one with none. -/
theorem witness_WakesUp :
    let s := (on0 { tAsleep with fired := 1 }).focused 0 0
    (s.tile 0).cwait = some .asleep ∧ (s.tile 0).instrAtC = some (.waitw 1 3 0 0 0 0) ∧ inFile s [3, 1] ∧
    accessOk s (xr s 3) 4 true false (.scratch 0 0) ∧ cRead s 0 (.scratch 0 0) 4 = .ok 0 ∧ (s.tile 0).fired ≠ 0 ∧
    tAsleep.fired = 0 := by
  unfold inFile; exact ⟨rfl, by decide, by decide, ⟨rfl, by decide, rfl⟩, rfl, by decide, by decide⟩

/-- `SlotRequests`: slot 7 of the own tile for role 3: full for it, full for another role, and empty. -/
theorem witness_SlotRequests :
    let m (sl : Slot) := on0 { tq with x := [(1, 0), (2, 0x307)], ring := [(7, sl)] }
    let s := m { data := 9, full := true, owner := 3 }
    inFile s [1, 2] ∧ inFile s [4] ∧ (s.tile s.here).cwait = none ∧ (xr s 1).toNat < 2 ^ 11 ∧
    s.tileOfRel s.here (xr s 1).toNat = some 0 ∧ isLink 4 = false ∧ (xr s 2).toNat % 8 = 7 ∧
    (tGet Slot.zero (s.tile 0).ring 7).full = true ∧ (tGet Slot.zero (s.tile 0).ring 7).owner = (xr s 2).extractLsb' 8 4 ∧
    (∀ q ∈ (s.tile 0).slotWaits, q.slot = 7 → q.tile = s.here ∨ slotReady (tGet Slot.zero (s.tile 0).ring 7) q.acquire q.role = false) ∧
    (tGet Slot.zero ((m { data := 9, full := true, owner := 2 }).tile 0).ring 7).owner ≠ (xr s 2).extractLsb' 8 4 ∧
    (tGet Slot.zero ((m Slot.zero).tile 0).ring 7).full = false := by
  unfold inFile; decide

/-- `SlotRequests`: a slot with an uncorrectable error, and one that another tile's request waits on and is ready for. -/
theorem witness_SlotRequests_others :
    let r : SlotRequest := { tile := 1, slot := 7, acquire := true, role := 3, data := 0 }
    let s := on0 { tq with ring := [(7, { data := 9, full := true, owner := 3 })], slotWaits := [r] }
    { tq with badRegs := [(opmSlot 7 / 8, true)] }.badAt (opmSlot 7) slotBytes = true ∧ tq.badAt (opmSlot 7) slotBytes = false ∧
    r ∈ (s.tile 0).slotWaits ∧ r.slot = 7 ∧ r.tile ≠ s.here ∧
    slotReady (tGet Slot.zero (s.tile 0).ring 7) r.acquire r.role = true := by decide

/-- `SlotRequests`: the release of `rels`, made at scope T, and waiting at scope K for an update. -/
theorem witness_SlotRequests_release : (∃ s0, release (on0 tq) 0 (0 : BitVec 3).toNat = .ok s0) ∧
    ∃ s0, release saFlit 0 (2 : BitVec 3).toNat = .error (.wait s0) := ⟨⟨_, rfl⟩, _, rfl⟩

/-- `SlotServed`: an `acqs` of tile 0 that has waited for slot 7, now full for its role. -/
theorem witness_SlotServed_acqs :
    let r : SlotRequest := { tile := 0, slot := 7, acquire := true, role := 3, data := 0 }
    let s := on0 { tq with x := [(1, 0), (2, 0x307)], ring := [(7, { data := 9, full := true, owner := 3 })], slotWaits := [r],
                           cwait := some (.slot 0 7), istore := [(2, (encode (.acqs 4 1 2 0)).getD 0)] }
    let s1 := s.setTile 0 { s.tile 0 with ring := tSet .zero (s.tile 0).ring 7 { data := 9, full := false, owner := 3 },
                                          slotWaits := (s.tile 0).slotWaits.erase r }
    (s.tile 0).slotWaits.find? (fun q => q.slot = 7 && slotReady (tGet Slot.zero (s.tile 0).ring 7) q.acquire q.role) = some r ∧ (tGet Slot.zero (s.tile 0).ring 7).full = true ∧
    (tGet Slot.zero (s.tile 0).ring 7).owner = r.role ∧ isLink 4 = false ∧
    (s1.tile r.tile).instrAtC = some (.acqs 4 1 2 0) ∧ acqsSource 1 2 r.tile s1 = .ok (0, 7, 3, s1) :=
  ⟨by decide, by decide, by decide, by decide, by decide, rfl⟩

/-- `SlotServed`: a `rels` that has waited for slot 7, now empty. -/
theorem witness_SlotServed_rels :
    let r : SlotRequest := { tile := 0, slot := 7, acquire := false, role := 3, data := 0 }
    let s := on0 { tq with x := [(1, 0), (2, 0x307)], slotWaits := [r], cwait := some (.slot 0 7),
                           istore := [(2, (encode (.rels 4 1 2 0)).getD 0)] }
    let s1 := s.setTile 0 { s.tile 0 with ring := tSet .zero (s.tile 0).ring 7 { data := 0, full := true, owner := 3 },
                                          slotWaits := (s.tile 0).slotWaits.erase r }
    (s.tile 0).slotWaits.find? (fun q => q.slot = 7 && slotReady (tGet Slot.zero (s.tile 0).ring 7) q.acquire q.role) = some r ∧ (tGet Slot.zero (s.tile 0).ring 7).full = false ∧
    (s1.tile r.tile).instrAtC = some (.rels 4 1 2 0) ∧ ∃ x, relsSource 4 1 2 r.tile s1 = .ok (0, 7, 3, x, s1) :=
  ⟨by decide, by decide, by decide, _, rfl⟩

/-- `Renq`: blocks of one word, of none, and with a reserved bit of the header set. -/
theorem witness_Renq_push :
    let m (hdr : Byte) := on0 { tq with x := [(1, 0), (2, 0x8000000000000040)], scratch := [(0x40, hdr)] }
    let s := m 1
    inFile s [1, 2] ∧ (s.tile s.here).cwait = none ∧ (xr s 1).toNat < 2 ^ 11 ∧ s.tileOfRel s.here (xr s 1).toNat = some 0 ∧
    spaceOf (xr s 2) = 8 ∧ scalarHome s s.here .C (xr s 2) 64 64 = .ok (.scratch s.here 0x40) ∧
    poisoned (s.tile s.here).poison 0x40 64 64 = false ∧ lapsedAt (s.tile s.here) 0x40 64 = none ∧ (s.tile s.here).subsBad = false ∧
    (s.tile s.here).scratch.readNat 0x40 4 = 1 ∧ ((m 16).tile 0).scratch.readNat 0x40 4 / 16 ≠ 0 ∧
    ((m 0).tile 0).scratch.readNat 0x40 4 = 0 := by
  unfold inFile; exact ⟨by decide, by decide, by decide, by decide, by decide, rfl, by decide, by decide, by decide, by decide, by decide, by decide⟩

/-- `Renq`: a push of fifteen words and a queue with room for it. -/
theorem witness_Renq_accept : let tl := { tq with pushL := [{ tile := 0, words := List.replicate 15 0 }] }
    tl.pushes .L = [{ tile := 0, words := List.replicate 15 0 }] ∧ tl.lull = .none ∧ (tl.queue .L).length + 15 ≤ 32 := by
  decide

/-- A subscription of tile 0, entry 0, to lines of tile 1. -/
def sSub : State :=
  (on0 { tq with x := [(1, 0), (2, 32), (4, 0x8002000000000000), (5, 0x00200040)],
                 subs := [(0, { SubEntry.zero with state := 1, pub := 1, lines := 1, soff := 0x40 })] }).onTile 1
    fun tl => { tl with pubs := [(0, { PubEntry.zero with valid := true, lines := 1, subTile := 0 })] }

/-- `SubscriptionWords`: a subscription to one line of tile 1 that passes its checks, with free entries, and with tables full. -/
theorem witness_SubscriptionWords_sub : inFile sSub [4, 5] ∧ isLink 6 = false ∧
    (∃ g, subChecks sSub sSub.here (xr sSub 4) (xr sSub 5) = .ok g ∧ g.spillK = 0 ∧ g.pub = 1) ∧
    (∃ i, lowestFree (fun k => (tGet SubEntry.zero (sSub.tile 0).subs k).state ≠ 0) = some i) ∧
    (∃ e, lowestFree (fun k => (tGet PubEntry.zero (sSub.tile 1).pubs k).valid) = some e) ∧
    (let full : Table SubEntry := (List.range 32).map fun k => (k, { SubEntry.zero with state := 1 })
     lowestFree (fun k => (tGet SubEntry.zero full k).state ≠ 0) = none) ∧
    (let full : Table PubEntry := (List.range 32).map fun k => (k, { PubEntry.zero with valid := true })
     lowestFree (fun k => (tGet PubEntry.zero full k).valid) = none) ∧
    (∃ c, subChecks sSub sSub.here (xr sSub 4) 0 = .error (.trap c 0)) := by
  unfold inFile
  exact ⟨by decide, by decide, ok_of (by decide), ⟨1, by decide⟩, ⟨1, by decide⟩, by decide, by decide, ⟨.RANGE, rfl⟩⟩

/-- `SubscriptionWords`: the same with one unit of spill ring: first asked for, then granted, then refused; tables without an error. -/
theorem witness_SubscriptionWords_spill : let p : Word := 0x8002000000000000; let q : Word := 0x0001000000200040
    (∃ g, subChecks sSub sSub.here p q = .ok g ∧ g.spillK ≠ 0) ∧ (sSub.tile 0).badAt (opmSub 0) (32 * subBytes) = false ∧
    (sSub.tile 1).badAt (opmPub 0) (32 * pubBytes) = false ∧ (sSub.tile 0).cwait = none ∧
    { tq with cwait := some (.spill 1 (some true)) }.cwait = some (.spill 1 (some true)) ∧
    { tq with cwait := some (.spill 1 (some false)) }.cwait = some (.spill 1 (some false)) := by
  exact ⟨ok_of (by decide), by decide, by decide, by decide, rfl, rfl⟩

/-- `SubscriptionWords`, `Resync`: entry 0, live, of another tile; an index of 32; updates settled and not settled. -/
theorem witness_SubscriptionWords_rest : inFile sSub [1] ∧ (xr sSub 1).toNat < 32 ∧ inFile sSub [2] ∧ 32 ≤ (xr sSub 2).toNat ∧
    (tGet SubEntry.zero (sSub.tile 0).subs 0).state ≠ 0 ∧ (sSub.tile 0).badAt (opmSub 0) subBytes = false ∧
    (sSub.tile 0).badAt (opmPub 0) (32 * pubBytes) = false ∧
    sSub.tileOfRel sSub.here (tGet SubEntry.zero (sSub.tile 0).subs 0).pub.toNat = some 1 ∧
    (sSub.tile 0).cwait = none ∧ unsettledBefore (closeBatches sSub 0) 0 (closeBatches sSub 0).stamp = false ∧
    (let s := { sSub with flits := [flit01], stamp := 1 }
     unsettledBefore (closeBatches s 0) 0 (closeBatches s 0).stamp = true) := by
  unfold inFile; decide

/-- `Resync`: a copy of one line that is under way, before its line and after it. -/
theorem witness_Resync : let e := tGet SubEntry.zero (sSub.tile 0).subs 0
    ((sSub.onTile 0 fun tl => { tl with cwait := some (.resync 0 0) }).tile 0).cwait = some (.resync 0 0) ∧ 0 < e.lines.toNat ∧
    e.soff.toNat % 64 = 0 ∧ e.lines.toNat ≤ 1 := by decide
/-! ### C: control flow, CSRs, traps, `rep` -/

/-- `Branches`: C at word 2 of 16: targets at both ends of the text and outside it, DRIFT reached and not, a condition that holds
and one that does not, and a link operand. -/
theorem witness_Branches :
    ta.driftHolds = false ∧ { ta with outcomes := List.replicate 16 (.goto 0) }.driftHolds = true ∧ pcOf sa = 2 ∧
    (pcOf sa : Int) + (0x3FFE : BitVec 14).toInt = 0 ∧ 0 < ta.nwords ∧ (pcOf sa : Int) + (13 : BitVec 14).toInt = 15 ∧ 15 < ta.nwords ∧
    (pcOf sa : Int) + (0x3FFD : BitVec 14).toInt < 0 ∧ (ta.nwords : Int) ≤ (pcOf sa : Int) + (14 : BitVec 14).toInt ∧
    inFile sa [1, 2] ∧ decide (xr sa 1 = xr sa 2) = false ∧ decide (xr sa 1 ≠ xr sa 2) = true ∧ isLink 28 = true ∧ inFile sa [1] ∧
    isLink 31 = true ∧ (branches[5]?).isSome = true := by
  unfold inFile; decide

/-- `CallsAndLoops`: counts 0, 1 and 2, and return indexes 15 and 16 of a text of 16. -/
theorem witness_CallsAndLoops :
    let s := on0 { ta with x := [(1, 1), (2, 2), (3, 15), (4, 16)] }
    (s.tile 0).driftHolds = false ∧ inFile s [0] ∧ inFile s [1] ∧ inFile s [2] ∧ inFile s [3] ∧ inFile s [4] ∧
    (xr s 0).toNat = 0 ∧ (xr s 1).toNat = 1 ∧ 2 ≤ (xr s 2).toNat ∧ (xr s 3).toNat < (s.tile 0).nwords ∧
    (s.tile 0).nwords ≤ (xr s 4).toNat := by
  unfold inFile; decide

/-- `Halt`: in the handler, with DRIFT reached, and neither. -/
theorem witness_Halt : { ta with inHandler := true }.inHandler = true ∧ ta.inHandler = false ∧
    { ta with outcomes := List.replicate 16 (.goto 0) }.driftHolds = true ∧ ta.driftHolds = false := by decide

/-- `PlainCsrs`: a number that is not assigned, a read-only CSR, TRAPVEC with values that it takes and does not take, DRIFT with 64
and 65. -/
theorem witness_PlainCsrs :
    let s := on0 { ta with x := [(1, 0x7FFF), (2, 0x8000), (4, 64), (5, 65)] }
    csrRead s s.here 0x7FF = none ∧ (0x018 : BitVec 11).toNat ∈ [0x000, 0x001, 0x002, 0x018] ∧
    csrRead s s.here 0x008 = some 0x4000 ∧ csrStalls (s.tile 0) 0x008 = false ∧ (s.tile 0).badAt (opmCsr 0x008) 8 = false ∧
    isLink 3 = false ∧ inFile s [1] ∧ inFile s [2] ∧ decide ((xr s 1).toNat < 2 ^ 15) = true ∧
    decide ((xr s 2).toNat < 2 ^ 15) = false ∧ csrRead s s.here 0x003 = some 16 ∧
    decide (1 ≤ (xr s 4).toNat ∧ (xr s 4).toNat ≤ 64) = true ∧ decide (1 ≤ (xr s 5).toNat ∧ (xr s 5).toNat ≤ 64) = false := by
  unfold inFile; decide

/-- `StickyFlags`: X at C's place, and X behind it. -/
theorem witness_StickyFlags : inFile sa [1] ∧ ta.badAt (opmCsr 0x019) 8 = false ∧ ta.retiredToC .X = true ∧
    { ta with cntX := { pc := 1, st := .running, ended := false } }.retiredToC .X = false := by
  unfold inFile; decide

/-- `ControlCsrs`: a group selector that fits, one of three reserved in the lower bits, one beyond the rectangle and a value of 64; RES code 3
and another; `REPIDX`. -/
theorem witness_ControlCsrs :
    let s := on0 { ta with x := [(1, 9), (2, 7), (3, 14), (4, 64), (5, 0xC00), (6, 0x400)] }
    inFile s [1, 2, 3, 4] ∧ inFile s [5, 6] ∧ csrRead s s.here 0x011 = some 0 ∧ csrRead s s.here 0x009 = some 0 ∧
    csrRead s s.here 0x00B = some 0 ∧ ta.badAt (opmCsr 0x011) 8 = false ∧ ta.badAt (opmCsr 0x009) 8 = false ∧
    ta.badAt (opmCsr 0x00B) 8 = false ∧
    ((xr s 1).toNat < 64 ∧ gselReserved ((xr s 1).setWidth 6) = false ∧ s.groupFits s.here ((xr s 1).setWidth 6) = true) ∧
    gselReserved ((xr s 2).setWidth 6) = true ∧ s.groupFits s.here ((xr s 3).setWidth 6) = false ∧ 64 ≤ (xr s 4).toNat ∧
    (xr s 5).extractLsb' 10 2 = 3#2 ∧ (xr s 6).extractLsb' 10 2 ≠ 3#2 ∧
    (csrForms 1 0x011 0 (xr s 1)).map (·.1) = [.csrw 1 0x011, .csrs 1 0x011, .csrc 1 0x011] := by
  unfold inFile; decide

/-- `StatusCsrs`: the three registers, with DISARM written as 1 and as 0. -/
theorem witness_StatusCsrs :
    let s := on0 { ta with x := [(1, 4), (2, 0)] }
    inFile s [1] ∧ inFile s [2] ∧ csrRead s s.here 0x01A = some 0 ∧ csrRead s s.here 0x01B = some 0 ∧ csrRead s s.here 0x01C = some 0 ∧
    ta.badAt (opmCsr 0x01A) 8 = false ∧ ta.badAt (opmCsr 0x01B) 8 = false ∧ ta.badAt (opmCsr 0x01C) 8 = false ∧
    (csrForms 1 0x01C 0 (xr s 1)).map (·.2.2.2) = [true, true, false] ∧ (csrForms 2 0x01C 0 (xr s 2)).map (·.2.2.2) = [false, false, false] := by
  unfold inFile; decide

/-- `TrapEntry`: TRAPVEC enabled outside the handler; disabled; and inside the handler. -/
theorem witness_TrapEntry : ta.inHandler = false ∧ 2 ^ 14 ≤ ta.trapVec.toNat ∧ Cause.RANGE.isDebug = false ∧
    Cause.STEP.isDebug = true ∧ ta.dbgCtl.getLsbD 2 = false ∧ ta.lull = .none ∧ ta.cwait = none ∧
    { ta with trapVec := 0x3FFF }.trapVec.toNat < 2 ^ 14 ∧ { ta with inHandler := true }.inHandler = true := by decide

/-- A command of L that has trapped, and one that has not. -/
def qTrapped : QEntry := { newEntry ta 0x48084000 0 4 [] false false with phase := .trapped }
def qWaits : QEntry := newEntry ta 0x48084000 1 5 [] false false

/-- C in its handler after a trap of `e`, whose RES is `res`, with a command that the trap stopped and one that waits. -/
def tReturn (e : Engine) (res : Word) : Tile :=
  { ta with inHandler := true, trapCause := BitVec.ofNat 64 (engCode e * 2 ^ 30) + res * 0x400, trapEntry := some qTrapped.id,
            qL := [qTrapped, qWaits], qX := [qTrapped, qWaits], qS := [qTrapped, qWaits] }

/-- `TrapInstructions`: outside the handler; in it with no error, and with one in TRAPCAUSE; `trap` with the handler enabled. -/
theorem witness_TrapInstructions :
    (ta.inHandler = false ∧ 2 ^ 14 ≤ ta.trapVec.toNat ∧ ta.lull = .none ∧ pcOf sa < 2 ^ 15) ∧
    ((tReturn .L 1).inHandler = true ∧ (tReturn .L 1).badAt (opmCsr 0x009) 16 = false ∧ (tReturn .L 1).pending = []) ∧
    { tReturn .L 1 with badRegs := [(opmCsr 0x009 / 8, true)] }.badAt (opmCsr 0x009) 16 = true := by decide

/-- An `eret` after a trap of `e` acts on the trapped command alone, as RES says. -/
def returnActs (e : Engine) (res : Word) : Bool :=
  let tl := tReturn e res
  tl.inHandler && !tl.badAt (opmCsr 0x009) 16 && tl.pending.isEmpty && tl.trapCause.toNat / 2 ^ 30 % 4 == engCode e && !tl.trapAtEnd &&
    tl.trapCause.toNat / 2 ^ 10 % 4 == res.toNat && (tl.queue e).contains qTrapped && tl.trapEntry == some qTrapped.id &&
    (tl.queue e).contains qWaits

/-- `TrapInstructions`: an `eret` after a trap of each engine retries, drops or stops the command; one that an earlier `eret` stopped, and one
that is pushed on; and after the ILLOP of a counter at NWORDS no queue changes. -/
theorem witness_TrapInstructions_acts :
    ([Engine.L, .X, .S].all fun e => [(0 : Word), 1, 2].all (returnActs e)) = true ∧
    (qTrapped.phase = .trapped ∧ qTrapped.pushed = false ∧ { qTrapped with stopped := true }.stopped = true) ∧
    ¬ qWaits.phase = .trapped ∧ { qWaits with pushed := true }.pushed = true ∧
    { tReturn .L 0 with trapAtEnd := true }.trapAtEnd = true ∧ (tReturn .C 0).trapCause.toNat / 2 ^ 30 % 4 = engCode .C := by
  decide +kernel

/-- `rep` over a word, its repetition `k` next. -/
def tRep (k : BitVec 6) (w : IWord) : Tile := { ta with repIdx := k, istore := [(2, 0x3E000000), (3, w)] }

/-- The words of `ld x4, [x3]`, `st x4, [x3]` of doublewords and of `ldz x4, [x3]` of a word. -/
def wLd : IWord := (encode (.ld 4 3 0 0 0 3 0)).getD 0
def wLdz : IWord := (encode (.ldz 4 3 0 0 0 2 0)).getD 0
def wSt : IWord := (encode (.st 4 3 0 0 0 3 0)).getD 0

/-- `Repeat`: the first and the last of two repetitions of an `add`, with no breakpoint at it. -/
theorem witness_Repeat :
    repeats (on0 (tRep 0 0x00184400)) 0 1 1 1 1 0x00184400 (.add 3 1 2) ∧
    repeats (on0 (tRep 1 0x00184400)) 0 1 1 1 1 0x00184400 (.add 3 1 2) ∧
    passesBreak (on0 (tRep 0 0x00184400)) (on0 (tRep 0 0x00184400)) ∧
    decode (stepWord 0x00184400 1 1 1 0) = .ok (.add 3 1 2) ∧ decode (stepWord 0x00184400 1 1 1 1) = .ok (.add 4 2 3) ∧
    inFile sa [1, 2] ∧ inFile sa [2, 3] ∧ isLink 3 = false ∧ isLink 4 = false := by
  unfold inFile
  exact ⟨⟨by decide, rfl, by decide, by decide, by decide, by decide⟩, ⟨by decide, rfl, by decide, by decide, by decide, by decide⟩,
    .inl ⟨.inr (by decide), rfl⟩, rfl, rfl, by decide, by decide, by decide, by decide⟩

/-- Tile 0 at a `rep`, with breakpoint 1 at the prefixed word, SKIP set or not. -/
def tBreak (ctl : BitVec 3) : Tile := { tRep 0 0x00184400 with bkpt := [(1, 0x8000000000000003)], dbgCtl := ctl }

/-- `Repeat`: a breakpoint that SKIP lets pass; and where C has waited in the repetition, one that has been passed already. -/
theorem witness_Repeat_passes :
    (∃ s0, passesBreak (on0 (tBreak 2)) s0) ∧
    (let s := on0 { tBreak 0 with cntC := { pc := 2, st := .waiting, ended := false } }
     breakpointOf (s.tile 0) .C 3 = some 1 ∧ passesBreak s s) :=
  ⟨⟨_, .inr ⟨by decide, by decide, by decide, rfl⟩⟩, by decide, .inl ⟨.inl (by decide), rfl⟩⟩

/-- `Repeat`: repetition 1 of two of a load and of a store, with SA: the doubleword behind the one that `x3` names, in the own scratchpad. -/
theorem witness_Repeat_memory :
    (let s := on0 (tRep 1 wLd)
     repeats s 1 0 0 0 1 wLd (.ld 4 3 0 0 0 3 0) ∧ passesBreak s s ∧ decode (stepWord wLd 0 0 0 1) = .ok (.ld 4 3 0 0 0 3 0) ∧
     inFile s [3] ∧ isLink 4 = false ∧ accessOk s (eaOf s 3 3 0 + 8) 8 true false (.scratch 0 8) ∧
     cRead s s.here (.scratch 0 8) 8 = .ok 0) ∧
    (let s := on0 (tRep 1 wLdz)
     repeats s 1 0 0 0 1 wLdz (.ldz 4 3 0 0 0 2 0) ∧ passesBreak s s ∧ decode (stepWord wLdz 0 0 0 1) = .ok (.ldz 4 3 0 0 0 2 0) ∧
     accessOk s (eaOf s 3 2 0 + 4) 4 true false (.scratch 0 4) ∧ cRead s s.here (.scratch 0 4) 4 = .ok 0) ∧
    (let s := on0 (tRep 1 wSt)
     repeats s 1 0 0 0 1 wSt (.st 4 3 0 0 0 3 0) ∧ passesBreak s s ∧ decode (stepWord wSt 0 0 0 1) = .ok (.st 4 3 0 0 0 3 0) ∧
     inFile s [3, 4] ∧ accessOk s (eaOf s 3 3 0 + 8) 8 false true (.scratch 0 8) ∧ (s.tile 0).pubsBad = false) := by
  unfold inFile
  refine ⟨⟨⟨by decide, rfl, by decide, by decide, by decide, by decide⟩, .inl ⟨.inr (by decide), rfl⟩, rfl, by decide, by decide,
      ⟨rfl, by decide, rfl⟩, rfl⟩,
    ⟨⟨by decide, rfl, by decide, by decide, by decide, by decide⟩, .inl ⟨.inr (by decide), rfl⟩, rfl, ⟨rfl, by decide, rfl⟩, rfl⟩,
    ⟨by decide, rfl, by decide, by decide, by decide, by decide⟩, .inl ⟨.inr (by decide), rfl⟩, rfl, by decide,
      ⟨rfl, by decide, rfl⟩, by decide⟩

/-- `Repeat`: no word behind it; a step that leaves the register file, and a word that may not be prefixed; REPIDX with an error, and past the last
repetition; and a breakpoint at a repetition not begun. -/
theorem witness_Repeat_traps :
    prefixedWord { tRep 0 0 with nwords := 3 } = none ∧
    (prefixedWord (tRep 0 0x00F84400) = some 0x00F84400 ∧ decode 0x00F84400 = .ok (.add 31 1 2) ∧
      repOk (.add 31 1 2) 0x00F84400 0 0 0 1 1 = false) ∧
    (∃ w, encode .halt = some w ∧ prefixedWord (tRep 0 w) = some w ∧ decode w = .ok .halt ∧ (repBodyOf 0 .halt).isSome = false) ∧
    (let tl := tRep 2 0x00184400
     prefixedWord tl = some 0x00184400 ∧ decode 0x00184400 = .ok (.add 3 1 2) ∧ repOk (.add 3 1 2) 0x00184400 0 1 1 1 1 = true ∧
     (repBodyOf 0 (.add 3 1 2)).isSome = true ∧ decode (stepWord 0x00184400 1 1 1 (min 2 1)) = .ok (.add 4 2 3) ∧
     (repBodyOf 0 (.add 4 2 3)).isSome = true ∧ tl.badAt (opmCsr 0x00B) 8 = false ∧ (1 : BitVec 6).toNat < tl.repIdx.toNat ∧
     { tl with badRegs := [(opmCsr 0x00B / 8, true)] }.badAt (opmCsr 0x00B) 8 = true) ∧
    (let tl := tBreak 0
     prefixedWord tl = some 0x00184400 ∧ decode (stepWord 0x00184400 1 1 1 (min 0 1)) = .ok (.add 3 1 2) ∧
     tl.badAt (opmCsr 0x00B) 8 = false ∧ tl.repIdx.toNat ≤ (1 : BitVec 6).toNat ∧ tl.cntC.st ≠ .waiting ∧
     breakpointOf tl .C (pcOf sa + 1) = some 1 ∧ tl.dbgCtl.getLsbD 1 = false) :=
  ⟨by decide, ⟨by decide, rfl, by decide⟩, ⟨_, rfl, by decide, rfl, by decide⟩,
    ⟨by decide, rfl, by decide, by decide, rfl, by decide, by decide, by decide, by decide⟩,
    by decide, rfl, by decide, by decide, by decide, by decide, by decide⟩

/-- `Repeat`, the stepped fields: the last register that repetition 1 may name; and the fields of a load. -/
theorem witness_Repeat_steps : (∃ w, encode (.add 30 1 2) = some w) ∧ (30 : BitVec 5).toNat + 1 < 32 ∧
    wellFormed (.ld 4 3 0 0 0 3 0) = true ∧ (∃ w, encode (.ld 4 3 0 0 0 3 0) = some w) := ⟨⟨_, rfl⟩, by decide, by decide, _, rfl⟩
/-! ### Commands of L and S -/

/-- A record of one contiguous dimension: its base, format and number of elements. -/
def rec1 (base fmt n : Nat) : Tlr := BitVec.ofNat 768 (base + fmt * 2 ^ 64 + n * 2 ^ 128 + 2 ^ 272 + n * 2 ^ 608)

/-- Bytes of the own scratchpad from an offset. -/
def own (off : Nat) : Nat := 8 * 2 ^ 60 + off

/-- Tile 0 in no phase with descriptors: 0 and 1 of 8 bytes each in the own scratchpad, 2 of 8 bytes of device memory, 3 of one
64-bit address of the own scratchpad, 4 of a byte space that no engine may use, 5 reserved, 6 of one word of 64 bytes. -/
def tDesc : Tile :=
  { tq with g := [(0, rec1 (own 0x40) 7 8), (1, rec1 (own 0x80) 7 8), (2, rec1 0x100 7 8), (3, rec1 (own 0x100) 14 1),
                  (4, rec1 (12 * 2 ^ 60) 7 8), (5, rec1 (own 0) 7 0), (6, rec1 (own 0x40) 7 64), (7, rec1 (own 0x200) 14 1)] }

/-- An entry whose command runs. -/
def qRun (w : IWord) : QEntry := { newEntry tDesc w 2 0 [] false false with phase := .running, popped := true }

/-- The device with a command of each engine running, in focus. -/
def sCmd : State := on0 { tDesc with qL := [qRun 0], qX := [qRun 0], qS := [qRun 0] }

/-- The same device with a context that lists no memory port, so that no slice sees an access; and with a token of an earlier command of L on
its way to the bytes from 0x80 of the own scratchpad. -/
def sMem : State := { sCmd with ctxs := [(0, { tc with ports := [] })] }
def sAhead : State := { sCmd with tokens :=
  [{ src := 0, eng := .L, entry := 9, home := 0, offset := 0x80, slot := 0, cls := 0, size := 8, operand := 0, gather := true, elem := 0 }] }

/-- No watch and no lapsed region meets the spans, and the subscriber table holds no error. -/
def quiet (s : State) (sps : List Span) : Bool :=
  sps.all (fun sp => watchOf (s.tile s.here) sp.addr sp.n sp.rd sp.wr == none) && !(s.tile s.here).subsBad &&
    lapsedSpan (s.tile s.here) sps == none

theorem guards_of {s : State} {sps : List Span} (h : quiet s sps = true) : guards s s.here sps = .ok s := by
  simp only [quiet, Bool.and_eq_true, List.all_eq_true, beq_iff_eq, Bool.not_eq_true'] at h
  exact Laws.guards_quiet h.1.1 h.1.2 h.2

theorem plan_of {α : Type} {s : State} {r : Res α} {f : α → List Span} (h : okB r (fun p => quiet s (f p)) = true) :
    ∃ p, r = .ok p ∧ guards s s.here (f p) = .ok s := by
  cases r with
  | error e => exact absurd h (by simp [okB])
  | ok p => exact ⟨p, rfl, guards_of h⟩

/-- A trap with its cause. -/
def trapB {α : Type} (r : Res α) (c : Cause) : Bool :=
  match r with
  | .error (.trap d i) => d == c && i == 0
  | _ => false

theorem trap_of {α : Type} {r : Res α} {c : Cause} (h : trapB r c = true) : r = .error (.trap c 0) := by
  unfold trapB at h
  split at h
  · simp only [Bool.and_eq_true, beq_iff_eq] at h; rw [h.1, h.2]
  · simp at h

/-- `Copies`: `ldn` from device memory and `stn` to it pass their checks, and an illegal record fails them. -/
theorem witness_Copies :
    sCmd.progOf sCmd.here .L = .start ∧ sCmd.progOf sCmd.here .S = .start ∧
    copyPlan sCmd sCmd.here ldnKind 5 2 0 0 = .error (.trap .RSVD 0) ∧
    (∃ p, copyPlan sCmd sCmd.here ldnKind 0 2 0 0 = .ok p ∧ guards sCmd sCmd.here p.2.2.2 = .ok sCmd) ∧
    (∃ p, copyPlan sCmd sCmd.here stnKind 2 0 0 0 = .ok p ∧ guards sCmd sCmd.here p.2.2.2 = .ok sCmd) :=
  ⟨by decide, by decide, trap_of (by decide +kernel), plan_of (f := fun p : Side × Side × Option Tlr × List Span => p.2.2.2) (by decide +kernel),
    plan_of (f := fun p : Side × Side × Option Tlr × List Span => p.2.2.2) (by decide +kernel)⟩

/-- Contiguous sides of eight bytes: the own scratchpad, its next bytes, device memory, and a place with none. -/
def sideOwn : Side := { r := rec1 (own 0x40) 7 8, host := none }
def sideNext : Side := { r := rec1 (own 0x80) 7 8, host := none }
def sideDev : Side := { r := rec1 0x100 7 8, host := none }
def sideHole : Side := { r := rec1 0x1FFFC 7 8, host := none }

/-- The stop is one of home's, with a property. -/
def stopB (x : Option XStop) (p : MStop → Bool) : Bool :=
  match x with
  | some (.mem m _) => p m
  | _ => false

/-- The answer waits, or goes back to its queue. -/
def waitB {α : Type} (r : Res α) : Bool :=
  match r with
  | .error (.wait _) => true
  | _ => false
def backB {α : Type} (r : Res α) : Bool :=
  match r with
  | .error (.back _) => true
  | _ => false

/-- `Copies`: eight elements that are all copied; one that its home refuses, one on an absent page, and one that waits for a token. -/
theorem witness_Copies_elements :
    (copyFrom sMem 0 .L sideOwn sideDev 0 0 8).2.2.isNone = true ∧ (copyFrom sMem 0 .L sideOwn sideDev 0 0 8).2.1 = 8 ∧
    stopB (copyFrom sMem 0 .L sideOwn sideHole 0 0 8).2.2 (fun m => m == .refuse .RANGE) = true ∧
    (let s : State := { sCmd with ctxs := [(0, { tc with ranges := [{ tr with paged := true }] })] }
     stopB (copyFrom s 0 .L sideOwn sideDev 0 0 8).2.2 (fun m => match m with | .page _ => true | _ => false) = true) ∧
    stopB (copyFrom sAhead 0 .L sideOwn sideNext 0 0 8).2.2 (fun m => m == .busy) = true := by
  decide +kernel

/-- The device with an earlier command of class 0 of each engine, in a phase, before the one that runs. -/
def sHeld (ph : CmdPhase) (l : LullState) : State :=
  on0 { tDesc with qL := [{ qRun 0x48084000 with id := 5, phase := ph }, qRun 0],
                   qS := [{ qRun 0x48084000 with id := 5, phase := ph }, qRun 0], lull := l }

/-- `Copies`: a command held back by an earlier one that runs, one by an earlier one that has gone back to its queue under a lull sequence, and
one that is not held; a release that is made, one that waits, and one that goes back. -/
theorem witness_Copies_waits :
    (sHeld .running .none).classHeld 0 .L 0 = true ∧ heldPhase (sHeld .running .none) 0 .L = .running ∧
    (sHeld .queued (.lulled true [])).classHeld 0 .L 0 = true ∧ heldPhase (sHeld .queued (.lulled true [])) 0 .L = .queued ∧
    sCmd.classHeld 0 .L 0 = false ∧ sCmd.classHeld 0 .S 0 = false ∧
    (let tail : Tail := { rel := true, scope := 2, note := none, cls := 0, count := false }
     okB (finishCommand sCmd 0 .S tail none) (fun _ => true) = true ∧
     waitB (finishCommand { sCmd with flits := [flit01], stamp := 1 } 0 .L tail none) = true ∧
     backB (finishCommand (sHeld .queued (.lulled true [])) 0 .L tail none) = true) := by
  decide +kernel

/-- An entry that has done its accesses, and the device with it in both queues. -/
def qEnded : QEntry := { qRun 0 with prog := { (qRun 0).prog with done := true, stamp := 1 } }
def sDone : State := on0 { tDesc with qL := [qEnded], qS := [qEnded] }

/-- `NoteValue`: a note of one doubleword of the own scratchpad; a command that has written to tile 1, whose update is settled or not; and
one whose posted store has not been acknowledged. -/
theorem witness_NoteValue :
    noteAt sDone 0 .S (rec1 (own 0x200) 14 1) 8 0 0x200 ∧ noteAt sDone 0 .L (rec1 (own 0x200) 14 1) 8 0 0x200 ∧
    sDone.classHeld 0 .S 0 = false ∧ sDone.classHeld 0 .L 0 = false ∧
    (sDone.progOf 0 .S).done = true ∧ settledBefore sDone 1 (sDone.progOf 0 .S).stamp = true ∧ sDone.ownPosted 0 .S = false ∧
    settledBefore { sDone with flits := [{ flit01 with pubTile := 1 }] } 1 (sDone.progOf 0 .S).stamp = false ∧
    (sDone.progOf 0 .L).done = true ∧ settledBefore { sDone with flits := [{ flit01 with pubTile := 1 }] } 1 (sDone.progOf 0 .L).stamp = false ∧
    { sDone with posted := [{ posted0 with author := .engine 0 .S 0 }] }.ownPosted 0 .S = true := by
  unfold noteAt; decide +kernel

/-- The note of entry 3 that S owes, its command gone; a device that owes it. -/
def note3 : PendingNote := { entry := 3, index := 2, record := rec1 (own 0x200) 14 1, cls := 0, far := some 1, stamp := 1 }
def sNote : State := on0 { tDesc with notes := [note3], qS := [{ qRun 0 with id := 4 }] }

/-- `OwedNote`: a note that is due; one whose command's update, or whose posted store, is under way. -/
theorem witness_OwedNote :
    (sNote.tile 0).notes.find? (fun k => k.entry = note3.entry) = some note3 ∧ (∀ q ∈ (sNote.tile 0).qS, q.id ≠ note3.entry) ∧
    noteAt sNote 0 .S note3.record 8 0 0x200 ∧ ((sNote.tile 0).qS.any fun q => q.id < note3.entry && q.holds sNote 0 note3.cls) = false ∧
    (sNote.tile 0).noteOwed .S note3.entry note3.cls = false ∧ settledBefore sNote 1 note3.stamp = true ∧
    (sNote.focused 0 note3.entry).ownPosted 0 .S = false ∧
    settledBefore { sNote with flits := [{ flit01 with pubTile := 1 }] } 1 note3.stamp = false ∧
    ({ sNote with posted := [{ posted0 with author := .engine 0 .S 3 }] }.focused 0 note3.entry).ownPosted 0 .S = true := by
  unfold noteAt; decide +kernel

/-- `CopyElement`: a doubleword of the own scratchpad to another place in it, not read ahead, and read ahead. -/
theorem witness_CopyElement :
    let a := rec1 (own 0x100) 14 1
    let b := rec1 (own 0x200) 14 1
    elemBits (Tlr.fmt a) = 8 * 8 ∧ elemBits (Tlr.fmt b) = 8 * 8 ∧ Tlr.elem a 0 false = .place 0x100 0 ∧
    Tlr.elem b 0 true = .place 0x200 0 ∧ homeOfOffset sCmd 0 .L (Tlr.base a) 0x100 = .scratch 0 0x100 ∧
    homeOfOffset sCmd 0 .L (Tlr.base b) 0x200 = .scratch 0 0x200 ∧ poisoned (sCmd.tile 0).poison 0x100 8 64 = false ∧
    sCmd.ownToken 0 .L 0 0x100 8 = false ∧ (sCmd.tile 0).pubsBad = false ∧ (sCmd.progOf 0 .L).ahead = [] ∧
    ((on0 { tDesc with qL := [{ qRun 0 with prog := { (qRun 0).prog with ahead := [5] } }] }).progOf 0 .L).ahead = [5] := by
  decide +kernel

/-- `StreamPorts`, `eos`: an empty output FIFO, and a full one. -/
theorem witness_StreamPorts_eos : tGet 0 (sCmd.tile 0).cfgErr 3 = 0 ∧ (sCmd.progOf sCmd.here .S).begun = false ∧
    ((sCmd.tile 0).outFifo 3).length < portDepth ∧
    portDepth ≤ ({ tDesc with outPorts := [(3, List.replicate portDepth { data := 0, kind := 0 })] }.outFifo 3).length := by
  decide

/-- `StreamPorts`, `snd` and `rcv`: descriptor 6, one word of 64 bytes, passes the checks of both. -/
theorem witness_StreamPorts_plan :
    sCmd.progOf sCmd.here .S = .start ∧ sCmd.progOf sCmd.here .L = .start ∧
    (∃ p, portPlan sCmd sCmd.here .S 6 true 0 0 = .ok p ∧ guards sCmd sCmd.here p.2.2 = .ok sCmd) ∧
    (∃ p, portPlan sCmd sCmd.here .L 6 false 0 0 = .ok p ∧ guards sCmd sCmd.here p.2.2 = .ok sCmd) :=
  ⟨by decide, by decide, plan_of (f := fun p : Tlr × Option Tlr × List Span => p.2.2) (by decide +kernel),
    plan_of (f := fun p : Tlr × Option Tlr × List Span => p.2.2) (by decide +kernel)⟩

/-- The device with commands that have begun, and a FIFO at port 1. -/
def sPort (ws : List StreamWord) : State :=
  on0 { tDesc with qL := [{ qRun 0 with prog := { (qRun 0).prog with begun := true } }], qS := [{ qRun 0 with prog := { (qRun 0).prog with begun := true } }],
                   inPorts := [(1, ws)] }

/-- `StreamPorts`: the word that `snd` reads, with room for it and no earlier command; and an `rcv` that finds its word. -/
theorem witness_StreamPorts_words :
    let r := rec1 (own 0x40) 7 64
    Tlr.words r = 1 ∧ okB (windowWord (sPort []) 0 .S r 0) (fun _ => true) = true ∧ ((sPort []).tile 0).outFifo 1 = [] ∧
    0 + Tlr.words r ≤ portDepth ∧ (sPort []).readHeld 0 .S 0 = false ∧ (sPort []).classHeld 0 .L 0 = false ∧
    okB (rcvLoop (sPort [{ data := 5, kind := 0 }]) 0 r 1 false 0 2) (fun p => decide (p.2 = .done)) = true := by
  decide +kernel

/-- `StreamPorts`, one word of an `rcv`: a data word of kind 0 and of kind 1 before another, whose 64 bytes have places in the own scratchpad, and an
EOS. -/
theorem witness_StreamPorts_word :
    let r := rec1 (own 0x40) 7 64
    let s (k : BitVec 2) := sPort [{ data := 5, kind := k }, { data := 6, kind := 0 }]
    ((s 0).entryOf 0 .L).isSome = true ∧ ((s 0).progOf 0 .L).count = 0 ∧ 0 < Tlr.count r ∧
    (([0, 1, 2] : List (BitVec 2)).all fun k => ((s k).tile 0).inFifo 1 == [{ data := 5, kind := k }, { data := 6, kind := 0 }]) = true ∧
    elemBits (Tlr.fmt r) = 8 * 1 ∧ min (64 / 1) (Tlr.count r - 0) = 64 ∧
    (∀ j, j < 64 → Tlr.elem r (0 + j) true = .place (0x40 + 1 * j) 0 ∧
      homeOfOffset (s 0) 0 .L (Tlr.base r) (0x40 + 1 * j) = .scratch 0 (0x40 + 1 * j)) ∧
    ((s 0).tile 0).pubsBad = false := by
  decide +kernel

/-- `TokensSent`, `TokensDone`: the records of a `gath`, with and without operands, and of a `scat` pass their checks. -/
theorem witness_GatherScatter_plan :
    (∃ p, rmwPlan sCmd sCmd.here .L (some 7) 3 (some 7) = .ok p ∧ guards sCmd sCmd.here p.2.2.2 = .ok sCmd) ∧
    (∃ p, rmwPlan sCmd sCmd.here .L none 3 (some 7) = .ok p ∧ guards sCmd sCmd.here p.2.2.2 = .ok sCmd) ∧
    (∃ p, rmwPlan sCmd sCmd.here .S (some 7) 3 none = .ok p ∧ guards sCmd sCmd.here p.2.2.2 = .ok sCmd) :=
  ⟨plan_of (f := fun p : Option Tlr × Tlr × Option Tlr × List Span => p.2.2.2) (by decide +kernel),
    plan_of (f := fun p : Option Tlr × Tlr × Option Tlr × List Span => p.2.2.2) (by decide +kernel),
    plan_of (f := fun p : Option Tlr × Tlr × Option Tlr × List Span => p.2.2.2) (by decide +kernel)⟩

/-- A `scat` token for the doubleword at 0x200 of tile 0. -/
def tok0 : RmwToken :=
  { src := 0, eng := .S, entry := 0, home := 0, offset := 0x200, slot := 0, cls := 0, size := 8, operand := 5, gather := false, elem := 0 }

/-- A command that has begun; the device with one that has begun, and with one that has not, whose index array holds the address of the
doubleword at 0x200. -/
def qBegun : QEntry := { qRun 0 with prog := { (qRun 0).prog with begun := true } }
def tTok : Tile := { tDesc with qL := [qBegun], qS := [qBegun], scratch := [(0x101, 2), (0x107, 0x80)] }
def sTok : State := on0 tTok
def sSend : State := on0 { tTok with qL := [qRun 0], qS := [qRun 0] }

/-- `TokensSent`: the one element of the array of indices: its address, its operand and its home, in no lapsed region. -/
theorem witness_TokensSent :
    sSend.progOf 0 .L = .start ∧ sSend.progOf 0 .S = .start ∧
    (∃ p, rmwPlan sSend sSend.here .L (some 7) 3 (some 7) = .ok p ∧ guards sSend sSend.here p.2.2.2 = .ok sSend) ∧
    (∃ p, rmwPlan sSend sSend.here .S (some 7) 3 none = .ok p ∧ guards sSend sSend.here p.2.2.2 = .ok sSend) ∧
    (let s1 (e : Engine) := sSend.onProg sSend.here e fun p => { p with begun := true }
     ([Engine.L, .S].all fun e => !(s1 e).classHeld 0 e 0 &&
       okB (readSide (s1 e) 0 e { r := rec1 (own 0x100) 14 1, host := none } 0) (fun a => a == 0x8000000000000200) &&
       okB (readSide (s1 e) 0 e { r := rec1 (own 0x200) 14 1, host := none } 0) (fun v => v == 0) &&
       okB (tokenHome (s1 e) 0 0x8000000000000200 8) (fun p => p == (0, 0x200)) && !((s1 e).tile 0).subsBad &&
       lapsedAt ((s1 e).tile 0) 0x200 8 == none) = true) ∧
    Tlr.count (rec1 (own 0x100) 14 1) = 1 ∧ Tlr.count (rec1 (own 0x200) 14 1) = 1 ∧ elemBytes (Tlr.fmt (rec1 (own 0x200) 14 1)) = 8 :=
  ⟨by decide +kernel, by decide +kernel, plan_of (f := fun p : Option Tlr × Tlr × Option Tlr × List Span => p.2.2.2) (by decide +kernel),
    plan_of (f := fun p : Option Tlr × Tlr × Option Tlr × List Span => p.2.2.2) (by decide +kernel), by decide +kernel, by decide +kernel, by decide +kernel, by decide +kernel⟩

/-- Tile 0 with an error in the first word of its subscriber table, and with a lapsed region over the doubleword at 0x200. -/
def tSubsBad : Tile := { tTok with badRegs := [(opmSub 0 / 8, true)] }
def tLapsed : Tile := { tTok with subs := [(3, { SubEntry.zero with state := 2, pub := 1, lines := 1, soff := 0x200 })] }

/-- `OneToken`: the address and the operand of element 0, and its home, in no lapsed region, in one, and with an error in the subscriber table. -/
theorem witness_OneToken :
    ([tTok, tSubsBad, tLapsed].all fun tl =>
      okB (readSide (on0 tl) 0 .S { r := rec1 (own 0x100) 14 1, host := none } 0) (fun a => a == 0x8000000000000200) &&
      okB (readSide (on0 tl) 0 .S { r := rec1 (own 0x200) 14 1, host := none } 0) (fun v => v == 0) &&
      okB (tokenHome (on0 tl) 0 0x8000000000000200 8) (fun p => p == (0, 0x200))) = true ∧
    tTok.subsBad = false ∧ lapsedAt tTok 0x200 8 = none ∧ tSubsBad.subsBad = true ∧ tLapsed.subsBad = false ∧
    lapsedAt tLapsed 0x200 8 = some 3 := by
  decide +kernel

/-- An entry whose one token has been sent, and the device with it. -/
def qSent : QEntry := { qBegun with prog := { qBegun.prog with tokens := 1 } }
def sSent : State := on0 { tDesc with qL := [qSent], qS := [qSent] }

/-- `TokensDone`: commands whose token is on its way, whose tokens are all applied, and one of which was refused; a release that is made,
one that waits, and one that goes back. -/
theorem witness_TokensDone :
    (sSent.progOf 0 .L).begun = true ∧ 1 ≤ (sSent.progOf 0 .L).tokens ∧ (sSent.progOf 0 .L).tokErr = none ∧
    (∃ p, rmwPlan sSent sSent.here .S (some 7) 3 none = .ok p ∧ guards sSent sSent.here p.2.2.2 = .ok sSent) ∧
    tokensOut sSent 0 .L = false ∧ tokensOut sSent 0 .S = false ∧ tokensOut { sSent with tokens := [tok0] } 0 .S = true ∧
    ((on0 { tDesc with qL := [{ qSent with prog := { qSent.prog with tokErr := some (.MEMERR, 0) } }] }).progOf 0 .L).tokErr = some (.MEMERR, 0) ∧
    (2 : BitVec 2) ≠ 0 ∧ okB (releaseCmd sSent 0 .S 2) (fun _ => true) = true ∧
    waitB (releaseCmd { sSent with flits := [flit01], stamp := 1 } 0 .S 2) = true ∧
    backB (releaseCmd (on0 { tDesc with qS := [{ qRun 0 with id := 5, phase := .queued }, qSent], lull := .lulled true [] }) 0 .S 2) = true :=
  ⟨by decide +kernel, by decide +kernel, by decide +kernel, plan_of (f := fun p : Option Tlr × Tlr × Option Tlr × List Span => p.2.2.2) (by decide +kernel),
    by decide +kernel, by decide +kernel, by decide +kernel, by decide +kernel, by decide, by decide +kernel, by decide +kernel, by decide +kernel⟩

/-- The word of a `gath` of index 3 into descriptor 7, without operands. -/
def gathWord : IWord := (encode (.gath 0 0 0 3 7 0 0 0 1)).getD 0

/-- `TokenApplied`: the token of a `scat` at a sound and a poisoned line, without a node, and with an error in the publisher table; the token of a running `gath`, whose element is in GR's
window, and one beyond it. -/
theorem witness_TokenApplied :
    let g : RmwToken := { tok0 with eng := .L, gather := true }
    let s := on0 { tDesc with qL := [{ qBegun with word := gathWord }] }
    let s0 := s.focused 0 0
    tokenFirst [tok0] 0 = true ∧ (s.tile 0).pubsBad = false ∧
    { tDesc with badRegs := [(opmPub 0 / 8, true)] }.pubsBad = true ∧ poisoned (s.tile 0).poison 0x200 8 64 = false ∧ poisoned [(8, true)] 0x200 8 64 = true ∧
    (s.tile 0).rmwNode 0 = none ∧
    someB (s0.entryOf g.src g.eng) (fun q => q.nest.isNone && q.prog.tokErr.isNone &&
      decodeTableWord 32 q.word.toNat == some (.gath 0 0 0 3 7 0 0 0 1)) = true ∧
    okB (cmdDesc s0 0 .L 7) (fun r => elemBits (Tlr.fmt r) == 64 && Tlr.count r == 1 &&
      (match Tlr.elem r 0 true with | .place so _ => homeOfOffset s 0 .L (Tlr.base r) so == .scratch 0 0x200 | _ => false)) = true ∧
    g.elem < 1 ∧ 1 ≤ { g with elem := 1 }.elem := by
  decide +kernel

/-- `GatherScatter`, `pfx`: an illegal record, a scratchpad's, and one of device memory. -/
theorem witness_GatherScatter_pfx :
    okB (cmdDesc sCmd sCmd.here .L 5) (fun r => !Tlr.legal r) = true ∧
    okB (cmdDesc sCmd sCmd.here .L 0) (fun r => Tlr.legal r && spaceOf (Tlr.base r) != 0) = true ∧
    okB (cmdDesc sCmd sCmd.here .L 2) (fun r => Tlr.legal r && canonical (Tlr.base r) && spaceOf (Tlr.base r) == 0) = true := by
  decide +kernel

/-- `Nests`: the words of the three engines; a bad body; a block outside the scratchpad's free part, one that a token of the engine is still to
write, a poisoned one, an illegal one and a legal one; a body whose descriptor is captured, and one whose descriptor holds an error. -/
theorem witness_Nests_block :
    nestWord .L 0 0 1 = some (.lNest 0 0 0 1) ∧ nestWord .X 0 0 1 = some (.xNest 0 0 0 0 0 1) ∧
    nestWord .S 0 0 1 = some (.sNest 0 0 0 1) ∧ (∃ q, sCmd.entryOf sCmd.here .L = some q ∧ (q.badNest = false ∧ q.nest = none ∧ q.popped = true)) ∧
    { qRun 0 with badNest := true }.badNest = true ∧ bandStart < 64 * (0x7C00 : BitVec 15).toNat + 64 ∧
    64 * (1 : BitVec 15).toNat + 64 ≤ bandStart ∧ sCmd.ownToken 0 .L 0 64 64 = false ∧ sAhead.ownToken 0 .L 0 128 64 = true ∧
    poisoned (sCmd.tile 0).poison 64 64 64 = false ∧ poisoned [(1, true)] 64 64 64 = true ∧ blockLegal 0 = true ∧
    blockLegal (BitVec.allOnes 512) = false ∧ quiet sCmd [ownSpan sCmd sCmd.here 64 64 true false] = true ∧
    (let q := { qRun 0 with body := [(encode (.pfx 0 0 2)).getD 0] }
     bodyCaptured q (sCmd.tile 0).captureAll = true ∧
     bodyCaptured q { tDesc with badRegs := [((0x21C800 + 96 * 2) / 8, true)] }.captureAll = false) :=
  ⟨by decide, by decide, by decide, some_of (by decide +kernel), by decide, by decide, by decide, by decide +kernel, by decide +kernel,
    by decide, by decide, by decide +kernel, by decide +kernel, by decide +kernel, by decide +kernel⟩

/-- `Nests`: the last replay done, with a `wld`'s write phase behind it or not; and one that runs `pfx` of descriptor 2. -/
theorem witness_Nests_replay :
    let n : NestState := { block := 0, point := 0, body := 0, started := true, popped := true, wgive := none }
    let q := { qRun 0 with nest := some n, body := [(encode (.pfx 0 0 2)).getD 0] }
    blockPoints n.block ≤ { n with point := 1 }.point ∧ { n with wgive := some 2 }.wgive.isSome = true ∧ n.point < blockPoints n.block ∧
    decodeTableWord 32 ((encode (.pfx 0 0 2)).getD 0).toNat = some (.pfx 0 0 2) ∧ isNest ((encode (.pfx 0 0 2)).getD 0) = false ∧
    goesOn (exec (.pfx 0 0 2) { on0 { tDesc with qL := [q] } with ctxs := [(0, { tc with ports := [] })] }) = true := by
  decide +kernel

/-- `Nests`: a replay that has not begun, whose word may start, one that a give push holds, one under a lull sequence, and one whose word waits
for a token. -/
theorem witness_Nests_start :
    let n : NestState := { block := 0, point := 0, body := 0, started := false, popped := false, wgive := none }
    let w := (encode (.pfx 0 0 2)).getD 0
    let w1 := (encode (.pfx 1 0 2)).getD 0
    let q (w : IWord) := { qRun 0 with nest := some n, body := [w] }
    let s := { on0 { tDesc with qL := [q w] } with ctxs := [(0, { tc with ports := [] })] }
    n.point < blockPoints n.block ∧ (q w).body[0]? = some w ∧ decodeTableWord 32 w.toNat = some (.pfx 0 0 2) ∧ isNest w = false ∧
    (q w).owed = 0 ∧ { q w with owed := 2 }.owed ≠ 0 ∧ (s.tile 0).lull = .none ∧ LullState.lulled true [] ≠ .none ∧
    mayStart s 0 .L (q w) w false = true ∧ replayBreak s 0 .L (q w) n = none ∧
    (let n1 := { n with started := true, popped := true }
     goesOn (exec (.pfx 0 0 2) ((s.onTile 0 (·.popWaits .L (tokOf w))).onEntry 0 .L fun q =>
       { q with phase := .running, nest := some n1, prog := .start })) = true) ∧
    mayStart (on0 { tDesc with qL := [q w1] }) 0 .L (q w1) w1 false = false := by
  decide +kernel
/-! ### Commands of X -/

/-- Tile 0 with a full active latch half, a command of X in its queue, and descriptors: 0 four e5m2 or 8-bit elements, 1 f32 elements,
2 a word of 16 f32 elements, 5 an illegal one. -/
def tX : Tile :=
  { tDesc with lw0 := 256, qX := [qRun 0],
               g := [(0, rec1 (own 0x40) 3 4), (1, rec1 (own 0x80) 0 4), (2, rec1 (own 0xC0) 0 16), (5, rec1 (own 0) 7 0)] }

def sX : State := on0 tX

/-- A generator with the one-word program `end`. -/
def gEnd : GenState := { GenState.zero with nw := 1, store := [(0, 0x2A000000)] }

/-- An answer with a property, whatever it stopped on. -/
def doneB {α : Type} (r : Res α) : Bool := okB r fun _ => true

/-- `Products`, `mma`: a reserved bank and pairing; a legal operand with and without index vector; windows within and beyond the limits;
rows that run to their end. -/
theorem witness_Products_mma :
    4 < (5 : BitVec 3).toNat ∧ pairing 0 2 = none ∧ pairing 0 0 = some (4, 256) ∧
    (∃ p, mmaPlan sX sX.here 0 0 4 0 0 0 = .ok p ∧ guards sX sX.here p.2.2 = .ok sX) ∧
    (∃ p, mmaPlan sX sX.here 0 1 4 0 0 1 = .ok p ∧ guards sX sX.here p.2.2 = .ok sX) ∧
    Tlr.win (rec1 (own 0x40) 3 4) 0 ≤ 256 ∧ Tlr.win (rec1 (own 0x40) 3 4) 0 * linesPerRow 0 ≤ activeLw tX ∧
    256 < Tlr.win (rec1 (own 0x40) 3 257) 0 ∧
    okB (mmaRows sX 0 4 none 0 1) (fun rows => doneB (runProduct sX 0 4 (rec1 (own 0x40) 3 4)
      { af := 3, wf := 0, group := 4, zs := false } true rows)) = true :=
  ⟨by decide, by decide, by decide, plan_of (f := fun p : Tlr × Option Tlr × List Span => p.2.2) (by decide +kernel),
    plan_of (f := fun p : Tlr × Option Tlr × List Span => p.2.2) (by decide +kernel), by decide +kernel, by decide +kernel,
    by decide +kernel, by decide +kernel⟩

/-- An element of a record over a scratchpad of the own context can be read where no token is on its way, no note is owed and no line is poisoned. -/
theorem readElem_own {s : State} {t : Nat} {e : Engine} {r : Tlr} {bits : Nat} (hb : spaceOf (Tlr.base r) = 8) (ht : s.tokens = [])
    (hn : (s.tile t).notes = []) (hp : (s.tile ((s.tileOfRel t (ownerOf (Tlr.base r))).getD t)).poison = []) (el : Elem) :
    ∃ v, readElem s t e r bits el = .ok v := by
  cases el with
  | discard => exact ⟨_, rfl⟩
  | value v => exact ⟨_, rfl⟩
  | place off nib =>
    simp only [readElem, homeOfOffset, hb, readHome, State.ownToken, ht, hn, poisoned, hp, List.any_nil, Bool.and_false, Bool.or_false,
      Bool.false_eq_true, if_false]
    exact ⟨_, rfl⟩

/-- `Products`: a tile without errors; every element of A and of the index vector can be read; a latch without lines, which is RANGE. -/
theorem witness_Products_ends :
    tX.badRegs = [] ∧ readsAll sX (rec1 (own 0x40) 3 4) 8 ∧
    (∀ i, i < 64 → ∃ v, readElem sX sX.here .X (rec1 (own 0x80) 0 4) 32 (Tlr.elem (rec1 (own 0x80) 0 4) i false) = .ok v) ∧
    activeLw { tX with lw0 := 0 } < Tlr.win (rec1 (own 0x40) 3 4) 0 * linesPerRow 0 :=
  ⟨rfl, fun _ _ => readElem_own (by decide +kernel) rfl (by decide +kernel) (by decide +kernel) _, fun _ _ => readElem_own (by decide +kernel) rfl (by decide +kernel) (by decide +kernel) _, by decide +kernel⟩

/-- `Products`, `mmas` and `mmat`: a pattern of 64 rows and 256 columns whose lines the latch does not hold, and one that it holds. -/
theorem witness_Products_limits :
    let g : GenState := { GenState.zero with isBuilt := true, inv := true, built := some { terms := [], nr := 64, nc := 256, inverse := [] } }
    okB (readyGen (on0 { tX with gen := g }) 0) (fun g => g.inv && someB g.built fun b =>
      decide (b.nc * linesPerRow 0 ≤ activeLw tX) && decide (b.nr * linesPerRow 0 ≤ activeLw tX) &&
      decide (activeLw { tX with lw0 := 0 } < b.nc * linesPerRow 0) && decide (activeLw { tX with lw0 := 0 } < b.nr * linesPerRow 0)) = true := by
  decide +kernel

/-- `Products`, `mmas` and `mmat`: the pattern of an empty program, which is invertible, and one that is not. -/
theorem witness_Products_sparse :
    (∃ p, sparsePlan sX sX.here 0 4 0 0 = .ok p ∧ guards sX sX.here p.2 = .ok sX) ∧
    okB (readyGen (on0 { tX with gen := gEnd }) 0) (fun g => someB g.built fun b => g.inv && decide (b.nc * linesPerRow 0 ≤ activeLw tX) &&
      decide (b.nr * linesPerRow 0 ≤ activeLw tX) && doneB (runProduct (setGen sX 0 g) 0 4 (rec1 (own 0x40) 3 4)
        { af := 3, wf := 0, group := 4, zs := false } false ((List.range 64).map fun i => (i, [])))) = true ∧
    okB (readyGen (on0 { tX with gen := { GenState.zero with isBuilt := true, built := some { terms := [], nr := 64, nc := 256, inverse := [] } } }) 0)
      (fun g => !g.inv) = true :=
  ⟨plan_of (f := fun p : Tlr × List Span => p.2) (by decide +kernel), by decide +kernel, by decide +kernel⟩

/-- `ProductGroup`: an element that no zero flag covers, one that a zero flag covers, and weights that are sound and that are not. -/
theorem witness_ProductGroup :
    let a := rec1 (own 0x40) 3 4
    let c : ProdCfg := { af := 3, wf := 0, group := 4, zs := true }
    let p : Product := { w0 := 3, w1 := 0, row := 255 }
    let z := on0 { tX with zflags := [(0, true)] }
    zeroFlagged sX 0 a p = false ∧ zeroFlagged z 0 a p = true ∧ weightsBad (sX.tile 0) c [p] = false ∧
    weightsSpecial (z.tile 0) c [p] = false ∧ c.wf ≠ 3 ∧
    weightsBad { tX with badRegs := [((0x214000 + 64 * 255) / 8, true)] } c [p] = true ∧
    (match readElem sX 0 .X a (elemBits c.af) (Tlr.resolveAt a (Tlr.coordsAt a p.w0 p.w1) false) with
      | .ok v => v == 0 | .error _ => false) = true := by
  decide +kernel

/-- `ProductGroup`: two elements of A that are read, and a latch line with an error. -/
theorem witness_ProductGroup_errors :
    let c : ProdCfg := { af := 3, wf := 0, group := 4, zs := false }
    (∀ p ∈ [({ w0 := 0, w1 := 0, row := 0 } : Product), { w0 := 3, w1 := 0, row := 255 }], ∃ v, readElem sX 0 .X (rec1 (own 0x40) 3 4)
      (elemBits c.af) (Tlr.resolveAt (rec1 (own 0x40) 3 4) (Tlr.coordsAt (rec1 (own 0x40) 3 4) p.w0 p.w1) false) = .ok v) ∧
    weightsBad { tX with badRegs := [(0x214000 / 8, true)] } c [{ w0 := 0, w1 := 0, row := 0 }] = true :=
  ⟨fun _ _ => readElem_own (by decide +kernel) rfl (by decide +kernel) (by decide +kernel) _, by decide +kernel⟩

/-- `GroupSum`: products without a special operand; zero times infinity; infinities of both signs and of one; a NaN; sums that are
zero and that are not. -/
theorem witness_GroupSum :
    zeroTimesInf (.num false 0 0, .inf true) = true ∧ zeroTimesInf (.inf true, .num false 1 0) = false ∧
    infProduct true (.inf true, .num false 1 0) = true ∧ infProduct false (.inf true, .num true 1 0) = true ∧
    decodeSigned 0 0x7F800000 = .inf false ∧ (decodeSigned 0 0x7F800001).isSnan = true ∧
    ratOf (decodeSigned 0 0x3F800000) + (([(.num true 1 0, .num false 1 0)] : List (FVal × FVal)).map fun p => ratOf p.1 * ratOf p.2).sum = 0 ∧
    ratOf (decodeSigned 0 0x3F800000) + (([(.num false 1 0, .num false 1 0)] : List (FVal × FVal)).map fun p => ratOf p.1 * ratOf p.2).sum = 2 := by
  decide +kernel

/-- `ProductRows`: two rows of one bank, one product in each, run to their end. -/
theorem witness_ProductRows :
    let rows : List (Nat × List Product) := [(0, [{ w0 := 0, w1 := 0, row := 0 }]), (63, [{ w0 := 3, w1 := 0, row := 255 }])]
    (rows.map (·.1)).Nodup ∧ (∀ r ∈ rows, r.1 < 64) ∧
    doneB (runProduct sX 0 4 (rec1 (own 0x40) 3 4) { af := 3, wf := 0, group := 4, zs := false } false rows) = true := by
  decide +kernel

/-- A tile with a write phase under way: one line of the inactive half. -/
def tW : Tile := { tX with qX := [], wpend := some ([(16384, 7), (16447, 9)], 1) }

/-- The same with a nest whose replayed `wld` has completed its read phase: both its gives are to be pushed. -/
def nWld : NestState := { block := 0, point := 0, body := 0, started := false, popped := false, wgive := some 3 }
def tWn : Tile := { tW with qX := [{ qRun 0 with nest := some nWld }] }

/-- `WeightLatch`: a write phase under way and none; a reserved source; a `wld` that reads its row; the write phase's bytes in the
inactive half, at both ends of their line. -/
theorem witness_WeightLatch :
    tW.wpend.isSome = true ∧ tX.wpend = none ∧ sFormat 6 = none ∧ sFormat 0 = some 3 ∧
    (∃ p, wldPlan sX sX.here 0 0 = .ok p ∧ guards sX sX.here p.2 = .ok sX) ∧
    okB ((List.range 1).mapM fun (k : Nat) => (List.range 4).mapM fun (j : Nat) =>
      readElem sX 0 .X (rec1 (own 0x40) 3 4) 8 (Tlr.resolveAt (rec1 (own 0x40) 3 4) (Tlr.coordsAt (rec1 (own 0x40) 3 4) j k) false))
      (fun rows => rows.length == 1) = true ∧
    tW.qX.find? (fun q => tW.inWritePhase q) = none ∧ tW.qX.find? (fun q => (q.nest.bind (·.wgive)).isSome) = none ∧
    (∀ e ∈ ([(16384, 7), (16447, 9)] : Table Byte), inactiveBase tW ≤ e.1 ∧ e.1 < inactiveBase tW + 64 * 1) ∧
    (tWn.wpend.isSome = true ∧ tWn.qX.find? (fun q => tWn.inWritePhase q) = none ∧
      tWn.qX.find? (fun q => (q.nest.bind (·.wgive)).isSome) = some { qRun 0 with nest := some nWld } ∧ (qRun 0).owed = 0) :=
  ⟨by decide, by decide, by decide, by decide, plan_of (f := fun p : Tlr × List Span => p.2) (by decide +kernel), by decide +kernel,
    by decide, by decide, by decide, by decide +kernel⟩

/-- `WeightLatch`, `wld` from a port: all 256 rows of an e5m2 matrix may be asked for; one row whose word stands in the port. -/
theorem witness_WeightLatch_port :
    let s := on0 { tX with inPorts := [(3, [{ data := 5, kind := 1 }])] }
    (255 : BitVec 8).toNat + 1 ≤ 256 ∧ (0 : BitVec 8).toNat + 1 ≤ 256 ∧ s.progOf s.here .X = .start ∧ tGet 0 (s.tile 0).cfgErr 3 = 0 ∧
    (takeWords (s.onProg s.here .X fun p => { p with begun := true }) 0 3 (portWords 3 1)).2 = true := by
  decide +kernel

/-- `Accumulators`: masks of no bank and of one; banks 3 and 4 of `scacc`; its scales; the records of `accst` and `accld`. -/
theorem witness_Accumulators :
    (0x10 : BitVec 5) ≠ 0 ∧ 3 < (4 : BitVec 3).toNat ∧
    (∃ p, scaccPlan sX sX.here 0 0 3 = .ok p ∧ guards sX sX.here p.2.2 = .ok sX) ∧
    okB (scales sX 0 (rec1 (own 0x40) 3 4) 0) (fun v => v.length == 64) = true ∧
    tX.badAt (opmAcc 3 0) 16384 = false ∧ tX.badAt (opmAcc 4 0) 16384 = false ∧
    (∃ p, accPlan sX sX.here 1 4 4 2 true false = .ok p ∧ guards sX sX.here p.2 = .ok sX) ∧
    (∃ p, accPlan sX sX.here 1 4 4 2 true true = .ok p ∧ guards sX sX.here p.2 = .ok sX) ∧
    (sX.progOf sX.here .X).begun = false ∧ accstBad tX (rec1 (own 0x80) 0 4) 4 (movePlaces (rec1 (own 0x80) 0 4)) = false ∧
    okB (accstElems sX 0 (rec1 (own 0x80) 0 4) 4 0 4 2 0 0 (movePlaces (rec1 (own 0x80) 0 4))) (fun _ => true) = true ∧
    okB (accldElems sX 0 (rec1 (own 0x80) 0 4) 4 0 4 2 { acc := tX.acc, flags := 0 } (movePlaces (rec1 (own 0x80) 0 4))) (fun _ => true) = true :=
  ⟨by decide, by decide, plan_of (f := fun p : Tlr × Tlr × List Span => p.2.2) (by decide +kernel), by decide +kernel, by decide, by decide,
    plan_of (f := fun p : Tlr × List Span => p.2) (by decide +kernel), plan_of (f := fun p : Tlr × List Span => p.2) (by decide +kernel),
    by decide, by decide +kernel, by decide +kernel, by decide +kernel⟩

/-- `Accumulators`, `accst` with a release: one that ends, one that waits for an update, and one that goes back; and one that is done with its
elements. -/
theorem witness_Accumulators_release :
    okB (releaseCmd sX 0 .X 2) (fun _ => true) = true ∧ waitB (releaseCmd { sX with flits := [flit01], stamp := 1 } 0 .X 2) = true ∧
    backB (releaseCmd (on0 { tX with qX := [{ qRun 0 with id := 5, phase := .queued }, qRun 0], lull := .lulled true [] }) 0 .X 2) = true ∧
    ((on0 { tX with qX := [qEnded] }).progOf 0 .X).done = true := by
  decide +kernel

/-- A tile whose row does one operation in lane 15, of the code, sources, destination and format given; the other lanes hand their word
on. -/
def lane15 (eop a b dst fmt mod : Nat) : Tile :=
  { tX with rowOps := [(15, BitVec.ofNat 32 (eop * 2 ^ 26 + a * 2 ^ 22 + b * 2 ^ 18 + dst * 2 ^ 14 + fmt * 2 ^ 10 + mod))] }

/-- `RowWord`: a word of the own scratchpad, read; lanes whose registers hold no error, and one that reads a bad register. -/
theorem witness_RowWord :
    okB (windowWord sX 0 .X (rec1 (own 0xC0) 0 16) 0) (fun up => up == 0) = true ∧
    (rowWalk (sX.tile 0) [] 0 0 0).bad = false ∧ (rowWalk (sX.tile 0) [] 0 0 0).sends = [] ∧
    (rowWalk { lane15 8 4 0 0 7 0 with badRegs := [(opmLane 15 0 / 8, true)] } [] 0 0 0).bad = true ∧ (sX.progOf 0 .X).pinned = none := by
  decide +kernel

/-- `RowWord`: a word that has waited at `tee` lane 15, which holds another and whose port 2 is full. -/
theorem witness_RowWord_waits :
    let q := { qRun 0 with prog := { (qRun 0).prog with begun := true, tees := [(15, 7)], pinned := some (5, 0, 0) } }
    let s := on0 { lane15 3 0 0 0 0 2 with qX := [q], outPorts := [(2, List.replicate portDepth { data := 0, kind := 0 })] }
    let r := rowWalk (s.tile 0) (s.progOf 0 .X).tees 5 0 0
    (s.progOf 0 .X).pinned = some (5, 0, 0) ∧ r.bad = false ∧ r.sends = [(15, 2, { data := 7, kind := 0 })] ∧ outRoom s 0 2 = false ∧
    (s.entryOf 0 .X).isSome = true := by
  decide +kernel

/-- `OneLane`: a row without taps whose lane 15 alone does something: an addition, a `drop`, and an accumulation into register 3; and a
row of lanes that all hand their word on. -/
theorem witness_OneLane :
    (∀ j, j < 16 → laneTap (lane15 8 0 1 4 7 0) j = 0) ∧ (∀ j, j < 16 → j ≠ 15 → lanePasses (lane15 8 0 1 4 7 0) j = true) ∧
    lanePasses tX 15 = true ∧ lanePasses (lane15 8 0 1 4 7 0) 15 = false ∧ (laneOp (lane15 8 0 1 4 7 0) 15).eop = 8 ∧
    lanePasses (lane15 2 0 0 0 0 2) 15 = false ∧ (laneOp (lane15 2 0 0 0 0 2) 15).eop = 2 ∧
    lanePasses (lane15 0x13 0 0 7 7 3) 15 = false ∧ (laneOp (lane15 0x13 0 0 7 7 3) 15).eop = 0x13 := by
  decide

/-- An operation of a lane. -/
def op1 (eop mod : Nat) : LaneOp := { eop := eop, srcA := 0, srcB := 0, dst := 0, fmt := 0, mod_ := mod }

/-- Rounding to nearest in a format, with saturation. -/
def fmt1 (fmt : Nat) : LaneFmt := { fmt := fmt, rm := 0, sat := 1 }

/-- `WordElements` and `RowSelection`: the addition and the select of bytes. -/
theorem witness_WordElements : elementWise 0x08 = true ∧ elementWise 0x28 = false ∧ (fmt1 15).fmt ≤ 15 ∧ 0 < perWord (fmt1 15).fmt ∧
    inI (fmt1 11).fmt = true ∧ 15 < elemBits (fmt1 11).fmt ∧ (op1 0x21 63).eop ∈ [0x1C, 0x1D, 0x1E, 0x1F, 0x20, 0x21] := by decide

/-- `RowIntegers`: a sum of bytes at the greatest value, above it, and below the least; and one that wraps. -/
theorem witness_RowIntegers :
    inI 7 = true ∧ (0x08, fun a b _ => a + b) ∈ integerOps ∧
    decodeInteger 7 (wordElem 7 126 0) + decodeInteger 7 (wordElem 7 1 0) = (intRange 7).2.1 ∧
    (intRange 7).2.1 < decodeInteger 7 (wordElem 7 127 0) + decodeInteger 7 (wordElem 7 1 0) ∧
    decodeInteger 7 (wordElem 7 128 0) + decodeInteger 7 (wordElem 7 255 0) < (intRange 7).1 ∧ ({ fmt1 7 with sat := 2 } : LaneFmt).sat = 2 :=
  ⟨by decide, .head _, by decide +kernel, by decide +kernel, by decide +kernel, rfl⟩

/-- `Rounding`: the largest finite e4m3 value, which is in range, and one that overflows. -/
theorem witness_Rounding : (roundFinite 3 0 0 false 448 0).2 = 0 ∧ (roundFinite 3 0 0 false 512 0).2 = flagOF ||| flagNX ∧
    (roundFinite 5 0 0 true 1 100).2 = flagOF ||| flagNX ∧ (3 : Nat) ≤ 5 ∧ (0 : Nat) < 448 := by decide +kernel

/-- `RowFloats`: a sum of f32 that is 3 and one that is zero; a NaN; infinities; zero times infinity; zeros of both signs; a comparison
that holds and one that does not. -/
theorem witness_RowFloats :
    inF 0 = true ∧ (0x08, (fun a b _ => a + b : Rat → Rat → Rat → Rat), fun x y _ => negZero x && negZero y) ∈ floatOps ∧
    ratOf (decodeVal 0 (wordElem 0 0x3F800000 0)) + ratOf (decodeVal 0 (wordElem 0 0x40000000 0)) = 3 ∧
    ratOf (decodeVal 0 (wordElem 0 0x3F800000 0)) + ratOf (decodeVal 0 (wordElem 0 0xBF800000 0)) = 0 ∧
    (decodeVal 0 (wordElem 0 0x7FC00000 0)).isNan = true ∧ (decodeVal 0 (wordElem 0 0x7F800000 0)).isInf = true ∧
    zeroTimesInf (decodeVal 0 (wordElem 0 0x80000000 0), decodeVal 0 (wordElem 0 0xFF800000 0)) = true ∧
    negZero (decodeVal 0 (wordElem 0 0x80000000 0)) = true ∧ (decodeVal 0 (wordElem 0 0x80000000 0)).isZero = true ∧
    ratOf (decodeVal 0 (wordElem 0 0x3F800000 0)) < ratOf (decodeVal 0 (wordElem 0 0x40000000 0)) :=
  ⟨by decide, .head _, by decide +kernel, by decide +kernel, by decide +kernel, by decide +kernel, by decide +kernel, by decide +kernel,
    by decide +kernel, by decide +kernel⟩

/-- `RowInfinities`: f32 infinities of both signs, zero times infinity, and a NaN. -/
theorem witness_RowInfinities :
    inF 0 = true ∧ decodeVal 0 (wordElem 0 0x7F800000 0) = .inf false ∧ decodeVal 0 (wordElem 0 0xFF800000 0) = .inf true ∧
    (decodeVal 0 (wordElem 0 0x7FC00000 0)).isNan = true ∧ (decodeVal 0 (wordElem 0 0x7F800000 0)).isNan = false ∧
    zeroTimesInf (decodeVal 0 (wordElem 0 0 0), decodeVal 0 (wordElem 0 0x7F800000 0)) = true ∧
    infProduct true (decodeVal 0 (wordElem 0 0xBF800000 0), decodeVal 0 (wordElem 0 0x7F800000 0)) = true ∧
    zeroTimesInf (decodeVal 0 (wordElem 0 0xBF800000 0), decodeVal 0 (wordElem 0 0x7F800000 0)) = false ∧
    (decodeVal 0 (wordElem 0 0x80000000 0)).isZero = true ∧ (decodeVal 0 (wordElem 0 0xBF800000 0)).sign = true ∧
    (decodeVal 0 (wordElem 0 0xBF800000 0)).isInf = false ∧
    ratOf (decodeVal 0 (wordElem 0 0xBF800000 0)) < ratOf (decodeVal 0 (wordElem 0 0x3F800000 0)) := by
  decide +kernel

/-- `ScaleAndClamp`: a scale byte of 0xFF, and one of 128, which doubles; a number, a zero, infinities and a NaN to scale and to clamp. -/
theorem witness_ScaleAndClamp :
    inF 0 = true ∧ (0 : Nat) < perWord 0 ∧ ((0xFF : Line).extractLsb' (8 * (0 / 2 ^ ((op1 0x14 0).mod_ % 8) % 64)) 8).toNat = 0xFF ∧
    ((128 : Line).extractLsb' (8 * (0 / 2 ^ ((op1 0x14 0).mod_ % 8) % 64)) 8).toNat = 128 ∧
    (decodeVal 0 (wordElem 0 0x7FC00000 0)).isNan = true ∧ decodeVal 0 (wordElem 0 0xFF800000 0) = .inf true ∧
    decodeVal 0 (wordElem 0 0x7F800000 0) = .inf false ∧
    ((decodeVal 0 (wordElem 0 0x3F800000 0)).isNan = false ∧ (decodeVal 0 (wordElem 0 0x3F800000 0)).isInf = false) ∧
    ratOf (decodeVal 0 (wordElem 0 0x3F800000 0)) = 1 ∧ ratOf (decodeVal 0 (wordElem 0 0x80000000 0)) = 0 ∧
    negZero (decodeVal 0 (wordElem 0 0x80000000 0)) = true := by
  decide +kernel

/-- `Conversions`: a NaN, an infinity, a zero and a finite f32 number; a power of two; integers within and beyond the bytes; an f32 word
packed to f16 and an f16 word unpacked. -/
theorem witness_Conversions :
    isFloat 0 = true ∧ decodeVal 0 0x7FC00000 = .nan false ∧ decodeVal 0 0xFF800000 = .inf true ∧
    (∃ e, decodeVal 0 0x80000000 = .num true 0 e) ∧ (∃ m e, decodeVal 0 0x3F800000 = .num false m e ∧ 0 < m) ∧
    ratOf (decodeVal 0 0x40000000) = 2 ^ (1 : Int) ∧ isInteger 12 = true ∧ decodeInteger 12 127 ≤ (intRange 7).2.1 ∧
    (intRange 7).2.1 < decodeInteger 12 128 ∧ decodeInteger 12 0x80000000 < (intRange 7).1 ∧
    2 * elemBits 2 = elemBits 0 ∧ (op1 0x25 2).mod_ % 16 ≤ 14 ∧ (op1 0x26 0).mod_ % 16 ≤ 14 :=
  ⟨by decide, by decide +kernel, by decide +kernel, ⟨-149, by decide +kernel⟩, ⟨8388608, -23, by decide +kernel, by decide⟩, by decide +kernel,
    by decide, by decide, by decide, by decide, by decide, by decide, by decide⟩

/-- `SpecialCases`: f32 operands: NaNs, zeros, infinities, −1, 1, and 2^20. -/
theorem witness_SpecialCases :
    inF 0 = true ∧ (decodeVal 0 (wordElem 0 0x7F800001 0)).isSnan = true ∧ (decodeVal 0 (wordElem 0 0x7F800001 0)).isNan = true ∧
    (decodeVal 0 (wordElem 0 0x80000000 0)).isZero = true ∧ (decodeVal 0 (wordElem 0 0x80000000 0)).sign = true ∧
    belowZero (decodeVal 0 (wordElem 0 0xBF800000 0)) = true ∧ belowZero (decodeVal 0 (wordElem 0 0xFF800000 0)) = true ∧
    decodeVal 0 (wordElem 0 0x7F800000 0) = .inf false ∧ decodeVal 0 (wordElem 0 0xFF800000 0) = .inf true ∧
    (decodeVal 0 (wordElem 0 0x3F800000 0)).isInf = false ∧ ratOf (decodeVal 0 (wordElem 0 0x3F800000 0)) = 1 ∧
    (decodeVal 0 (wordElem 0 0x49800000 0)).isNan = false ∧ (2 : Rat) ^ 20 ≤ magOf (ratOf (decodeVal 0 (wordElem 0 0x49800000 0))) := by
  decide +kernel

/-- `SquareRoot`, `SpecialResults`: 4, whose root is exact, and 2; the integer 3 of `exp2` and the power 8 of `log2`; and an operand of each other
function, whose exact value does not overflow. -/
theorem witness_SpecialResults :
    ratOf (decodeVal 0 (wordElem 0 0x40800000 0)) = 4 ∧ ratOf (decodeVal 0 (wordElem 0 0x40000000 0)) = 2 ∧
    (decodeVal 0 (wordElem 0 0x40000000 0)).isNan = false ∧ (decodeVal 0 (wordElem 0 0x40000000 0)).isInf = false ∧
    ratOf (decodeVal 0 (wordElem 0 0x40400000 0)) = (3 : Int) ∧ ratOf (decodeVal 0 (wordElem 0 0x41000000 0)) = (2 : Rat) ^ (3 : Int) ∧
    decodeVal 0 (wordElem 0 0x40400000 0) = .num false 0xC00000 (-22) ∧
    (([.exp2, .log2, .rcp, .rsqrt, .sin, .cos, .tanh, .sigm] : List SpecialFn).all fun f =>
      specialCase f (decodeVal 0 (wordElem 0 0x40400000 0)) == none &&
      (let y := nearOf f false 0xC00000 (-22); (roundFinite 0 0 0 y.neg y.m y.e).2 &&& flagOF == 0)) = true := by
  decide +kernel

/-- `Reductions`: words of finite f32 numbers with a sum that is not zero and one that is; with a NaN; with infinities of both signs. -/
theorem witness_Reductions :
    inF 0 = true ∧ inI 7 = true ∧ (0x28 : Nat) ∈ [0x28, 0x29, 0x2A] ∧ 1 < perWord 0 ∧
    (∀ i, i < perWord 0 → (decodeVal 0 (wordElem 0 0x3F800000 i)).isNan = false ∧ (decodeVal 0 (wordElem 0 0x3F800000 i)).isInf = false) ∧
    ((List.range (perWord 0)).map fun i => ratOf (decodeVal 0 (wordElem 0 0x3F800000 i))).sum = 1 ∧
    ((List.range (perWord 0)).map fun i => ratOf (decodeVal 0 (wordElem 0 0 i))).sum = 0 ∧
    (decodeVal 0 (wordElem 0 0x7FC0000000000000 1)).isNan = true ∧
    decodeVal 0 (wordElem 0 0x7F800000FF800000 0) = .inf true ∧ decodeVal 0 (wordElem 0 0x7F800000FF800000 1) = .inf false := by
  decide +kernel

/-- `ElementRow`, `ecfg`, `ecfg.st` and `emode`: areas at the end of the free part and beyond it; a token whose entries are accepted and
one that is refused; a port without a word, with an EOS, and with a token. -/
theorem witness_ElementRow_config :
    bandStart < 64 * (0x7C00 : BitVec 15).toNat + 160 ∧ 64 * (0x7BFD : BitVec 15).toNat + 160 ≤ bandStart ∧
    quiet sX [ownSpan sX sX.here (64 * 0x7BFD) 160 true false] = true ∧ quiet sX [ownSpan sX sX.here (64 * 0x7BFD) 160 false true] = true ∧
    poisoned tX.poison (64 * 0x7BFD) 160 64 = false ∧ tX.badAt 0x220000 0xA0 = false ∧
    quiet sX [ownSpan sX sX.here 0 64 true false] = true ∧ (∀ k, k < 16 → tokenEntryOk (tokenEntry 0 k) = true) ∧
    tokenEntryOk (tokenEntry (2 ^ 512 - 1) 15) = false ∧ tGet 0 tX.cfgErr 3 = 0 ∧ tX.inFifo 3 = [] ∧
    ({ tX with inPorts := [(3, [{ data := 0, kind := 2 }])] }.inFifo 3 = [{ data := 0, kind := 2 }]) ∧
    ({ data := 0, kind := 2 } : StreamWord).isData = false ∧ ({ data := 0, kind := 0 } : StreamWord).isData = true := by
  decide +kernel

/-- `ElementRow`, `erow`: a configuration that is refused; a row of words with a descriptor output, which runs to its end. -/
theorem witness_ElementRow_run :
    let no : SidePort := { mode := 0, field := 0 }
    rowConfigOk { tX with rowCfg := [(0, 0xFFFFFFFF)] } false false = false ∧ sX.progOf sX.here .X = .start ∧
    (∃ p, erowPlan sX sX.here 2 2 no no false = .ok p ∧ guards sX sX.here p.2 = .ok sX) ∧
    doneB (erowWords (sX.onProg sX.here .X fun p => { p with begun := true }) sX.here no no
      { gin := rec1 (own 0xC0) 0 16, sa := none, sb := none, gout := some (rec1 (own 0xC0) 0 16) } 0
      (Tlr.words (rec1 (own 0xC0) 0 16))) = true :=
  ⟨by decide +kernel, by decide, plan_of (f := fun p : RowRecords × List Span => p.2) (by decide +kernel), by decide +kernel⟩

/-- `GeneratorAndFlags`: selectors 14 and 15 with the largest value they take and one more; areas at the end of the free part. -/
theorem witness_GeneratorAndFlags_gset : (14 : BitVec 4) ≠ 15 ∧ (31 : BitVec 16).toNat < 32 ∧ 32 ≤ (32 : BitVec 16).toNat ∧
    64 * (0x7BFE : BitVec 15).toNat + 4 * 32 ≤ bandStart ∧ 64 * (0x7BFC : BitVec 15).toNat + 256 ≤ bandStart ∧
    tX.badAt 0x220100 0x100 = false ∧ tX.badAt 0x220100 56 = false ∧ poisoned tX.poison (64 * 0x7BFC) 256 64 = false ∧
    quiet sX [ownSpan sX sX.here (64 * 0x7BFE) 128 true false] = true ∧
    quiet sX [ownSpan sX sX.here (64 * 0x7BFC) 256 true false] = true ∧ quiet sX [ownSpan sX sX.here (64 * 0x7BFC) 256 false true] = true := by
  decide +kernel

/-- `GeneratorAndFlags`: programs that build and that do not, and images that `grest` takes and refuses. -/
theorem witness_GeneratorAndFlags_build :
    (match build gEnd with | .ok _ => true | .error _ => false) = true ∧
    (match build { GenState.zero with nw := 1, store := [(0, 0xFFFFFFFF)] } with | .ok _ => false | .error _ => true) = true ∧
    (match restoreGen .zero gEnd.image with | .ok _ => true | .error _ => false) = true ∧
    (match restoreGen .zero (2 ^ 512) with | .ok _ => false | .error _ => true) = true := by
  decide +kernel

/-- `GeneratorAndFlags`, `zclr` and `zscan`: the last block of the free part, one beyond it, and one beyond the scratchpad. -/
theorem witness_GeneratorAndFlags_blocks : (0xF7F : BitVec 12).toNat + (0 : BitVec 6).toNat < 0xF80 ∧
    0xF80 ≤ (0xF80 : BitVec 12).toNat + (0 : BitVec 6).toNat ∧ (0xFFF : BitVec 12).toNat + (0 : BitVec 6).toNat < 4096 ∧
    4096 ≤ (0xFFF : BitVec 12).toNat + (1 : BitVec 6).toNat ∧ 4 < (5 : BitVec 3).toNat ∧ (4 : BitVec 3).toNat ≤ 4 ∧
    quiet sX [ownSpan sX sX.here (512 * 0xF7F) 512 true false] = true ∧ poisoned tX.poison (512 * 0xF7F) 512 64 = false := by
  decide +kernel

/-! ### The sequencer's and the services' events -/

/-- L at a `b` word (0x36000000) at word 2, with the outcomes `goto 5`. -/
def tFlow : Tile := { tq with istore := [(2, (encode (.b 3)).getD 0)], outcomes := [.goto 5] }

/-- `OutcomeTaken`: an outcome that waits, of each kind, and none. -/
theorem witness_OutcomeTaken : tFlow.cntL.st ≠ .halted ∧ tFlow.lull = .none ∧ tFlow.cntL.pc < tFlow.nwords ∧
    tGet false tFlow.istoreBad tFlow.cntL.pc = false ∧ isFlow (tGet 0 tFlow.istore tFlow.cntL.pc) = true ∧
    tFlow.outcomes[tFlow.consumed .L - tFlow.freed]? = some (.goto 5) ∧
    { tFlow with outcomes := [.halt] }.outcomes[0]? = some .halt ∧ { tFlow with outcomes := [] }.outcomes[0]? = none := by decide

/-- A command of L performed, with both give bits of L's word, and one that owes its give. -/
def qDone : QEntry := { newEntry tDesc 0x48000000 2 0 [] false false with phase := .performed, popped := true }
def qHeld : QEntry := { qDone with phase := .held, owed := 2 }

/-- `CommandsComplete`: a performed command, a pushed one, one that a full FIFO holds back, and a held one whose FIFO has room. -/
theorem witness_CommandsComplete :
    (let tl := { tq with qL := [qDone] }
     (tl.queue .L).find? (fun k => k.id = qDone.id) = some qDone ∧ qDone.phase = .performed ∧ qDone.pushed = false ∧
     { qDone with pushed := true }.pushed = true ∧ (tl.pushGives .L (giveBits qDone.word)).2 = 0) ∧
    ({ tq with tokLX := 8 }.pushGives .L 2).2 ≠ 0 ∧
    (let tl := { tq with qL := [qHeld] }
     (tl.queue .L).find? (fun k => k.id = qHeld.id && k.owed ≠ 0) = some qHeld ∧ qHeld.phase = .held ∧ qHeld.owed ≠ 0 ∧
     (tl.pushGives .L qHeld.owed).2 = 0) := by decide

/-- `CommandsComplete`: a command that waits, an `accclr`; one whose nest owes a give with room in its FIFO; a performed one that owes
one; and one behind whose give another waits, with a full FIFO. -/
theorem witness_CommandsComplete_waits :
    (let q := { qDone with phase := .running, word := 0xA5A80000 }
     ({ tq with qX := [q] }.queue .X).find? (fun k => k.id = q.id) = some q ∧ decodeTableWord 32 0xA5A80000 = some (.accclr 1 0 0 1 20)) ∧
    (let q := { qDone with phase := .running, owed := 2 }
     let tl := { tq with qL := [q] }
     (tl.queue .L).find? (fun k => k.id = q.id && k.owed ≠ 0) = some q ∧ q.owed ≠ 0 ∧ tl.lull ≠ .sealed ∧ (tl.pushGives .L 2).2 = 0) ∧
    (let q := { qDone with owed := 2 }
     ({ tq with qL := [q] }.queue .L).find? (fun k => k.id = q.id) = some q ∧ q.phase = .performed ∧ q.owed ≠ 0) ∧
    { qHeld with more := [3] }.more = [3] ∧ qHeld.more = [] ∧ ({ tq with qL := [qHeld], tokLX := 8 }.pushGives .L qHeld.owed).2 ≠ 0 := by
  decide

/-- `TokensPushed`: X's FIFOs with room, and full. -/
theorem witness_TokensPushed : tq.tokXL < 8 ∧ tq.tokXS < 8 ∧ { tq with tokXL := 8 }.tokXL = 8 ∧ 8 ≤ { tq with tokLX := 8 }.tokLX := by
  decide

/-- Tile 0 with every counter halted by the `halt` at word 4. -/
def tEnd : Tile :=
  { tq with haltedAt := some 4, drained := false, cntC := { pc := 4, st := .halted, ended := false }, cntL := { pc := 4, st := .halted, ended := false },
            cntX := { pc := 4, st := .halted, ended := false }, cntS := { pc := 4, st := .halted, ended := false } }

/-- `DrainEnds`: nothing left over, and a token left over. -/
theorem witness_DrainEnds : tEnd.haltedAt = some 4 ∧ tEnd.allHalted = true ∧ tEnd.drained = false ∧ tEnd.lull = .none ∧
    tEnd.escalated = false ∧ drainOver (on0 tEnd) 0 = true ∧ leftovers tEnd = 0 ∧
    (let tl := { tEnd with tokXS := 1 }; drainOver (on0 tl) 0 = true ∧ leftovers tl ≠ 0) := by decide

/-- A report of C of tile 0, in context 0. -/
def rp : Report := { tile := 0, rel := 0, ctx := some 0, gen := 0, cause := .RANGE, eng := .C, index := 2 }

/-- A record of one tile, and the device with the context sealed away under it. -/
def sealed0 : SealedRecord := { tiles := [(0, ta)], regions := [], gens := [] }
def sAway : State := { sa with ctxs := [(0, { tc with sealedRec := some sealed0 })] }
def sSealed : State := { sAway with seals := (sealsRead sAway 0 0 sealed0).toList.map fun x => (0, x) }

/-- `Escalates`: a report of a context that is placed and has no run, one of a generation that is gone, and one of a context that is sealed
away, whose record its seals match. -/
theorem witness_Escalates :
    (let s := { sa with reports := [rp] }
     s.reports = rp :: [] ∧ rp.ctx = some 0 ∧ tFind s.ctxs 0 = some tc ∧ tc.gen = rp.gen ∧ tc.gen ≠ { rp with gen := 1 }.gen ∧ tc.run = none ∧
     tc.heldFault = none ∧ tc.sealedRec = none) ∧
    (let s := { sSealed with reports := [rp] }
     let c := { tc with sealedRec := some sealed0 }
     s.reports = rp :: [] ∧ tFind s.ctxs 0 = some c ∧ c.gen = rp.gen ∧ c.sealedRec = some sealed0 ∧
     tFind s.seals 0 = sealsRead s 0 c.key sealed0) := by
  refine ⟨by decide, rfl, rfl, rfl, rfl, ?_⟩
  show tFind ((sealsRead sAway 0 0 sealed0).toList.map fun x => (0, x)) 0 = sealsRead sAway 0 0 sealed0
  cases sealsRead sAway 0 0 sealed0 <;> rfl

/-- A binding with nothing but its source. -/
def tb : Binding :=
  { src := .queue 0, runtag := 7, cq := 0, prio := 0, shovr := false, share := 0, ctok := false, cirq := false, args := [], ops := [],
    stamp := 0, aged := 0 }

/-- A context with a run. -/
def tcRun : Context := { tc with run := some { binding := tb, fail := none, stopped := false } }

/-- `Escalates`: a run that has not failed. -/
theorem witness_Escalates_run : ∃ run, tcRun.run = some run ∧ run.fail = none := ⟨_, rfl, rfl⟩

/-- A context with a paged range whose map lists nothing. -/
def tcPaged : Context := { tc with ranges := [{ tr with paged := true }] }

/-- A page fault of C of tile 0. -/
def pf : PageFault := { ctx := 0, gen := 0, va := 0xFFFF, who := .c 0 }

/-- `PageService`, `PageBacked`: a page that is there, and one that is not, with a pool of one page and with none. -/
theorem witness_PageService :
    let s := { sa with ctxs := [(0, tcPaged)], pageFaults := [pf], functions := [(0, { Function.reset with poolSize := 65536 })] }
    let s1 := { s with pageFaults := [] }
    s.pageFaults = pf :: [] ∧ tFind s.ctxs pf.ctx = some tcPaged ∧ tcPaged.gen = pf.gen ∧
    translate s1 tcPaged pf.va 1 false false = .error (.page 0xFFFF) ∧ tcPaged.rangeOf pf.va 1 = some { tr with paged := true } ∧
    (backPage s1 tcPaged { tr with paged := true } pf.va).isSome = true ∧
    backPage sa tcPaged { tr with paged := true } pf.va = none ∧
    translate sa tc pf.va 1 false false = .ok (.device 0x10FFFF 0) :=
  ⟨rfl, rfl, rfl, rfl, rfl, by decide +kernel, rfl, rfl⟩

/-- A page request of generator 2 of context 0. -/
def hr : HostRequest := { number := 3, ctx := 0, gen := 0, space := 0, iova := 0x5000, epid := 3, who := .generator 0 2 }

/-- `HostPages`: a request of a context that lives, and one whose context is gone. -/
theorem witness_HostPages :
    let s := { sa with hostRequests := [hr] }
    s.hostRequests.find? (fun k => k.number = hr.number) = some hr ∧ (tFind s.ctxs hr.ctx).map (·.gen) = some hr.gen ∧
    (tFind ({ s with ctxs := [] } : State).ctxs hr.ctx).map (·.gen) ≠ some hr.gen ∧ hr.who = .generator 0 2 := by decide

/-- `UpdatesArrive`: an open batch; the oldest update towards a live entry, of a tile that runs and of one that is sealed, with room in
its ring and with none; towards an entry that is not live. -/
theorem witness_UpdatesArrive :
    let e : SubEntry := { SubEntry.zero with state := 1, lines := 1, spillK := 1 }
    let s := { sa with flits := [flit01] }
    tGet [] { tq with batches := [(31, [flit01.flit])] }.batches 31 ≠ [] ∧ s.flits[0]? = some flit01 ∧ flitFirst s.flits 0 = true ∧
    (tGet SubEntry.zero (s.tile 1).subs 0).state ≠ 1 ∧ e.state = 1 ∧
    (tGet SubEntry.zero ({ s.tile 1 with subs := [(0, e)], lull := .sealed } : Tile).subs 0).state = 1 ∧
    1024 * e.spillK.toNat ≤ { e with spillCnt := 1024 }.spillCnt.toNat ∧ { e with spillCnt := 1023 }.spillCnt.toNat < 1024 * e.spillK.toNat := by
  decide

/-- `UpdatesArrive`: a `sub` that asks for a spill ring of one unit. -/
theorem witness_UpdatesArrive_spill :
    let s := { on0 { tq with cwait := some (.spill 1 none) } with spillAsks := [0] }
    s.spillAsks = 0 :: [] ∧ (s.tile 0).cwait = some (.spill 1 none) := by decide

/-- `UpdatesArrive`: a `resync` of the entry that has copied the update's line, and one that has not; and no `resync`. -/
theorem witness_UpdatesArrive_resync :
    { tq with cwait := some (.resync 0 1) }.resyncAt flit01.subIdx = some 1 ∧ flit01.flit.line < 1 ∧
    { tq with cwait := some (.resync 0 0) }.resyncAt flit01.subIdx = some 0 ∧ ¬ flit01.flit.line < 0 ∧ tq.resyncAt flit01.subIdx = none := by
  decide

/-- `ServicesComplete`: after reset nothing waits for any of the services. -/
theorem witness_ServicesComplete : State.reset.reports = [] ∧ State.reset.pageFaults = [] ∧ State.reset.hostRequests = [] ∧
    tGet [] (State.reset.tile 2079).batches 31 = [] ∧ State.reset.flits = [] ∧ State.reset.spillAsks = [] := by decide

/-- `PhaseWords`: a word sent by tile 0 to the east; none; a word that the neighbour forwards from its west to its south, with room. -/
theorem witness_PhaseWords :
    let s := on0 { ta with linkOut := [(1, [4])] }
    let v := s.onTile 1 fun tl => { tl with linkIn := [(3, [4])], forward := [(2, 4)] }
    dirNum .east = 1 ∧ neighbour 0 1 = some 1 ∧ (s.tile 0).forward = [] ∧ tGet [] (s.tile 0).linkOut 1 = [4] ∧
    (s.tile 1).forward = [] ∧ tGet [] (s.tile 0).linkOut 2 = [] ∧ tGet [] (v.tile 1).linkIn 3 = [4] ∧
    (∀ k, k < 4 → (v.tile 1).source k = if k = 2 then 3 + 1 else 0) ∧ v.linkFill 1 2 < 8 := by decide

/-- `FlitBytes`: the bytes of a flit in order. -/
theorem witness_FlitBytes : tSorted 0 ([(0, 1), (63, 2)] : Table Byte) = true := by decide

/-! ### The Front -/

/-- A completion ring of 64 entries in host memory, and a submission ring on it. -/
def rg : Ring :=
  { func := 0, pasid := 0, host := true, base := 0x1000, size := 64, dcq := 0, msix := 3, hwb := 0x800, count := 0, shadow := 0,
    stopped := false }
def sq : SubQueue :=
  { ring := rg, opmask := 0xFFFFFFFF, ctxmask := 0xFFFFFFFF, prioMax := 2,
    windows := [{ enabled := true, host := true, base := 0, limit := 16 }, { enabled := false, host := false, base := 0, limit := 0 }] }

/-- `Doorbells`: a tail count at the ring's size and beyond it; a completion queue of the function, and its own; writes that are dropped. -/
theorem witness_Doorbells :
    let s := { sa with subQs := [(0, sq)], compQs := [(0, rg), (32, rg)] }
    tFind s.subQs 0 = some sq ∧ sq.ring.func = 0 ∧ ((64 : BitVec 32) - sq.ring.count).toNat ≤ sq.ring.size ∧
    sq.ring.size < ((65 : BitVec 32) - sq.ring.count).toNat ∧ sq.ring.stopped = false ∧
    tFind s.subQs 32 = none ∧ tFind s.compQs 32 = some rg ∧ rg.func = 0 ∧ (rg.count - 0).toNat ≤ rg.size ∧ tFind s.compQs 0 = some rg ∧
    32760 < 32768 ∧ (32760 % 8 = 0 ∧ tFind s.subQs (32760 / 8) = none ∧ tFind s.compQs (32760 / 8) = none) := by decide

/-- `Doorbells`: queues of other functions, at 8q and at 8q + 4, and an upper half of a queue that is not the function's own. -/
theorem witness_Doorbells_drops :
    let s := { sa with subQs := [(40, { sq with ring := { rg with func := 1 } })], compQs := [(0, rg), (41, { rg with func := 1 })] }
    (8 * 40 < 32768 ∧ ∃ k, tFind s.subQs (8 * 40 / 8) = some k ∧ k.ring.func ≠ 0) ∧
    (tFind s.subQs (8 * 41 / 8) = none ∧ ∃ r, tFind s.compQs (8 * 41 / 8) = some r ∧ r.func ≠ 0) ∧
    ((8 * 41 + 4) % 8 = 4 ∧ (8 * 41 + 4) / 8 ≠ 0) ∧ (∀ r, tFind s.compQs (4 / 8) = some r → r.func ≠ 1) ∧ 32765 % 8 ≠ 0 ∧ 32765 % 8 ≠ 4 :=
  ⟨⟨by decide, _, rfl, by decide⟩, ⟨rfl, _, rfl, by decide⟩, by decide, fun _ h => by cases h; decide, by decide⟩

/-- A mapped queue with one packet in its ring. -/
def sFetch (k : SubQueue) : State :=
  { sa with subQs := [(5, k)], slots := [{ queue := 5, quiescing := false }], hostMem := [(0, [(0x1000, 1)])] }

/-- `Fetches`: a packet to fetch with room in its FIFO, and with none. -/
theorem witness_Fetches :
    let k := { sq with ring := { rg with shadow := 1 } }
    tFind (sFetch k).subQs 5 = some k ∧ (sFetch k).slots.find? (fun u => u.queue = 5) = some { queue := 5, quiescing := false } ∧
    k.ring.stopped = false ∧ k.ring.count ≠ k.ring.shadow ∧ ringReady (sFetch k) k.ring = true ∧
    fifoFull (sFetch k) (ringPacket (sFetch k) k.ring) = false ∧
    fifoFull { sFetch k with ctxs := [(0, { tc with fifo := List.replicate 16 tb })] } (ringPacket (sFetch k) k.ring) = true ∧
    k.ring.hwb ≠ 0 ∧ k.ring.host = true ∧ { rg with hwb := 0 }.hwb = 0 := by decide +kernel

/-- Sixty-four slots, of queues 0 to 63. -/
def full64 : List SlotUse := (List.range 64).map fun q => { queue := q, quiescing := false }

/-- `SlotsTurn`: a free slot; all in use, with an idle queue and with none; a queue that is quiesced, with and without a packet on its way. -/
theorem witness_SlotsTurn :
    let p := { sa with pendingQs := [70] }
    let b := { p with slots := full64 }
    let busy := { b with subQs := (List.range 64).map fun q => (q, { sq with ring := { rg with shadow := 1 } }) }
    let qu := { b with slots := { queue := 0, quiescing := true } :: full64.drop 1 }
    p.pendingQs = 70 :: [] ∧ p.slots.length < 64 ∧ 64 ≤ b.slots.length ∧ b.oldestIdle = some 0 ∧
    (b.slots.filter fun u => u.queue ≠ 0).length < 64 ∧ busy.oldestIdle = none ∧ busy.slots = { queue := 0, quiescing := false } :: full64.drop 1 ∧
    busy.slots.find? (·.quiescing) = none ∧ qu.slots.find? (·.quiescing) = some { queue := 0, quiescing := true } ∧
    qu.inFetch 0 = false ∧ ({ qu with fetched := [(.queue 0, 0)] } : State).inFetch 0 = true ∧
    ({ busy with slots := qu.slots } : State).idleQueue 0 = false := by decide +kernel

/-- `RecordsWritten`: a record for a ring with room, one that asks for MSI-X, and a full ring. -/
theorem witness_RecordsWritten :
    let h := heldFor 0 5
    let s := { sa with held := [h], compQs := [(0, rg)] }
    s.held.find? (fun h => h.cq = 0) = some h ∧ tFind s.compQs 0 = some rg ∧ rg.stopped = false ∧ ringReady s rg = true ∧
    (rg.count - rg.shadow).toNat < rg.size ∧ ({ rg with count := 64 }.count - rg.shadow).toNat ≥ rg.size ∧ h.ctok = false ∧
    rg.host = true ∧ h.cirq = false ∧ { h with cirq := true }.cirq = true ∧ s.hostReady rg.func = true := by decide

/-! ### Packets -/

/-- A packet with its opcode, its context and further fields. -/
def pkt (opc ctx rest : Nat) : BitVec 512 := BitVec.ofNat 512 (opc + ctx * 2 ^ 8 + rest)

/-- Endpoints of every kind, on port 0 of the corner tile. -/
def tEps : List Endpoint :=
  [(EpKind.memIn, 1), (.memOut, 2), (.hostIn, 3), (.hostOut, 4), (.hostToken, 5), (.jetIn, 6), (.jetOut, 7), (.queue, 8)].map fun (k, n) =>
    { name := 0, epid := BitVec.ofNat 16 n, kind := k, sink := false, tile := 0, port := 0, burst := 1, fmt := 0, range := 0, jetIdx := 0,
      oc := 0 }

/-- An image of two rows and two columns, with a text of one `halt` in tile 0 and the given endpoints. -/
def ti (eps : List Endpoint) : Image :=
  { authKey := 0, imageId := 0, prot := false, measurement := 1, totLen := 0, width := 2, height := 2, edges := 0, memPorts := 1,
    jetPorts := 0, hostEp := false, texts := [{ words := [0x37600000], entry := 0, doff := 0, data := [] }],
    tileMap := [0, 0xFFFF, 0xFFFF, 0xFFFF], rowCfgs := [], regions := [], routes := [], endpoints := eps,
    templates := [{ vbase := 0, vlimit := 0x10000, canRead := true, canWrite := true, plain := true, share := 0, posted := false, peer := false }],
    subs := [], stageLists := [] }

/-- A packet fetched from queue 40 of function 0, whose completion queue is 0. -/
def sPkt (p : BitVec 512) : State :=
  { sa with subQs := [(40, { sq with ring := { rg with dcq := 0 } })], compQs := [(0, rg)], fetched := [(.queue 40, p)],
            images := [(0, ti tEps)] }

/-- The limits of that queue. -/
def lm : Limits :=
  { func := some 0, opmask := 0xFFFFFFFF, ctxmask := 0xFFFFFFFF, prioMax := 2, windows := sq.windows, pasid := 0 }

/-- A packet passes orders 1 and 2 at the head of queue 40. -/
def frontB (p : BitVec 512) : Bool :=
  decide ((sPkt p).headOf (.queue 40) = some p) && decide ((sPkt p).limitsOf (.queue 40) = some lm) && okB (checkShape (sPkt p) lm p) fun _ => true

theorem atFront_of {p : BitVec 512} (h : frontB p = true) : atFront (sPkt p) (.queue 40) p lm := by
  simp only [frontB, Bool.and_eq_true, decide_eq_true_eq] at h
  refine ⟨h.1.1, h.1.2, ?_⟩
  cases hc : checkShape (sPkt p) lm p with
  | ok u => rfl
  | error e => rw [hc] at h; exact absurd h.2 (by simp [okB])

/-- An error with a property. -/
def errB {ε α : Type} (r : Except ε α) : Bool :=
  match r with
  | .ok _ => false
  | .error _ => true

/-- `Rejected`: a reserved opcode. -/
theorem witness_Rejected : (sPkt 31).headOf (.queue 40) = some 31 ∧ (sPkt 31).limitsOf (.queue 40) = some lm ∧
    errB (checkShape (sPkt 31) lm 31) = true := by decide +kernel

/-- `TablePackets`: the four packets; a `SHARESET` whose ceiling is below its minimum, and tables that hold and exceed 1,024. -/
theorem witness_TablePackets :
    frontB (pkt 0 0 0) = true ∧ frontB (pkt 0x0C 63 (1024 * 2 ^ 96 + 1024 * 2 ^ 120)) = true ∧ frontB (pkt 0x0D 31 (2 ^ 351)) = true ∧
    frontB (pkt 0x0E 63 (7 * 2 ^ 16)) = true ∧ pktOpc (pkt 0x0E 63 0) = 0x0E ∧ (3 < 4 ∨ 1024 < 4 ∨ 1024 < 3) ∧
    minSum [] 63 1024 ≤ 1024 ∧ 1024 < minSum [(0, { Share.reset with min := 1 })] 63 1024 := by decide +kernel

/-- `RunPackets`: a `BIND` of context 0 that passes, with completion queues, contexts and priorities that fail. -/
theorem witness_RunPackets_bind :
    let p := pkt 1 0 0
    let s := { sPkt p with images := [(0, ti [])] }
    frontB p = true ∧ okB (checkCq s lm p) (fun _ => true) = true ∧ errB (checkCq s lm (pkt 1 0 (9 * 2 ^ 32))) = true ∧
    okB (checkCtx s lm p true) (fun c => decide (c = tc)) = true ∧ errB (checkCtx s lm (pkt 1 31 0) true) = true ∧
    s.imageOf tc = some (ti []) ∧ lm.prioMax < pktField (pkt 1 0 (3 * 2 ^ 16)) 16 2 ∧ pktField p 16 2 ≤ lm.prioMax ∧
    okB (checkBinds s lm p tc (ti [])) (fun _ => true) = true ∧ errB (checkBinds s lm p tc (ti tEps)) = true ∧
    tc.fifo.length < 16 ∧ 16 ≤ { tc with fifo := List.replicate 16 tb }.fifo.length := by decide +kernel

/-- `RunPackets`: a `TOKEN` for endpoint 5, a HOST-TOKEN; for one that is none, and for no endpoint; a FIFO with room and a full one. -/
theorem witness_RunPackets_token :
    let s := sPkt (pkt 2 0 (5 * 2 ^ 16))
    frontB (pkt 2 0 (5 * 2 ^ 16)) = true ∧ errB (checkCtx s lm (pkt 2 31 0) false) = true ∧
    okB (checkCtx s lm (pkt 2 0 0) false) (fun c => decide (c = tc)) = true ∧ findEp (s.endpointsOf tc) 9 = none ∧
    ((findEp (s.endpointsOf tc) 5).map fun p => (p.1, p.2.kind)) = some (4, .hostToken) ∧
    ((findEp (s.endpointsOf tc) 1).map fun p => decide (p.2.kind ≠ .hostToken)) = some true ∧
    (tc.generator 4).tokens.length < 64 ∧ 64 ≤ { Generator.idle with tokens := List.replicate 64 0 }.tokens.length := by decide +kernel

/-- `ContextPackets`: a `CTXCREATE` inside and outside the function's allocation, with a free number and with none; a `CTXDESTROY` of a context
that is there and of one that is not. -/
theorem witness_ContextPackets :
    let p := pkt 8 0 (64 * 2 ^ 128 + 0x1000 * 2 ^ 160)
    let s := { sPkt p with functions := [(0, { Function.reset with allocBase := 0x1000, allocSize := 64 })] }
    let all := { s with ctxs := (List.range 32).map fun n => (n, tc) }
    frontB p = true ∧ lm.func = some 0 ∧ s.inAlloc 0 0x1000 64 = true ∧ s.inAlloc 0 0x1000 65 = false ∧
    (∀ n, n < 32 → tFind all.ctxs n ≠ none) ∧ tFind s.ctxs 1 = none ∧ (∀ k, k < 1 → tFind s.ctxs k ≠ none) ∧
    frontB (pkt 9 0 0) = true ∧ okB (checkCtx (sPkt (pkt 9 0 0)) lm (pkt 9 0 0) false) (fun c => decide (c = tc)) = true ∧
    errB (checkCtx (sPkt (pkt 9 31 0)) lm (pkt 9 31 0) false) = true := by decide +kernel

/-- `ContextMade`: a free key slot; a store that holds no image of the measurement, and one that holds one. -/
theorem witness_ContextMade : tFind sa.keySlots 0 = none ∧ ((sa.images.find? fun e => e.2.measurement = (ti []).measurement) = none) ∧
    ((({ sa with images := [(0, ti tEps)] } : State).images.find? fun e => e.2.measurement = (ti []).measurement) = some (0, ti tEps)) := by
  decide

/-- A queue descriptor: 64 entries at 0x2000 in host memory, function 0, completions on queue 0; bit 123 makes it a completion queue. -/
def desc (bit123 : Nat) : Nat := 0x2000 + 2 ^ 64 + bit123 * 2 ^ 123

/-- `QueuePackets`, `QCREATE`: windows 0 and 1, descriptors at the last place inside the window and beyond it; a legal descriptor of both kinds,
one with a reserved bit, and one of another function. -/
theorem witness_QueuePackets_create :
    let p := pkt 0x0A 0 (0xFF80 * 2 ^ 96)
    let w : Window := { enabled := true, host := true, base := 0, limit := 16 }
    frontB p = true ∧ lm.window 1 = none ∧ lm.window 0 = some w ∧ w.holds 0xFF81 128 = false ∧ w.holds 0xFF80 128 = true ∧
    (sPkt p).windowReady lm w 0xFF80 128 = true ∧ descReserved (desc 0) = true ∧ descReserved (desc 1) = true ∧
    descReserved (2 ^ 94) = false ∧ descLegal (sPkt p) 0 (desc 0) = true ∧ descLegal (sPkt p) 0 (desc 1) = true ∧
    descLegal (sPkt p) 0 (desc 0 + 2 ^ 98) = false ∧ (sPkt p).freeQueue = some 32 ∧ bitsOf (desc 1) 123 1 = 1 ∧ bitsOf (desc 0) 123 1 = 0 := by
  decide +kernel

/-- `QueuePackets`, `QDESTROY`: queue 41 of the function, with and without a packet on its way. -/
theorem witness_QueuePackets_destroy :
    let p := pkt 0x0B 0 (41 * 2 ^ 64)
    let s := { sPkt p with subQs := (sPkt p).subQs ++ [(41, sq)] }
    frontB p = true ∧ pktOpc p = 0x0B ∧ 32 ≤ pktField p 64 12 ∧ s.queueFunc 41 = some 0 ∧ s.inFetch 41 = false ∧
    ({ s with fetched := s.fetched ++ [(.queue 41, 0)] } : State).inFetch 41 = true := by decide +kernel

/-- `LaneMessages`: a message of a source that the port's entries match and of one that they do not; a `NOP`, a `BIND` and a refused packet. -/
theorem witness_LaneMessages :
    let j : JetPort := { JetPort.reset with
      link := .up, peer := 9, lane := [pkt 0 0 0], sources := [(0, { srcId := 9, srcMask := 0xFFF, ctxmask := 1 })] }
    let s := { sa with jets := [(63, j)], images := [(0, ti [])] }
    let l : Limits := { func := none, opmask := 7, ctxmask := 1, prioMax := 3, windows := [], pasid := 0 }
    (s.jet 63).link = .up ∧ (s.jet 63).lane = [pkt 0 0 0] ∧ (s.jet 63).peer = 9 ∧ s.limitsOf (.lane 63 9) = some l ∧
    s.limitsOf (.lane 63 8) = none ∧ errB (checkShape s l (pkt 8 0 0)) = true ∧ okB (checkShape s l (pkt 0 0 0)) (fun _ => true) = true ∧
    okB (checkShape s l (pkt 1 0 0)) (fun _ => true) = true ∧ (handleBind s l (.lane 63 9) (pkt 1 0 0)).isSome = true := by decide +kernel

/-! ### Runs -/

/-- The device with one context, and the image of its endpoints. -/
def withCtx (c : Context) (eps : List Endpoint) : State := { sa with ctxs := [(0, c)], images := [(0, ti eps)] }

/-- `Starts`: an idle placed context whose binding is the only one ready; one that comes after another's; a fault left by an escalation. -/
theorem witness_Starts :
    let c := { tc with fifo := [tb] }
    let s := withCtx c []
    let later := { tb with stamp := 5 }
    tFind s.ctxs 0 = some c ∧ c.ready = some tb ∧ chosen s tb = true ∧ c.heldFault = none ∧
    chosen s later = false ∧ { tc with fifo := [later] }.ready = some later ∧ { c with heldFault := some 5 }.heldFault = some 5 := by
  decide

/-- `TilesStart`: tile 0, with a program and halted, and tile 1 without one. -/
theorem witness_TilesStart :
    let s := on0 { tEnd with drained := true }
    0 ∈ tc.tiles ∧ 1 ∈ tc.tiles ∧ tc.tiles.Nodup ∧ (s.tile 0).hasText = true ∧ (s.tile 0).drained = true ∧ (s.tile 0).allHalted = true ∧
    (s.tile 1).hasText = false := by decide

/-- `Ages`: a context with a waiting binding, and one whose run waits to be placed again. -/
theorem witness_Ages :
    tFind (withCtx { tc with fifo := [tb] } []).ctxs 0 = some { tc with fifo := [tb] } ∧ ¬ (tc.run.isSome = true ∧ tc.phase = .resident) ∧
    (let c := { tcRun with phase := .resident }; c.run.isSome = true ∧ c.phase = .resident) := by decide

/-- A failure of a run. -/
def rf : RunFail := { status := 1, epid := 1, addr := 0, result := 0 }

/-- `RunsEnd`: a run whose sinks are met (it has none) and one whose MEM-OUT is not; a failed run, with and without posted requests. -/
theorem witness_RunsEnd :
    let s := withCtx tcRun []
    let sinks := withCtx tcRun (tEps.map fun e => { e with sink := true })
    let r : Run := { binding := tb, fail := some rf, stopped := true }
    let f := withCtx { tc with run := some r } []
    tFind s.ctxs 0 = some tcRun ∧ tcRun.run = some { binding := tb, fail := none, stopped := false } ∧ s.postedCount 0 tcRun.gen = 0 ∧
    sinksMet s tcRun = true ∧ sinksMet sinks tcRun = false ∧ r.fail = some rf ∧ (stopRun f 0 r).postedCount 0 0 = 0 ∧
    (stopRun { f with posted := [posted0] } 0 r).postedCount 0 0 ≠ 0 ∧
    tb.src = .queue 0 := by decide

/-- `RunsEnd`: no `sth` under way, and one under way, in S's queue of tile 0; a HOST-OUT stream with a word to
write, and none; and a run with a posted store outstanding. -/
theorem witness_RunsEnd_stores :
    let c := { tcRun with lastOps := [(3, .host 0 0x4000 1)] }
    let s := (withCtx c tEps).onTile 0 fun tl =>
      { tl with g := [(1, rec1 (3 * 2 ^ 54) 7 8)], qS := [qRun ((encode (.sth 0 0 1 0 0 0 0 0 0 0)).getD 0)] }
    let g := { tcRun with gens := [(3, { Generator.idle with active := true, unsent := [{ data := 5, kind := 0 }] })] }
    hostStoring (withCtx tcRun []) tcRun = false ∧ hostStoring s c = true ∧
    hostWriting (withCtx tcRun []) tcRun = false ∧ hostWriting (withCtx g tEps) g = true ∧
    { withCtx tcRun [] with posted := [posted0] }.postedCount 0 tcRun.gen ≠ 0 := by decide +kernel

/-! ### Placement and eviction -/

/-- A resident context that a binding waits on. -/
def tcRes : Context := { tc with phase := .resident, fifo := [tb] }

/-- A context over the whole module. -/
def tcAll : Context := { tc with width := 64, height := 32 }

/-- `Places`: the context that is next to be placed, and one that is not; an origin that is free; an image too wide for the module; a module
that another context fills. -/
theorem witness_Places :
    let s := withCtx tcRes []
    let wide := { ti [] with width := 65 }
    let two := { s with ctxs := s.ctxs ++ [(1, tcAll)] }
    tFind s.ctxs 0 = some tcRes ∧ tcRes.wants = some (0, 0) ∧ s.imageOf tcRes = some (ti []) ∧ nextToPlace s (0, 0) = true ∧
    nextToPlace s (0, 1) = false ∧ firstOrigin s [] (ti []) = some { row := 0, col := 0, width := 2, height := 2 } ∧
    firstOrigin s (holders s 0) (ti []) = some { row := 0, col := 0, width := 2, height := 2 } ∧ firstOrigin s [] wide = none ∧
    firstOrigin two (holders two 0) (ti []) = none := by decide +kernel

/-- `Places`: no record; a record whose bytes have the seals that were kept; a record without seals. -/
theorem witness_Places_sealed :
    tcRes.sealedRec = none ∧
    (let c := { tc with sealedRec := some sealed0 }
     tFind sSealed.ctxs 0 = some c ∧ c.sealedRec = some sealed0 ∧
     ∃ v, tFind sSealed.seals 0 = some v ∧ sealsRead sSealed 0 c.key sealed0 = some v) ∧
    (let c := { tc with sealedRec := some sealed0 }
     ¬ (c.sealedRec = none ∨ ∃ k v, c.sealedRec = some k ∧ tFind sAway.seals 0 = some v ∧ sealsRead sAway 0 c.key k = some v)) := by
  have hp : (sealsRead sAway 0 0 sealed0).isSome = true := by
    simp [sealsRead, show sAway.devPoison = [] from rfl, poisoned]
  obtain ⟨v, hv⟩ := Option.isSome_iff_exists.mp hp
  refine ⟨rfl, ⟨rfl, rfl, v, ?_, hv⟩, ?_⟩
  · show tFind ((sealsRead sAway 0 0 sealed0).toList.map fun x => (0, x)) 0 = some v
    rw [hv]; rfl
  · intro c h
    rcases h with h | ⟨_, _, -, h, -⟩ <;> cases h

/-- `RoomMade`: an eviction asked for; a context that runs, and no other; two idle contexts, one of them idle longer. -/
theorem witness_RoomMade :
    roomComing (withCtx { tc with evictAsked := true } []) = true ∧ (∀ e ∈ (withCtx tcRun []).ctxs, ¬ idleOne e.2) ∧
    (let s : State := { sa with ctxs := [(0, { tc with idleSince := 7 }), (1, tc)] }
     roomComing s = false ∧ (∃ e ∈ s.ctxs, idleOne e.2) ∧ longestIdle s = some 1) := by
  unfold idleOne; decide

/-- `TilesLoaded`: the tile with a program. -/
theorem witness_TilesLoaded : (ti []).textOf 0 = some { words := [0x37600000], entry := 0, doff := 0, data := [] } ∧
    tFind (ti []).rowCfgs 0 = none := by decide

/-- `Lulls`: an eviction asked for; markers of a tile outside a phase and inside one; a marker of a generator that has not saved, and of
one that has. -/
theorem witness_Lulls :
    let c := { tc with evictAsked := true }
    let s := { withCtx c tEps with lulls := [(.tile 0, 0), (.generator 0 7, 0)] }
    tFind s.ctxs 0 = some c ∧ c.evictAsked = true ∧ c.phase = .placed ∧
    s.lulls.find? (fun k => decide (k.1 = .tile 0)) = some (.tile 0, 0) ∧ markerWaits tq = false ∧ markerWaits ta = true ∧
    s.lulls.find? (fun k => decide (k.1 = .generator 0 7)) = some (.generator 0 7, c.gen) ∧ 7 < (s.endpointsOf c).length ∧
    ({ tc with gens := [(7, { Generator.idle with lull := .saved })] }.generator 7).lull = .saved ∧ (c.generator 7).lull ≠ .saved := by decide

/-- `Seals`: a lulled tile with its commands done and not; one that has sent its markers and has those it waits for; a context whose agents
have all saved. -/
theorem witness_Seals :
    let tl := { tq with lull := .lulled false [] }
    let tm := { tq with lull := .lulled true [] }
    let g := { Generator.idle with lull := .saved }
    let c := { tc with phase := .lulling, gens := [(0, g)] }
    let s := withCtx c [tEps.headD { name := 0, epid := 0, kind := .memIn, sink := false, tile := 0, port := 0, burst := 1, fmt := 0, range := 0,
                                     jetIdx := 0, oc := 0 }]
    let z := [0, 1, 64, 65].foldl (fun s t => s.onTile t fun tl => { tl with lull := .sealed }) s
    (on0 tl).ctxOf 0 = some tc ∧ tl.lull = .lulled false [] ∧ { tl with qL := [qRun 0] }.commandsDone = false ∧
    tm.lull = .lulled true [] ∧ markersIn (on0 tm) 0 tc = true ∧
    tFind z.ctxs 0 = some c ∧ c.phase = .lulling ∧ (∀ t ∈ c.tileList, (z.tile t).lull = .sealed) ∧
    (∀ i, i < (z.endpointsOf c).length → (c.generator i).lull = .saved) ∧ regionsSaved z c = true ∧ nodesSaved z c = true ∧
    updatesOpen z c = false ∧ updatesOpen { z with flits := [flit01] } c = true := by decide

/-- `Seals`: an inbound port that has not had its marker. -/
theorem witness_Seals_waits :
    let eps := [{ name := 0, epid := 1, kind := .memIn, sink := false, tile := 0, port := 1, burst := 1, fmt := 0, range := 0, jetIdx := 0, oc := 0 }]
    markersIn ((withCtx tc eps).onTile 0 fun tl => { tl with lull := .lulled true [] }) 0 tc = false := by decide

/-- `Clears`: a tile with the token, in a row that goes on east; a context whose tiles are all clear, with a destroy under way and without, and
with a posted request outstanding. -/
theorem witness_Clears :
    let c := { tc with phase := .clearing, toClear := [0, 1, 64, 65] }
    let s := { on0 { tq with clearing := true } with ctxs := [(0, c)] }
    let d := { tc with phase := .clearing, destroy := some { src := .queue 0, runtag := 0, silent := true } }
    let p := { withCtx d [] with posted := [posted0] }
    clearingCtx s 0 = some (0, c) ∧ (s.tile 0).clearing = true ∧ colOf 0 + 1 < c.col + c.width ∧ ¬ colOf 1 + 1 < c.col + c.width ∧
    tFind (withCtx d []).ctxs 0 = some d ∧ d.phase = .clearing ∧ d.toClear = [] ∧ (withCtx d []).postedCount 0 d.gen = 0 ∧
    { d with phase := .leaving }.phase = .leaving ∧ p.postedCount 0 d.gen ≠ 0 ∧ { d with destroy := none }.destroy = none := by decide

/-! ### Generators -/

/-- A context with a run and a generator state for every endpoint; operands by endpoint. -/
def tcGen (g : Generator) (ops : Table Operand) : Context :=
  { tc with run := some { binding := { tb with ops := ops }, fail := none, stopped := false },
            gens := (List.range 8).map fun i => (i, g), jets := [63], queues := [{ base := 0x1000, cap := 4, head := 0, tail := 0 }] }

/-- An endpoint of no list. -/
def epNone : Endpoint :=
  { name := 0, epid := 0, kind := .memIn, sink := false, tile := 0, port := 0, burst := 1, fmt := 0, range := 0, jetIdx := 0, oc := 0 }

/-- A generator that a run has started. -/
def gOn : Generator := { Generator.idle with active := true }

/-- The operands of the endpoints of `tEps`. -/
def opsAll : Table Operand :=
  [(0, .mem 0 2), (1, .mem 0 2), (2, .host 0 0x5000 2), (3, .host 0 0x5000 2), (5, .jetIn 7), (6, .jetOut 9 7), (7, .queue 0x1000 4)]

/-- The device with such a context. -/
def sGen (g : Generator) : State := withCtx (tcGen g opsAll) tEps

/-- A generator of the device may act, with a property of its endpoint's kind. -/
def genB (s : State) (i : Nat) (k : EpKind) : Bool :=
  someB (s.endpointAt 0 i) fun (c, _, e, t) => decide ((c.generator i).page = none) && decide ((c.generator i).lull = .none) &&
    decide (e.kind = k) && decide (t = 0)

theorem generatorAt_of {s : State} {i : Nat} {k : EpKind} (h : genB s i k = true) :
    ∃ c im e t, generatorAt s 0 i c im e t ∧ e.kind = k := by
  unfold genB someB at h
  split at h
  · next p hp =>
    obtain ⟨c, im, e, t⟩ := p
    simp only [Bool.and_eq_true, decide_eq_true_eq] at h
    exact ⟨c, im, e, t, ⟨hp, h.1.1.1, h.1.1.2⟩, h.1.2⟩
  · exact absurd h (by simp)

/-- `InputWords`: generators that may act, of the three kinds. -/
theorem witness_InputWords_at : (∃ c im e t, generatorAt (sGen gOn) 0 0 c im e t ∧ e.kind = .memIn) ∧
    (∃ c im e t, generatorAt (sGen gOn) 0 2 c im e t ∧ e.kind = .hostIn) ∧
    (∃ c im e t, generatorAt (sGen gOn) 0 4 c im e t ∧ e.kind = .hostToken) :=
  ⟨generatorAt_of (by decide), generatorAt_of (by decide), generatorAt_of (by decide)⟩

/-- `InputWords`: the last line of a buffer of two, and the end behind it; a line that is read and one that is refused; room and none; a
token and none; a lull asked for at a burst boundary. -/
theorem witness_InputWords_words :
    let s := sGen gOn
    let c := tcGen gOn opsAll
    let full := s.onTile 0 fun tl => { tl with inPorts := [(0, List.replicate portDepth { data := 0, kind := 0 })] }
    let tok := { gOn with tokens := [5] }
    let e := tEps.getD 0 epNone
    gOn.active = true ∧ (c.operand 0).lines ≤ 2 ∧ 1 < (c.operand 0).lines ∧ s.inRoom 0 0 = true ∧ full.inRoom 0 0 = false ∧
    okB (bufferRead s 0 c e (c.operand 0) 1) (fun b => b.1.length == 64) = true ∧
    (match bufferRead s 0 c e (.mem 0x10000 2) 0 with | .error (.fail _ _) => true | _ => false) = true ∧
    tok.tokens = 5 :: [] ∧ gOn.tokens = [] ∧ { gOn with lull := .asked }.lull = .asked ∧ gOn.midBurst = false ∧ gOn.page = none ∧
    (s.endpointAt 0 4).isSome = true := by decide +kernel

/-- `OutputWords`: MEM-OUT and HOST-OUT with a data word, and with an EOS; the last line and one beyond the buffer; a line that is written and
one that is refused. -/
theorem witness_OutputWords :
    let p (k : BitVec 2) := (sGen gOn).onTile 0 fun tl => { tl with outPorts := [(0, [{ data := 5, kind := k }])] }
    let c := tcGen gOn opsAll
    let e := tEps.getD 1 epNone
    e.kind = .memOut ∧ genB (p 0) 1 .memOut = true ∧ genB (p 0) 3 .hostOut = true ∧
    nextWord (p 0) (ti tEps) e 0 (c.generator 1) = some ({ data := 5, kind := 0 }, false) ∧
    nextWord (p 2) (ti tEps) e 0 (c.generator 1) = some ({ data := 5, kind := 2 }, false) ∧
    ({ data := 5, kind := 0 } : StreamWord).isMarker = false ∧ ({ data := 5, kind := 2 } : StreamWord).isEos = true ∧
    (c.operand 1).lines ≤ 2 ∧ 1 < (c.operand 1).lines ∧
    okB (bufferWrite (p 0) 0 1 c e (c.operand 1) 1 (natBytes 64 5)) (fun _ => true) = true ∧
    (match bufferWrite (p 0) 0 1 c e (.mem 0x10000 2) 0 (natBytes 64 5) with | .error (.fail _ _) => true | _ => false) = true := by
  decide +kernel

/-- A section whose input port 0 takes from port 1 of tile 0, and whose output port 1 feeds port 2. -/
def gSec : RegionSec :=
  { corg := 0, cwidth := 1, cheight := 1, clock := 0, bits := [],
    ports := [{ rport := 0, toTile := false, tport := 1, tile := 0 }, { rport := 1, toTile := true, tport := 2, tile := 0 }] }

/-- A region that runs it. -/
def tReg : Region :=
  { stage := 0, state := .running, given := [], emitted := [], store := [], sig := 0, upsets := [], bad := false, badCell := 0, badFrame := 0,
    owed := false, markers := [], sent := [] }

/-- An image with the section twice, as the two stages of one list, and with queue endpoints at both of its ports. -/
def tiReg : Image :=
  { ti [{ name := 0, epid := 1, kind := .queue, sink := false, tile := 0, port := 1, burst := 1, fmt := 0, range := 0, jetIdx := 0, oc := 0 },
        { name := 0, epid := 2, kind := .queue, sink := false, tile := 0, port := 2, burst := 1, fmt := 0, range := 0, jetIdx := 0, oc := 0 }] with
    regions := [(0, gSec), (1, gSec)], stageLists := [[0, 1]] }

/-- The device with a context that holds the region, with a queue of four words of which one is used; it lists no memory
port, so that no slice sees an access. -/
def sReg (r : Region) : State :=
  let c := tcGen gOn [(0, .queue 0x1000 4), (1, .queue 0x1000 4)]
  { sa with ctxs := [(0, { c with ports := [], regions := [(0, r)], queues := [{ base := 0x1000, cap := 4, head := 0, tail := 1 }] })],
            images := [(0, tiReg)] }

/-- `QueueWords`: a queue that feeds the region and one that the region feeds; room and none, words and none; the ring's accesses. -/
theorem witness_QueueWords :
    let s := (sReg tReg).onTile 0 fun tl => { tl with inPorts := [(2, [{ data := 5, kind := 1 }])] }
    genB s 0 .queue = true ∧ genB s 1 .queue = true ∧
    someB (s.endpointAt 0 0) (fun (c, im, e, t) => queueFeeds im e && !offStage s c im e && genRoom s im e t &&
      someB (c.ring 0) fun q => decide (q.head < q.tail) && okB (queueLoad s 0 c e q) fun _ => true) = true ∧
    someB (s.endpointAt 0 1) (fun (c, im, e, t) => !queueFeeds im e && !offStage s c im e &&
      decide (nextWord s im e t (c.generator 1) = some ({ data := 5, kind := 1 }, false)) &&
      someB (c.ring 1) fun q => decide (q.tail - q.head < q.cap) && okB (queueStore s 0 1 c e q { data := 5, kind := 1 }) fun _ => true) = true ∧
    (let q : QueueRing := { base := 0x1000, cap := 4, head := 2, tail := 6 }; q.cap ≤ q.tail - q.head) ∧
    (let q : QueueRing := { base := 0x1000, cap := 4, head := 6, tail := 6 }; q.tail ≤ q.head) := by decide +kernel

/-- `JetWords`: a JET-OUT with credit and a word, its link up to the named peer; a JET-IN with a word kept for it; a word that has arrived. -/
theorem witness_JetWords :
    let j : JetPort := { JetPort.reset with link := .up, peer := 9, arrived := [(7, { data := 5, kind := 0 })] }
    let s := { sGen { gOn with credit := 1, unsent := [{ data := 5, kind := 0 }] } with jets := [(63, j)] }
    genB s 6 .jetOut = true ∧ genB s 5 .jetIn = true ∧
    someB (s.endpointAt 0 6) (fun (c, im, e, t) => decide (c.operand 6 = .jetOut 9 7) && decide (c.jetOf e = some 63) &&
      decide (nextWord s im e t (c.generator 6) = some ({ data := 5, kind := 0 }, true)) && decide (0 < (c.generator 6).credit)) = true ∧
    someB (s.endpointAt 0 5) (fun (c, im, e, t) => decide (c.operand 5 = .jetIn 7) && decide (c.jetOf e = some 63) && genRoom s im e t &&
      decide ((c.generator 5).active = true)) = true ∧
    (s.jet 63).link = .up ∧ (s.jet 63).peer = 9 ∧ (s.jet 63).arrived = (7, { data := 5, kind := 0 }) :: [] ∧ gOn.credit = 0 ∧
    (let g := { gOn with eos := true, credit := 63 }; g.eos = true ∧ g.credit + 1 = 64) ∧ gOn.eos = false := by decide +kernel

/-- `JetWords`: a stream that one JET-OUT sends, and one that none sends. -/
theorem witness_JetWords_senders : (sGen gOn).jetSenders 9 7 = [(0, 6)] ∧ (sGen gOn).jetSenders 9 8 = [] ∧ (63 : Nat) ≠ 64 := by
  decide +kernel

/-! ### Route elements -/

/-- A route element of a kind. -/
def node (k : Nat) : RouteNode :=
  { kind := k, param := 0, inq := [], block := [], out := [], arcs := [], tickets := [], openArcs := [], grants := [], eos := [], lulls := [],
    replyEos := [], count := 0xFFFFFFFF, zseq := 0 }

/-- `CornerTurns`: a node; a whole block and one that is one word short. -/
theorem witness_CornerTurns : tFind (({ tq with routes := [(3, node 0)] } : Tile).routes) 3 = some (node 0) ∧ (node 0).kind = 0 ∧
    (List.replicate 64 ({ data := 0, kind := 0 } : StreamWord)).length = 64 ∧ 63 < 64 / 1 ∧ 15 < 64 / 4 ∧
    0 < (List.replicate 63 ({ data := 0, kind := 0 } : StreamWord)).length ∧ (List.replicate 63 ({ data := 0, kind := 0 } : StreamWord)).length < 64 := by
  decide

/-- `ArcNodes`: nodes of each kind; a count that reaches zero and one that does not; arcs in and out of a burst; a burst that ends, with a
grant queue with room and a full one. -/
theorem witness_ArcNodes :
    let w : StreamWord := { data := 1, kind := 1 }
    let n := { node 2 with tickets := [3], arcs := [(3, [w])] }
    (node 2).kind = 2 ∧ (node 3).kind = 3 ∧ (node 4).kind = 4 ∧ (node 4).kind ≠ 2 ∧ (node 3).count + w.data.setWidth 32 = 0 ∧
    ({ node 3 with count := 0 } : RouteNode).count + w.data.setWidth 32 ≠ 0 ∧ (node 4).openArcs.contains 7 = false ∧
    ({ node 4 with openArcs := [7] } : RouteNode).openArcs.contains 7 = true ∧ n.tickets = 3 :: [] ∧ n.buf 3 = w :: [] ∧
    n.grants.length < 64 ∧ 64 ≤ ({ n with grants := List.replicate 64 0 } : RouteNode).grants.length := by decide +kernel

/-! ### Regions -/

/-- A region of the device, with a property. -/
def regB (s : State) (p : Context → Region → RegionSec → Bool) : Bool := someB (s.regionAt 0 0) fun (c, r, g) => p c r g

/-- `PortWords`: a region that runs and one whose clock is held; its two ports; a word at the input, and room at the output. -/
theorem witness_PortWords :
    let s := (sReg tReg).onTile 0 fun tl => { tl with outPorts := [(1, [{ data := 5, kind := 0 }])] }
    regB s (fun c r g => decide (r.state = .running) && decide (c.phase = .placed) && decide (r.markers.contains 0 = false) &&
      someB (g.ports.find? (·.rport = 0)) (fun m => !m.toTile && decide (((s.tile (c.tileAt m.tile)).outFifo m.tport).head?.isSome)) &&
      someB (g.ports.find? (·.rport = 1)) fun m => m.toTile && s.inRoom (c.tileAt m.tile) m.tport) = true ∧
    regB (sReg { tReg with state := .frozen }) (fun _ r _ => !r.state.clocked) = true := by decide +kernel

/-- `PortWords`: output port 1 with room, and without, which stops a decoder. -/
theorem witness_PortWords_room :
    let full := (sReg tReg).onTile 0 fun tl => { tl with inPorts := [(2, List.replicate portDepth { data := 5, kind := 0 })] }
    (¬ ∃ o ∈ gSec.ports, o.toTile = true ∧ o.rport = 1 ∧ (sReg tReg).inRoom (tc.tileAt o.tile) o.tport = false) ∧
    ∃ o ∈ gSec.ports, o.toTile = true ∧ o.rport = 1 ∧ full.inRoom (tc.tileAt o.tile) o.tport = false := by decide +kernel

/-- `Swaps`: the region of a list that runs; one that is held, with its inputs held and its output FIFO empty and not empty; one that reloads,
with and without an error owed. -/
theorem witness_Swaps :
    let h := { tReg with state := .holding 1 }
    let full := (sReg h).onTile 0 fun tl => { tl with inPorts := [(2, [{ data := 5, kind := 0 }])] }
    regB (sReg tReg) (fun c r _ => decide ((sReg tReg).imageOf c = some tiReg) && decide (r.state = .running) && decide (r.markers = [])) = true ∧
    tiReg.stageLists[0]? = some (0 :: [1]) ∧
    regB (sReg h) (fun c r g => decide (r.state = .holding 1) && (g.ins.all fun m => r.heldIn m.rport) && outsEmpty (sReg h) c g) = true ∧
    regB full (fun c _ g => !outsEmpty full c g) = true ∧
    regB (sReg { tReg with state := .reloading 1, owed := true }) (fun _ r _ => decide (r.state = .reloading 1) && r.owed) = true ∧
    regB (sReg { tReg with state := .reloading 1 }) (fun _ r _ => !r.owed) = true := by decide +kernel

/-- `ConfigErrors`: a bad region that runs, one that is held and one that reloads, a sound one, and a frozen one; contexts and regions under numbers of
their own, with two single-bit errors on die 0. -/
theorem witness_ConfigErrors :
    regB (sReg { tReg with bad := true }) (fun _ r _ => r.bad && decide (r.state = .running)) = true ∧
    regB (sReg { tReg with bad := true, state := .holding 1 }) (fun _ r _ => r.bad && decide (r.state = .holding 1)) = true ∧
    regB (sReg { tReg with bad := true, state := .reloading 1 }) (fun _ r _ => r.bad && decide (r.state = .reloading 1)) = true ∧
    regB (sReg tReg) (fun _ r _ => !r.bad) = true ∧ regB (sReg { tReg with state := .frozen }) (fun _ r _ => decide (r.state = .frozen)) = true ∧
    (let s := sReg { tReg with upsets := [(0, 5), (0, 6)] }
     (s.ctxs.map (·.1)).Nodup ∧ (∀ e ∈ s.ctxs, (e.2.regions.map (·.1)).Nodup) ∧ (scrubbed s 0).length = 2 ∧
     regB s (fun c _ g => regionDie c g = 0) = true ∧ regB s (fun c _ g => regionDie c g ≠ 1) = true) := by
  decide +kernel
/-! ### Memory ports, slices and self-tests -/

/-- `PortRequests`: a context that the port serves, one of another generation, a port that is not assigned; a refusal, a page that is not there,
a read, a poisoned read, and a write. -/
theorem witness_PortRequests :
    let s := withCtx tc []
    tFind s.ctxs 1 = none ∧ tFind s.ctxs 0 = some tc ∧ tc.gen ≠ BitVec.ofNat 16 1 ∧ 1 ∉ tc.ports ∧ tc.gen = BitVec.ofNat 16 0 ∧ 0 ∈ tc.ports ∧
    tc.onModule = true ∧ translate s tc 0xFFFF 2 true false = .error (.refuse .RANGE) ∧
    translate s tcPaged 0 8 true false = .error (.page 0) ∧ translate s tc 0xFFF8 8 true false = .ok (.device 0x10FFF8 0) ∧
    (∃ bs, routeRead s (.device 0x10FFF8 0) 8 = .ok bs) ∧
    (∃ m, routeRead { s with devPoison := [(0x10FFF8 / 64, true)] } (.device 0x10FFF8 0) 8 = .error m) ∧
    translate s tc 0 ([1, 2] : List Byte).length false true = .ok (.device 0x100000 0) :=
  ⟨by decide, by decide, by decide, by decide, by decide, by decide, by decide, rfl, rfl, rfl, ⟨_, rfl⟩, ⟨_, rfl⟩, rfl⟩

/-- `PortRequests`: an address of another port of the context and one of this port; a page of a paged range that a read meets, and a word of
one line within the memory. -/
theorem witness_PortRequests_at :
    tc.portOf 0xFFF8 ≠ some 1 ∧ tc.portOf 0xFFF8 = some 0 ∧ 0xFFF8 % 64 + 8 ≤ 64 ∧ 0x10FFF8 < hbmBytes ∧
    absentPiece (withCtx tc []) tcPaged 0 8 true false = some 0 ∧ (8 : Nat) ≠ 0 ∧ ([1] : List Byte) ≠ [] := by decide

/-- `PortOfAddress`: a context without ports, and one with two. -/
theorem witness_PortOfAddress : { tc with memPorts := 0 }.memPorts = 0 ∧ { tc with memPorts := 2, ports := [3, 4] }.memPorts ≠ 0 ∧ 4095 < 4096 := by
  decide

/-- A read of the first half of line 0 in a class, from no port; and one from port 0, which has one station to pass to slice 17. -/
def ms (k : Nat) : Miss := { line := 0, half := 0, write := false, alloc := true, share := k, back := none }
def mp : Miss := { ms 0 with back := some (0, 0) }

/-- `SliceEvents`: a slice that misses with 63 requests under way, and one that hits; a request that the controller picks. -/
theorem witness_SliceEvents :
    let e : Slice := { Slice.reset with misses := List.replicate 63 (ms 0) }
    let h : Slice := { Slice.reset with lines := [{ line := 0, valid := 1, dirty := false }] }
    e.hits 0 0 = false ∧ e.misses.length < 64 ∧ h.hits 0 0 = true ∧
    pickRequest State.reset 0 ([ms 0] ++ []) = some (ms 0) ∧ 63 < 64 ∧ 0 ≠ 1 := by decide

/-- `SliceEvents`: such a slice stands at an address's home, whichever slice that is; its controller picks its request. -/
theorem witness_SliceEvents_home (pa : Nat) : ∃ s : State, (s.slice (homeSliceOf pa)).hits (pa / 128) (pa / 64 % 2) = true :=
  ⟨{ State.reset with slices := [(homeSliceOf pa, { Slice.reset with lines := [{ line := pa / 128, valid := 3, dirty := false }] })] }, by
    have h : pa / 64 % 2 = 0 ∨ pa / 64 % 2 = 1 := by omega
    rcases h with h | h <;> simp [State.slice, tGet, tFind, Slice.hits, h] <;> decide⟩

/-- Slice 17 with a request that it has not answered. -/
def sMiss (m : Miss) : State := { State.reset with slices := [(17, { Slice.reset with misses := [m] })] }

/-- `SliceEvents`: a request of slice 17 that its controller picks, of no port and of port 0; one of slice 18, which is not among those of 17; no
request; and a response of slice 17 on its way. -/
theorem witness_SliceEvents_served :
    let s := sMiss (ms 0)
    let q := sMiss mp
    s.replies.find? (fun r => r.slice = 17) = none ∧
    pickRequest (movePaths s 17) (controllerOf 17) (controllerRequests (movePaths s 17) 17) = some (ms 0) ∧
    (readyAt (movePaths s 17) 17).contains (ms 0) = true ∧
    pickRequest (movePaths q 17) (controllerOf 17) (controllerRequests (movePaths q 17) 17) = some mp ∧ mp.back = some (0, 0) ∧
    pathOf 0 17 ≠ [] ∧
    pickRequest (movePaths s 18) (controllerOf 18) (controllerRequests (movePaths s 18) 18) = some (ms 0) ∧
    (readyAt (movePaths s 18) 18).contains (ms 0) = false ∧
    pickRequest (movePaths s 32) (controllerOf 32) (controllerRequests (movePaths s 32) 32) = none ∧
    (({ s with replies := [{ port := 0, slice := 17, cls := 0, miss := mp }] } : State).replies.find? fun r => r.slice = 17).isSome = true := by
  decide +kernel

/-- A slice has a port with a way to go to it. -/
theorem far_port (k : Nat) : ∃ port, port < 64 ∧ pathOf port k ≠ [] := by
  by_cases h : (0 : Nat) / 32 ≠ dieOfSlice k
  · exact ⟨0, by decide, by simp [pathOf, h]⟩
  · refine ⟨32, by decide, ?_⟩
    have h0 : dieOfSlice k = 0 := by omega
    simp [pathOf, h0]

/-- `SliceEvents`, `Stations`: at an address's home, whichever slice that is, stand 64 requests, none of its line, so that it takes no write; and a
port with a way to go to it has an earlier request of the stream under way. -/
theorem witness_Stations (pa : Nat) : ∃ port, pathOf port (homeSliceOf pa) ≠ [] ∧
    let s : State := { State.reset with slices := [(homeSliceOf pa, { Slice.reset with misses := List.replicate 64 (ms 0) })],
                                        transit := [{ port := port, slice := homeSliceOf pa, cls := 3, miss := ms 0 }] }
    let w : Miss := { ms 0 with line := pa / 128, half := pa / 64 % 2, write := true }
    (s.slice (homeSliceOf pa)).hits (pa / 128) (pa / 64 % 2) = false ∧ 64 ≤ (s.slice (homeSliceOf pa)).misses.length ∧
    canTake s (homeSliceOf pa) w = false ∧ ∃ q ∈ s.transit, q.port = port ∧ q.slice = homeSliceOf pa ∧ q.cls = 3 := by
  obtain ⟨port, -, h⟩ := far_port (homeSliceOf pa)
  exact ⟨port, h, by simp [State.slice, tGet, tFind, Slice.hits, Slice.reset], by simp [State.slice, tGet, tFind],
    by simp [canTake, State.slice, tGet, tFind, Slice.hits, Slice.reset, missRegisters], _, List.mem_cons_self, rfl, rfl, rfl⟩

/-- `Stations`: with nothing under way no stream and no station holds a request back, and its slice can take it. -/
theorem witness_Stations_free (pa : Nat) : ∃ port, pathOf port (homeSliceOf pa) ≠ [] ∧
    pathFull (inStations [] State.reset.transit) port (homeSliceOf pa) = false ∧ (¬ ∃ q ∈ State.reset.transit, q.port = port) ∧
    canTake State.reset (homeSliceOf pa) { ms 0 with line := pa / 128, half := pa / 64 % 2, write := true } = true := by
  obtain ⟨port, -, h⟩ := far_port (homeSliceOf pa)
  exact ⟨port, h, by simp [State.reset, inStations, pathFull, stationEntries], by simp [State.reset],
    by simp [canTake, State.slice, State.reset, tGet, tFind, Slice.hits, Slice.reset, missRegisters]⟩

/-- `Stations`: a write in the stations whose slice has a free miss register; a slice that hits the request of a port, and one that does not. -/
theorem witness_Stations_taken :
    let r : Transit := { port := 0, slice := 17, cls := 0, miss := { mp with write := true } }
    let s : State := { State.reset with transit := [r] }
    let h : State := { State.reset with slices := [(17, { Slice.reset with lines := [{ line := 0, valid := 1, dirty := false }] })] }
    firstTaken s 17 [] (inStations [] s.transit) = some r ∧ mp.back = some (0, 0) ∧ (s.slice 17).hits mp.line mp.half = false ∧
    (h.slice 17).hits mp.line mp.half = true ∧ pathOf 0 17 ≠ [] := by decide +kernel

/-- `SharesKept`: a class below its minimum and one that is not. -/
theorem witness_SharesKept :
    let s := { State.reset with shares := [(1, { Share.reset with min := 5 })] }
    pickRequest s 0 [ms 0, ms 1] = some (ms 1) ∧ s.servedOf 0 1 < (s.share 1).min := by decide

/-- `SelfTests`: units with a recorded error and without; a third error within a day; spares left, and none. -/
theorem witness_SelfTests :
    let s (u : HwUnit) (k n : Nat) := { sa with unitFaults := [(8 * k + unitCode u, List.replicate n 0)] }
    (s .scratchpad 7 1).faultsOf .scratchpad 8 = [] ∧ (s .scratchpad 7 1).faultsOf .scratchpad 7 ≠ [] ∧
    thirdFault ((s .scratchpad 7 1).faultsOf .scratchpad 7) = false ∧ thirdFault ((s .scratchpad 7 3).faultsOf .scratchpad 7) = true ∧
    tGet 0 tq.spares 7 < 8 ∧ 8 ≤ tGet 0 { tq with spares := [(7, 8)] }.spares 7 ∧ (s .cacheWay 7 1).faultsOf .cacheWay 7 ≠ [] ∧
    0 < ((s .cacheWay 7 1).slice 7).spareWays ∧ ({ Slice.reset with spareWays := 0 } : Slice).spareWays = 0 ∧
    (s .configFrame 7 1).faultsOf .configFrame 7 ≠ [] ∧ quiescent (s .configFrame 7 1) .configFrame 7 = true := by decide

/-- `SelfTests`: units with a test due and without; a configuration cell under a running region, and under none. -/
theorem witness_SelfTests_due :
    let s : State := { sa with testsDue := [(unitKey .scratchpad 7, true), (unitKey .cacheWay 7, true), (unitKey .configFrame 7, true)] }
    tGet false s.testsDue (unitKey .registerFile 7) = false ∧ tGet false s.testsDue (unitKey .scratchpad 7) = true ∧
    tGet false s.testsDue (unitKey .cacheWay 7) = true ∧ tGet false s.testsDue (unitKey .configFrame 7) = true ∧
    quiescent s .scratchpad 7 = true ∧ quiescent s .cacheWay 7 = true ∧ quiescent s .configFrame 7 = true ∧ quiescent (sReg tReg) .configFrame 0 = false := by decide +kernel

/-! ### Resets, errors and power -/

/-- `Fatal`: after a fatal error, an event that the device does not take stands next. -/
theorem witness_Fatal : (∃ u : State, exec .fatalError sa = .next u) ∧ wellFormed (.scrubPass 0) = true ∧
    Instr.scrubPass 0 ≠ .hotReset ∧ (∀ r fw, Instr.scrubPass 0 ≠ .powerGood r fw) ∧ (∀ f, Instr.scrubPass 0 ≠ .fnstat f) :=
  ⟨⟨_, rfl⟩, rfl, by simp, by simp, by simp⟩

/-- `Fatal`: the error leaves the agenda as it was, so that such an event can stand next. -/
theorem witness_Fatal_agenda (s : State) (l : List Stimulus) : ∃ u, exec .fatalError (s.withAgenda l) = .next u ∧ u.agenda = l :=
  ⟨_, rfl, rfl⟩

/-- `DumpText`: a tile whose second line differs from zero in its last word. -/
theorem witness_DumpText : 7 < 8 ∧ dumpWord (on0 { tq with scratch := [(127, 1)] }) 0 (64 + 8 * 7) ≠ 0 ∧ 64 % 64 = 0 ∧ 64 < 0x21C000 := by
  decide +kernel

/-- `HostLink`: a HOST-IN of a run, which has not failed and which has; and a command of S in flight on a host buffer. -/
theorem witness_HostLink_streams :
    let s := sGen gOn
    let c := { tcRun with lastOps := [(3, .host 0 0x4000 1)] }
    let q := qRun ((encode (.sth 0 0 1 0 0 0 0 0 0 0)).getD 0)
    let u := (withCtx c tEps).onTile 0 fun tl => { tl with g := [(1, rec1 (3 * 2 ^ 54) 7 8)], qS := [q] }
    someB (tFind s.ctxs 0) (fun c => someB (s.endpoint c 2) (fun e => decide (e.kind = .hostIn)) && (c.generator 2).active &&
      someB c.run fun r => decide (r.fail = none)) = true ∧ ({ binding := tb, fail := some rf, stopped := true } : Run).fail ≠ none ∧
    q ∈ (u.tile 0).queue .S ∧ (hostWork u 0 .S q).isSome = true := by decide +kernel

/-- `Bridges`: a device that is ready; a bridge with 15 and with 16 flits to seal; one with no run on its wires, with the run that the far end
expects, with one before it and with one after it, which has failed twice in a row and which has not. -/
theorem witness_Bridges :
    let b : DieBridge := { DieBridge.reset with wire := [5], expect := 5, unacked := [(5, [7])], seq := 6 }
    let s (v : DieBridge) : State := { sa with bridges := [(1, v)] }
    (s b).mode = .ready ∧ tGet DieBridge.reset (s b).bridges 1 = b ∧ b.wire = 5 :: [] ∧ tFind b.unacked 5 = some [7] ∧
    5 < { b with expect := 6 }.expect ∧ { b with expect := 4 }.expect < 5 ∧ b.strikes < 2 ∧ 2 ≤ { b with strikes := 2 }.strikes ∧
    DieBridge.reset.wire = [] ∧ ({ b with txq := List.replicate 15 0 } : DieBridge).txq.length < 16 ∧
    ({ b with txq := List.replicate 16 0 } : DieBridge).txq.length = 16 ∧ ({ b with txq := List.replicate 16 0 } : DieBridge).txq ≠ [] := by decide

/-- `ResetsComplete`: temperatures on both sides of the limits. -/
theorem witness_ResetsComplete : ({ sa with temp := 839 } : State).temp.toNat < 8 * 105 ∧ ({ sa with temp := 919 } : State).temp.toNat < 8 * 115 ∧
    8 * 105 ≤ ({ sa with temp := 840 } : State).temp.toNat := by decide

/-- `HostLink`: a function that has used neither IDE nor TDISP. -/
theorem witness_HostLink : (sa.function 31).ideUsed = false ∧ (sa.function 31).tdispUsed = false ∧ 31 < 32 := by decide

/-- `Resets`: a device with its tiles in order, and a context number that is free. -/
theorem witness_Resets : (∃ u, exec .hotReset sa = .next u) ∧ (∃ u, exec .pfFlr sa = .next u) ∧ tSorted 0 sa.tiles = true ∧
    tFind sa.ctxs 31 = none ∧ (31 : Nat) ≠ 0 :=
  ⟨⟨_, rfl⟩, ⟨_, rfl⟩, by decide, by decide, by decide⟩

/-- `PowerAndHeat`: temperatures at the limits and just below, and means at the cap and just above. -/
theorem witness_PowerAndHeat : 8 * 105 ≤ ({ sa with temp := 840 } : State).temp.toNat ∧ ({ sa with temp := 839 } : State).temp.toNat < 8 * 105 ∧
    8 * 115 ≤ ({ sa with temp := 920 } : State).temp.toNat ∧ 1000 * sa.pwrCap.toNat < 7500001 ∧ 7500000 ≤ 1000 * sa.pwrCap.toNat := by decide

/-! ### Registers, jet links, and security -/

/-- `Registers`: LOGN 10 and 11, an undefined bit, bit 31 rising and clear; contexts that `EVICT` names. -/
theorem witness_Registers :
    onlyBits (0x8000000A : Word).toNat [(0, 24), (31, 1)] = true ∧ (0x8000000A : Word).toNat % 16 ≤ 10 ∧ 10 < (0x0B : Word).toNat % 16 ∧
    onlyBits (0x01000000 : Word).toNat [(0, 24), (31, 1)] = false ∧ (0x8000000A : Word).getLsbD 31 = true ∧
    (sa.function 31).aqCtl.getLsbD 31 = false ∧ (0x0A : Word).getLsbD 31 = false ∧ onlyBits (0x0A : Word).toNat [(0, 24), (31, 1)] = true ∧
    tFind sa.ctxs ((0x80000000 : Word).toNat % 32) = some tc := by decide

/-- `StoredRegisters`: a function with a context and one without. -/
theorem witness_StoredRegisters : sa.hasContext 0 = true ∧ sa.hasContext 31 = false := by decide

/-- `RegisterReads`: a device in each mode; a virtual function; the last of each list of registers. -/
theorem witness_RegisterReads : sa.mode = .ready ∧ ({ sa with mode := .recovery } : State).mode = .recovery ∧
    ({ sa with mode := .fatal } : State).mode = .fatal ∧ ({ sa with mode := .off } : State).mode = .off ∧ (0 : Nat) ≠ 0x28 ∧ (31 : Nat) ≠ 0 ∧
    31 < 32 ∧ 127 < 128 ∧ 3 < 4 ∧ 63 < 64 ∧ 0x1000 ≤ 0x1208 := by decide

/-- `Bar4`: a locked interface, with a request that is TDI-bound under IDE and one that is not. -/
theorem witness_Bar4_locked :
    let fn := { Function.reset with tdispLocked := true, ideUp := true, tdiBound := true, allocSize := 0x10000 }
    let s := { sa with functions := [(3, fn)] }
    let u := { sa with functions := [(3, { fn with tdiBound := false })] }
    ((s.function 3).tdispLocked = true ∧ (s.function 3).ideUp = true ∧ (s.function 3).tdiBound = true) ∧ 0xFFFF + 1 ≤ (s.function 3).allocSize.toNat ∧
    ((u.function 3).tdispLocked = true ∧ ¬ ((u.function 3).ideUp = true ∧ (u.function 3).tdiBound = true)) := by decide

/-- `Bar4`: the last byte of an allocation and the first beyond it. -/
theorem witness_Bar4 :
    let s := { sa with functions := [(3, { Function.reset with allocSize := 0x10000 })] }
    s.linkUp = true ∧ 0xFFFF + 1 ≤ (s.function 3).allocSize.toNat ∧ (s.function 3).allocSize.toNat < 0x10000 + 1 ∧
    (s.function 3).tdispLocked = false := by decide

/-- `JetLinks`: links that train and that are up; flits to send and the last run number of a key; strikes and replays at and below their limits. -/
theorem witness_JetLinks :
    let j := { JetPort.reset with enabled := true, link := .up, txq := [{ msg := .credit 0 1, part := 0, parts := 1 }], keyEpoch := 1 }
    let s := { sa with jets := [(63, j)] }
    let t := { sa with jets := [(63, { j with link := .training })] }
    (t.jet 63).enabled = true ∧ (t.jet 63).link = .training ∧ (s.jet 63).link = .up ∧ (s.jet 63).txq ≠ [] ∧
    (s.jet 63).seq + 1 < 2 ^ 48 * (s.jet 63).keyEpoch ∧ (s.jet 63).strikes < 2 ∧ 2 ≤ { j with strikes := 2 }.strikes ∧ (s.jet 63).asked < 2 ∧
    2 ≤ { j with asked := 2 }.asked ∧ (sa.jet 63).enabled = false ∧ (1 : Word).getLsbD 0 = true ∧ (2 : Word).getLsbD 0 = false := by decide

/-- `JetLinks`: a JET-IN bound to a tag before its port's link is up. -/
theorem witness_JetLinks_window : someB (tFind (sGen gOn).ctxs 0) (fun c => someB ((sGen gOn).endpoint c 5) (fun e =>
    decide (e.kind = .jetIn) && decide (c.jetOf e = some 63)) && decide (c.operand 5 = .jetIn 7) && (c.generator 5).active) = true := by
  decide +kernel

/-- `RunsInTurn`: the run that is expected, the one before it and the one after. -/
theorem witness_RunsInTurn :
    let s := { sa with jets := [(63, { JetPort.reset with expect := 5 })] }
    (s.jet 63).rx = [] ∧ 5 = (s.jet 63).expect ∧ 4 < (s.jet 63).expect ∧ (s.jet 63).expect < 6 := by decide

/-- `Security`: a context of the function; words of a tile's window, the last of the scratchpad among them; a protected context. -/
theorem witness_Security :
    let s := withCtx tc []
    let p := { s with images := [(0, { ti [] with prot := true })] }
    s.linkUp = true ∧ tFind s.ctxs 0 = some tc ∧ s.imageOf tc = some (ti []) ∧ tc.func = 0 ∧ 0x1FFFF8 % 8 = 0 ∧
    inOpmWindow 0x1FFFF8 = true ∧ 0x1FFFF8 < 0x200000 ∧ (s.tile 0).clearing = false ∧ (s.tile 0).opmBusy 0x1FFFF8 = false ∧
    protectedTile s 0 = false ∧ protectedTile p 0 = true := by decide

/-- `Security`: a locked interface of the function. -/
theorem witness_Security_locked : ({ withCtx tc [] with functions := [(0, { Function.reset with tdispLocked := true })] } : State).mode = .ready ∧
    (({ withCtx tc [] with functions := [(0, { Function.reset with tdispLocked := true })] } : State).function 0).tdispLocked = true := by decide

/-- `FirmwareAccess`: an offset between two windows; a part of a word of a register window; a tile under clearing, and a word in use. -/
theorem witness_FirmwareAccess :
    inOpmWindow 0x21C100 = false ∧ (inOpmWindow 0x220004 = true ∧ 0x220004 % 8 ≠ 0 ∧ 0x200000 ≤ 0x220004) ∧
    (let s := on0 { tq with clearing := true }; 0x1FFFF8 % 8 = 0 ∧ inOpmWindow 0x1FFFF8 = true ∧ (s.tile 0).clearing = true) ∧
    ({ tq with wpend := some ([], 1) }.opmBusy 0x218000 = true ∧ inOpmWindow 0x218000 = true ∧ 0x218000 % 8 = 0) := by decide +kernel

/-- `CapKept`: at reset the cap is legal, and a step is taken. -/
theorem witness_CapKept : capLegal State.reset ∧ ∃ t, step { State.reset with agenda := [.act (.pwrcap 0 0)] } = .next t :=
  ⟨by unfold capLegal; decide, _, rfl⟩

/-- `CapAtReset`: a write of 0 answers a next state. -/
theorem witness_CapAtReset : ∃ t, exec (.pwrcap 0 0) State.reset = .next t := ⟨_, rfl⟩

/-! ### Results worked out by hand from the rules -/

/-- The next state; the state after reset where there is none. -/
def nx (o : Out) : State :=
  match o with
  | .next s => s
  | _ => State.reset

/-- Register `r` of tile 0 after an instruction, with `x1` and `x2` given. -/
def rOf (a b : Word) (r : Nat) (i : Instr) : Word := ((nx (exec i (on0 { ta with x := [(1, a), (2, b), (3, 3)] }))).tile 0).xreg r

/-- Wraps, signs and the corners of division (R165). -/
theorem test_arithmetic :
    rOf (BitVec.allOnes 64) 2 3 (.add 3 1 2) = 1 ∧ rOf 0 1 3 (.sub 3 1 2) = BitVec.allOnes 64 ∧
    rOf (BitVec.allOnes 64) 2 3 (.mulh 3 1 2) = BitVec.allOnes 64 ∧ rOf (BitVec.allOnes 64) 2 3 (.mulhx 3 1 2) = 1 ∧
    rOf (BitVec.allOnes 64) 2 3 (.mulhsu 3 1 2) = BitVec.allOnes 64 ∧ rOf 7 0 3 (.div 3 1 2) = BitVec.allOnes 64 ∧
    rOf 0x8000000000000000 (BitVec.allOnes 64) 3 (.div 3 1 2) = 0x8000000000000000 ∧
    rOf 0x8000000000000000 (BitVec.allOnes 64) 3 (.rem 3 1 2) = 0 ∧ rOf 7 0 3 (.rem 3 1 2) = 7 ∧ rOf (-7) 2 3 (.div 3 1 2) = -3 ∧
    rOf (-7) 2 3 (.rem 3 1 2) = -1 ∧ rOf 7 0 3 (.remx 3 1 2) = 7 ∧ rOf 1 64 3 (.sll 3 1 2) = 1 ∧
    rOf 0x8000000000000000 63 3 (.sra 3 1 2) = BitVec.allOnes 64 ∧ rOf 1 1 3 (.ror 3 1 2) = 0x8000000000000000 ∧
    rOf (-1) 1 3 (.min 3 1 2) = -1 ∧ rOf (-1) 1 3 (.minx 3 1 2) = 1 ∧ rOf 1 0 3 (.clz 3 1) = 63 ∧ rOf 0 0 3 (.ctz 3 1) = 64 ∧
    rOf 0xFF 0 3 (.popc 3 1) = 8 ∧ rOf 0x80 0 3 (.sextB 3 1) = 0xFFFFFFFFFFFFFF80 ∧ rOf 5 6 0 (.add 0 1 2) = 0 := by decide +kernel

/-- Bit fields, address arithmetic and immediates (R166, R167): a field of 8 bits at bit 4 is 0x1C4; one of 64 bits is cut at bit 63. -/
theorem test_fields :
    rOf 0xABCD 0x1C4 3 (.bfe 3 1 2) = 0xBC ∧ rOf (BitVec.allOnes 64) 0xFCC 3 (.bfe 3 1 2) = 0xFFFFFFFFFFFFF ∧
    rOf 0xFFF 0x1C4 3 (.bfi 3 1 2) = 0xFF3 ∧ rOf 0x100 3 3 (.lea 3 1 2 4) = 0x130 ∧ rOf 5 7 3 (.madd 3 1 2) = 38 ∧
    rOf 0 0 3 (.addi 3 1 0x3FFA) = -6 ∧ rOf 0 0 3 (.lui 3 0x40000) = 0xFFFFFFFF00000000 ∧ rOf 0 0 3 (.auipc 3 1) = 3 := by decide +kernel

/-- Loads and stores (R168-R171): the least significant byte lies lowest, `ld` extends the sign, and a displacement counts in units. -/
theorem test_memory :
    let s := on0 { ta with x := [(3, 0x8000000000000000), (4, 0x1122334455667788)], scratch := [(0, 0x34), (1, 0x92)] }
    ((nx (exec (.ld 1 3 0 0 0 1 0) s)).tile 0).xreg 1 = 0xFFFFFFFFFFFF9234 ∧ ((nx (exec (.ldz 1 3 0 0 0 1 0) s)).tile 0).xreg 1 = 0x9234 ∧
    ((nx (exec (.st 4 3 0 0 0 2 3) s)).tile 0).scratch.readBytes 11 6 = [0, 0x88, 0x77, 0x66, 0x55, 0] ∧
    ((nx (exec (.amoadd 4 3 0 0 0 0) s)).tile 0).scratch.readBytes 0 5 = [0xBC, 0x09, 0x67, 0x55, 0] ∧
    ((nx (exec (.amoadd 4 3 0 0 0 0) s)).tile 0).xreg 4 = 0x9234 ∧ ((nx (exec (.amotas 4 3 0 0 0 0) s)).tile 0).scratch.readNat 0 4 = 1 := by
  decide +kernel

/-- Control flow (R180, R181): a branch goes back by its offset, a call leaves the next index, a loop counts down; outcomes are appended. -/
theorem test_flow :
    let s := on0 { ta with phase := none }
    ((nx (exec (.bne 1 2 0x3FFF) s)).tile 0).cntC.pc = 1 ∧ ((nx (exec (.beq 1 2 0x3FFF) s)).tile 0).cntC.pc = 3 ∧
    ((nx (exec (.bne 1 2 0x3FFF) s)).tile 0).outcomes = [.goto 1] ∧ ((nx (exec (.call 9 5) s)).tile 0).xreg 9 = 3 ∧
    ((nx (exec (.call 9 5) s)).tile 0).cntC.pc = 7 ∧ ((nx (exec (.loop 1 0x3FFE) s)).tile 0).xreg 1 = 4 ∧
    ((nx (exec (.loop 1 0x3FFE) s)).tile 0).cntC.pc = 0 ∧ ((nx (exec .halt s)).tile 0).cntC.st = .halted := by decide +kernel

/-- A trap of C (R365, R366, R368): `trap 5` is SYSCALL with INFO 5 at word 2, and the handler is at word 0 of TRAPVEC. -/
theorem test_trap :
    let u := (nx (exec (.trap 5) sa)).tile 0
    u.trapPc = 2 ∧ u.cntC.pc = 0 ∧ u.inHandler = true ∧ u.trapCause.toNat % 256 = Cause.SYSCALL.code ∧ u.trapCause.toNat / 2 ^ 16 % 2 ^ 14 = 5 ∧
    ((nx (exec .eret (nx (exec (.trap 5) sa)))).tile 0).cntC.pc = 2 := by decide +kernel

/-- Number formats (R34, R39, R41): 1.0 in bf16, e5m2 and e4m3; a tie goes to the even neighbour; 2,048 saturates to the largest e4m3. -/
theorem test_conversions :
    (convert 0 1 0 0 0x3F800000).1 = 0x3F80 ∧ (convert 0 1 0 0 0x3F808000).1 = 0x3F80 ∧ (convert 0 1 0 0 0x3F818000).1 = 0x3F82 ∧
    (convert 0 4 0 0 0x3F800000).1 = 0x3C ∧ (convert 0 3 0 0 0x3F800000).1 = 0x38 ∧ (convert 0 3 0 1 0x45000000).1 = 0x7E := by decide +kernel

/-- A fetched word runs (R130, R156): `add x3, x1, x2` placed at C's counter, with the registers of a tile that already has them. -/
theorem test_step_runs_word : ((nx (step (sa.withFetchWord 32 0x00184400))).tile 0).xreg 3 = 12 ∧
    ((nx (step (sa.withFetchWord 32 0x00184400))).tile 0).cntC.pc = 3 := by decide +kernel

end Sys2Proof.Tests
end

section
/-! The registers of C (R146): the rules of a write of the file and of a word read from or sent to a link, the link checks
of a tile outside a transfer phase, and `RegisterFile`. -/

namespace Sys2Proof.Proofs

open Sys2Proof Sys2Proof.Machine Sys2Proof.Laws

/-! ### The register file -/

@[simp] theorem xreg_zero (tl : Tile) : tl.xreg 0 = 0 := rfl

/-- A register after a write of the file: the value where it was written, but for the write of `x0`, which is discarded. -/
theorem xreg_setX (tl : Tile) (r k : Nat) (v : Word) :
    (tl.setX r v).xreg k = if k = r ∧ r ≠ 0 then v else tl.xreg k := by
  by_cases hr : r = 0
  · simp [Tile.setX, hr]
  · by_cases hk : k = r
    · simp [Tile.setX, Tile.xreg, hr, hk]
    · simp [Tile.setX, Tile.xreg, hr, hk, tGet_tSet]

/-- A change of a tile that leaves its scratchpad alone changes no memory. -/
theorem sameMemory_onTile {s : State} {t : Nat} {f : Tile → Tile} (h : (f (s.tile t)).scratch = (s.tile t).scratch) :
    sameMemory s (s.onTile t f) := by
  refine ⟨rfl, rfl, fun u => ?_⟩
  by_cases hu : u = t
  · simp [hu, h]
  · rw [tile_onTile_ne s f hu]

/-! ### Words of the links -/

/-- Reading a link whose input holds a word pops the oldest. -/
theorem readReg_link {s : State} {t : Nat} {r : BitVec 5} {w : Word} {ws : List Word} (hr : isLink r = true)
    (hw : tGet [] (s.tile t).linkIn (r.toNat - 28) = w :: ws) :
    readReg t r s =
      .ok (w, s.onTile t fun tl => { tl with linkIn := tSet [] tl.linkIn (r.toNat - 28) ws }) := by
  simp [readReg, hr, popLink, linkDir, hw]

/-- Writing a link whose neighbour has room sends the word after those on their way. -/
theorem writeReg_link {s : State} {t : Nat} {r : BitVec 5} (v : Word) (hr : isLink r = true)
    (hroom : s.linkFill t (r.toNat - 28) < 8) :
    writeReg t r v s = .ok (s.onTile t fun tl =>
      { tl with linkOut := tSet [] tl.linkOut (r.toNat - 28) (tGet [] tl.linkOut (r.toNat - 28) ++ [v]) }) := by
  simp [writeReg, hr, sendLink, linkDir, hroom]

/-! ### Link operands outside a transfer phase -/

/-- Checks that refuse exactly the links of a list refuse the list as soon as it names one. -/
theorem checkAll_refusing_links {c : Cause} {rs : List (BitVec 5)} (h : ∃ r ∈ rs, isLink r = true) :
    checkAll (rs.map fun r => if isLink r then trap c else .ok ()) = trap c := by
  induction rs with
  | nil => simp at h
  | cons a rs ih =>
    by_cases ha : isLink a = true
    · simp [checkAll, trap, ha]
    · have hrest : ∃ r ∈ rs, isLink r = true := by simpa [ha] using h
      simpa [checkAll, ha] using ih hrest

/-- Outside a phase every link read is LINKPH. -/
theorem checkRead_outside {s : State} {t : Nat} (hp : (s.tile t).phase = none) :
    checkRead s t = fun r => if isLink r then trap .LINKPH else .ok () := by
  funext r; simp [checkRead, checkLinkRead, hp]

/-- Outside a phase every link write is LINKPH. -/
theorem checkWrite_outside {s : State} {t : Nat} (hp : (s.tile t).phase = none) :
    checkWrite s t = fun r => if isLink r then trap .LINKPH else .ok () := by
  funext r; simp [checkWrite, checkLinkWrite, hp]

/-- Outside a phase the link checks of an instruction that names a link end in LINKPH. -/
theorem checkLinks_outside {s : State} {t : Nat} {reads writes : List (BitVec 5)} (hp : (s.tile t).phase = none)
    (h : ∃ r ∈ reads ++ writes, isLink r = true) : checkLinks t reads writes s = trap .LINKPH := by
  rw [checkLinks, checkRead_outside hp, checkWrite_outside hp, ← List.map_append]
  exact checkAll_refusing_links h

/-! ### The instructions of R165-R167 check their links first -/

/-- An instruction of C whose body begins with the link checks of the register fields it reads and writes (R163). -/
def ChecksLinksFirst (i : Instr) (reads writes : List (BitVec 5)) : Prop :=
  ∃ rest : Nat → State → Res State, ∀ s, exec i s = runC s fun t s => do
    checkLinks t reads writes s
    rest t s

/-- A failing link check is the trap of the instruction. -/
theorem ChecksLinksFirst.traps {i : Instr} {reads writes : List (BitVec 5)} (hi : ChecksLinksFirst i reads writes)
    {s : State} {c : Cause} (h : checkLinks s.here reads writes s = trap c) : exec i s = traps s c 0 := by
  obtain ⟨rest, hexec⟩ := hi
  rw [hexec]
  exact runC_trap (by simp only [h, trap, bind, Except.bind])

section
variable {i : Instr} {d a b : BitVec 5}

/-- The operand form with no source checks rd. -/
theorem ChecksLinksFirst.of_r0 {g : Tile → Word} (h : ∀ s, exec i s = runC s (r0 d g)) : ChecksLinksFirst i [] [d] :=
  ⟨_, h⟩

/-- The operand form of one source checks it and rd. -/
theorem ChecksLinksFirst.of_r1 {g : Word → Word} (h : ∀ s, exec i s = runC s (r1 d a g)) : ChecksLinksFirst i [a] [d] :=
  ⟨_, h⟩

/-- The operand form of two sources checks them and rd. -/
theorem ChecksLinksFirst.of_rr {g : Word → Word → Word} (h : ∀ s, exec i s = runC s (rr d a b g)) :
    ChecksLinksFirst i [a, b] [d] := ⟨_, h⟩

/-- The operand form of three sources checks rd as a source and as the destination. -/
theorem ChecksLinksFirst.of_rrd {g : Word → Word → Word → Word} (h : ∀ s, exec i s = runC s (rrd d a b g)) :
    ChecksLinksFirst i [a, b, d] [d] := ⟨_, h⟩

end

/-- Each result of R165 with two sources runs in the operand form of two sources. -/
theorem arith3_form : ∀ p ∈ arith3, ∃ g, ∀ d a b s, exec (p.1 d a b) s = runC s (rr d a b g) := by
  simp only [arith3, List.forall_mem_cons, List.not_mem_nil, false_implies, implies_true, and_true]
  and_intros <;> exact ⟨_, fun _ _ _ _ => rfl⟩

/-- Each result of R165 with one source runs in the operand form of one source. -/
theorem arith2_form : ∀ p ∈ arith2, ∃ g, ∀ d a s, exec (p.1 d a) s = runC s (r1 d a g) := by
  simp only [arith2, List.forall_mem_cons, List.not_mem_nil, false_implies, implies_true, and_true]
  and_intros <;> exact ⟨_, fun _ _ _ => rfl⟩

/-- Each instruction of R167 with an immediate runs in the operand form of one source. -/
theorem arithImm_form : ∀ p ∈ arithImm, ∀ imm, ∃ g, ∀ d a s, exec (p.1 d a imm) s = runC s (r1 d a g) := by
  simp only [arithImm, List.forall_mem_cons, List.not_mem_nil, false_implies, implies_true, and_true]
  and_intros <;> exact fun _ => ⟨_, fun _ _ _ => rfl⟩

/-- Each shift of R167 runs in the operand form of one source. -/
theorem shiftI_form : ∀ p ∈ shiftI, ∀ sh, ∃ g, ∀ d a s, exec (p.1 d a sh) s = runC s (r1 d a g) := by
  simp only [shiftI, List.forall_mem_cons, List.not_mem_nil, false_implies, implies_true, and_true]
  and_intros <;> exact fun _ => ⟨_, fun _ _ _ => rfl⟩

/-- The forms that stand in no table check the links of the fields they read and of rd. -/
theorem otherForms_checkLinksFirst (d a b : BitVec 5) (high : BitVec 19) (by3 : BitVec 3) :
    ∀ f ∈ otherForms d a b high by3, ChecksLinksFirst f.1 f.2.1 [d] := by
  simp only [otherForms, List.forall_mem_cons, List.not_mem_nil, false_implies, implies_true, and_true]
  exact ⟨.of_rrd (i := .sel d a b) fun _ => rfl, .of_rr (i := .lea d a b by3) fun _ => rfl,
    .of_rrd (i := .madd d a b) fun _ => rfl, .of_rr (i := .bfe d a b) fun _ => rfl,
    .of_rrd (i := .bfi d a b) fun _ => rfl, .of_r1 (i := .clz d a) fun _ => rfl,
    .of_r1 (i := .ctz d a) fun _ => rfl, .of_r1 (i := .popc d a) fun _ => rfl,
    .of_r0 (i := .lui d high) fun _ => rfl, .of_r0 (i := .auipc d high) fun _ => rfl⟩

/-- Every instruction of R165-R167 checks the links of the fields it reads and of rd before anything else. -/
theorem regForms_checkLinksFirst (d a b : BitVec 5) (imm : BitVec 14) (high : BitVec 19) (sh : BitVec 6) (by3 : BitVec 3) :
    ∀ f ∈ regForms d a b imm high sh by3, ChecksLinksFirst f.1 f.2.1 [d] := by
  simp only [regForms, List.forall_mem_append, List.forall_mem_map]
  refine ⟨fun p hp => ?arith3, fun p hp => ?arith2, fun p hp => ?arithImm, fun p hp => ?shiftI, ?other⟩
  case arith3 => obtain ⟨g, hg⟩ := arith3_form p hp; exact .of_rr (hg d a b)
  case arith2 => obtain ⟨g, hg⟩ := arith2_form p hp; exact .of_r1 (hg d a)
  case arithImm => obtain ⟨g, hg⟩ := arithImm_form p hp imm; exact .of_r1 (hg d a)
  case shiftI => obtain ⟨g, hg⟩ := shiftI_form p hp sh; exact .of_r1 (hg d a)
  case other => exact otherForms_checkLinksFirst d a b high by3

/-- Settles O11: reads and writes by the rules above, and LINKPH because the link checks come first. -/
theorem registerFile : Obligations.RegisterFile := by
  intro s t r v
  refine ⟨?zeroReads, ?fileWrite, ?linkRead, ?linkWrite, ?outsidePhase⟩
  case zeroReads =>
    rintro rfl hsound
    simp [readReg, isLink, hsound]
  case fileWrite =>
    intro hr
    refine ⟨_, writeReg_file hr, rfl, fun k => ?_, sameMemory_onTile (by simp), fun u hu => tile_onTile_ne s _ hu, by simp⟩
    simp [xreg_setX, ← BitVec.toNat_inj]
  case linkRead =>
    intro hr w ws hw
    exact ⟨_, readReg_link hr hw, by simp⟩
  case linkWrite =>
    intro hr hroom
    exact ⟨_, writeReg_link v hr hroom, by simp, by simp, sameMemory_onTile rfl⟩
  case outsidePhase =>
    intro hr hp d a b imm high sh by3 f hf hmem
    have hnamed : r ∈ f.2.1 ++ [d] := by simpa [or_comm] using hmem
    exact (regForms_checkLinksFirst d a b imm high sh by3 f hf).traps (checkLinks_outside hp ⟨r, hnamed, hr⟩)

end Sys2Proof.Proofs
end

section
/-! The branches of C (R131-R133, R135, R163, R180), and `Branches`. -/

namespace Sys2Proof.Proofs

open Sys2Proof Sys2Proof.Machine Sys2Proof.Laws

/-- A conditional branch runs as a flow instruction that evaluates the condition which R180 gives it. -/
theorem exec_branch : ∀ p ∈ branches, ∀ a b off s, exec (p.1 a b off) s = runFlow s (branchEval a b off p.2) := by
  have same_condition {c c' : Word → Word → Bool} (h : ∀ x y, c x y = c' x y) (a b : BitVec 5) (off : BitVec 14)
      (s : State) : runFlow s (branchEval a b off c) = runFlow s (branchEval a b off c') := by
    rw [show c = c' from funext fun x => funext (h x)]
  simp only [branches, List.forall_mem_cons, List.not_mem_nil, false_implies, implies_true, and_true]
  refine ⟨?beq, ?bne, ?blt, ?bge, ?bltx, ?bgex⟩
  case beq => exact same_condition fun _ _ => rfl
  case bne => exact same_condition fun _ _ => decide_not.symm
  case blt => exact same_condition fun _ _ => rfl
  case bge => exact same_condition fun _ _ => by simp [BitVec.slt, ← decide_not]
  case bltx => exact same_condition fun _ _ => rfl
  case bgex => exact same_condition fun _ _ => by simp [BitVec.lt_def, ← decide_not]

/-- `b` runs as a flow instruction that is always taken. -/
theorem exec_b (off : BitVec 14) (s : State) :
    exec (.b off) s = runFlow s fun t s => .ok (s, some (branchTarget s t off)) := rfl

section
variable {s : State} {a b : BitVec 5} {off : BitVec 14} {c : Word → Word → Bool}

/-- On registers of the file a branch is taken where its condition holds of them. -/
theorem branchEval_file (h : inFile s [a, b]) : branchEval a b off c s.here s =
    .ok (s, if c (xr s a) (xr s b) then some (branchTarget s s.here off) else none) := by
  simp only [branchEval, flowReg_file h (show a ∈ [a, b] by simp), flowReg_file h (show b ∈ [a, b] by simp), bind,
    Except.bind]

/-- A link as the first operand of a branch is ILLOP. -/
theorem branchEval_link_left {t : Nat} (ha : isLink a = true) : branchEval a b off c t s = trap .ILLOP := by
  simp only [branchEval, flowReg_link ha, trap, bind, Except.bind]

/-- A link as the second operand of a branch is ILLOP. -/
theorem branchEval_link_right (h : inFile s [a]) (hb : isLink b = true) :
    branchEval a b off c s.here s = trap .ILLOP := by
  simp only [branchEval, flowReg_file h (List.mem_singleton_self a), flowReg_link hb, trap, bind, Except.bind]

end

/-- The words of the conditional branches: format B, with OP6 0x31 to 0x36 in the order of R180. -/
theorem encode_branch (off : BitVec 14) : ∀ k p a b, branches[k]? = some p →
    encode (p.1 a b off) = some (0#2 ++ BitVec.ofNat 6 (0x31 + k) ++ a ++ b ++ off) := by
  intro k p a b hp
  match k, hp with
  | 0, rfl | 1, rfl | 2, rfl | 3, rfl | 4, rfl | 5, rfl => rfl

/-- Settles O31: every branch is a flow instruction, whose ends are those of its evaluation. -/
theorem branches : Obligations.Branches := by
  intro off s
  refine ⟨fun hdrift p hp a b => ?waits, fun hfree => ⟨?always, ?alwaysOutside, fun p hp a b => ?conditional⟩, rfl,
    encode_branch off⟩
  case waits => exact ⟨by rw [exec_branch p hp, runFlow_drift hdrift], by rw [exec_b, runFlow_drift hdrift]⟩
  case always => exact fun n htgt hn => by rw [exec_b, runFlow_taken hfree rfl htgt hn]
  case alwaysOutside => exact fun hout => by rw [exec_b, runFlow_range hfree rfl hout]
  case conditional =>
    rw [exec_branch p hp]
    refine ⟨fun hfile => ⟨fun hno => ?untaken, fun hyes => ?taken⟩, fun ha => ?left, fun hfile hb => ?right⟩
    case untaken => exact runFlow_next hfree (by simp [branchEval_file hfile, hno])
    case taken =>
      have heval : branchEval a b off p.2 s.here s = .ok (s, some (branchTarget s s.here off)) := by
        simp [branchEval_file hfile, hyes]
      exact ⟨fun n htgt hn => runFlow_taken hfree heval htgt hn, fun hout => runFlow_range hfree heval hout⟩
    case left => exact runFlow_trap hfree (branchEval_link_left ha)
    case right => exact runFlow_trap hfree (branchEval_link_right hfile hb)

end Sys2Proof.Proofs
end

section
/-! Traps of C and the return from them (R187, R189, R366-R369, R380), and `TrapInstructions`. -/

namespace Sys2Proof.Proofs

open Sys2Proof Sys2Proof.Machine Sys2Proof.Laws

/-! ### States with the same memory -/

theorem sameMemory_refl (s : State) : sameMemory s s := ⟨rfl, rfl, fun _ => rfl⟩

theorem sameMemory_trans {s s' s'' : State} (h : sameMemory s s') (h' : sameMemory s' s'') : sameMemory s s'' := by
  obtain ⟨hdev, hhost, hscratch⟩ := h
  obtain ⟨hdev', hhost', hscratch'⟩ := h'
  exact ⟨hdev'.trans hdev, hhost'.trans hhost, fun u => (hscratch' u).trans (hscratch u)⟩

theorem scratch_of_sameMemory {s s' : State} (h : sameMemory s s') (u : Nat) :
    (s'.tile u).scratch = (s.tile u).scratch := h.2.2 u

/-! ### The word of TRAPCAUSE (R365, R366) -/

/-- Every cause has a code of eight bits (R365). -/
theorem code_lt (c : Cause) : c.code < 2 ^ 8 := by cases c <;> decide

section
variable {c : Cause} {info : BitVec 14} {pend : Bool}

/-- The low eight bits of `TRAPCAUSE` are the code of the cause. -/
theorem trapCauseWord_code :
    (trapCauseWord 0 .C info pend false c).extractLsb' 0 8 = BitVec.ofNat 8 c.code := by
  have hcode := code_lt c
  apply BitVec.eq_of_toNat_eq
  cases pend <;> simp [trapCauseWord, engCode] <;> omega

/-- Bits 16 to 29 of `TRAPCAUSE` are INFO. -/
theorem trapCauseWord_info : (trapCauseWord 0 .C info pend false c).extractLsb' 16 14 = info := by
  have hcode := code_lt c
  have hinfo := info.isLt
  apply BitVec.eq_of_toNat_eq
  cases pend <;> simp [trapCauseWord, engCode, Nat.shiftRight_eq_div_pow] <;> omega

end

/-! ### Entering the handler (R366, R368) -/

/-- Abandoning a wait changes neither registers nor memory. -/
theorem withdraw_keeps (s : State) (t : Nat) :
    sameMemory s (withdraw s t) ∧ ∀ u, ((withdraw s t).tile u).x = (s.tile u).x := by
  unfold withdraw
  split
  case h_1 | h_2 => exact ⟨sameMemory_onTile rfl, fun u => by rw [tile_onTile]; split <;> simp [*]⟩
  case h_3 => exact ⟨sameMemory_refl s, fun _ => rfl⟩

section
variable {s : State} {t : Nat} {e : Engine} {c : Cause} {info : BitVec 14} {i : Nat} {dfr : Bool} {entry : Option Nat}

/-- Entering the handler changes neither registers nor memory. -/
theorem enterHandler_keeps : sameMemory s (enterHandler s t e c info i dfr entry) ∧
    ((enterHandler s t e c info i dfr entry).tile t).x = (s.tile t).x := by
  obtain ⟨hmem, hx⟩ := withdraw_keeps s t
  exact ⟨sameMemory_trans hmem (sameMemory_onTile (by simp)), by simp [enterHandler, hx]⟩

/-- Entering the handler leaves the word index in `TRAPPC`. -/
theorem enterHandler_trapPc : ((enterHandler s t e c info i dfr entry).tile t).trapPc = BitVec.ofNat 15 i := by
  simp [enterHandler]

/-- Entering the handler for a trap of C writes the code of its cause and its INFO into `TRAPCAUSE`. -/
theorem enterHandler_trapCause_C :
    ((enterHandler s t .C c info i false entry).tile t).trapCause.extractLsb' 0 8 = BitVec.ofNat 8 c.code ∧
    ((enterHandler s t .C c info i false entry).tile t).trapCause.extractLsb' 16 14 = info := by
  simp [enterHandler, trapCauseWord_code, trapCauseWord_info]

/-- A trap of C enters the handler where it can: outside the handler, with `TRAPVEC.EN` set, for a cause that EXT does not
send to the policy core, and under no lull sequence. -/
theorem deliverTrap_enters (hout : (s.tile t).inHandler = false) (hen : 2 ^ 14 ≤ (s.tile t).trapVec.toNat)
    (hdebug : c.isDebug = false) (hlull : (s.tile t).lull = .none) :
    deliverTrap s t .C c info i = enterHandler s t .C c info i false none := by
  have hen' : ¬ (s.tile t).trapVec.toNat < 16384 := by omega
  simp [deliverTrap, hout, hen', hdebug, hlull, Tile.noHalt]

end

/-! ### Queues -/

/-- The queue of an engine after the queue of one is set; C has none. -/
theorem queue_setQueue (tl : Tile) (e f : Engine) (q : List QEntry) :
    (tl.setQueue e q).queue f = if f = e ∧ e ≠ .C then q else tl.queue f := by
  cases e <;> cases f <;> simp [Tile.queue, Tile.setQueue]

/-! ### What RES does to a command (R130, R369) -/

/-- The command that RES acts on: one stopped by the delivered trap, or kept stopped by an earlier `eret`. -/
def actedOn (tl : Tile) (q : QEntry) : Prop := q.phase = .trapped ∧ (q.stopped = true ∨ tl.trapEntry = some q.id)

/-- A command that RES queues anew: its descriptors are captured again, but for those of a nest that has begun. -/
def retried (tl : Tile) (q : QEntry) : QEntry :=
  { q with phase := .queued, stopped := false, prog := .start, nest := q.nest.map NestState.again
           caps := if isNest q.word && q.nest.isSome then q.caps else tl.captureAll }

section
variable {tl : Tile} {q k : QEntry} {res : Nat}

/-- After the ILLOP of a counter at NWORDS nothing is done. -/
theorem applyRes_atEnd (h : tl.trapAtEnd = true) : applyRes tl q res = some q := by simp [applyRes, h]

/-- Any other command stays as it is. -/
theorem applyRes_other (h : ¬ actedOn tl q) : applyRes tl q res = some q := by
  simp only [actedOn, not_and, not_or] at h
  by_cases hp : q.phase = .trapped
  · simp [applyRes, hp, h hp]
  · simp [applyRes, hp]

/-- What is done to a command that RES acts on: a pushed one and a dropped one leave, a retried one is queued anew, and
any other is kept stopped. -/
theorem applyRes_actedOn (hend : tl.trapAtEnd = false) (h : actedOn tl q) : applyRes tl q res =
    if q.pushed || res = 1 then none
    else if res = 0 then some (retried tl q)
    else some { q with stopped := true } := by
  obtain ⟨hphase, hwhich⟩ := h
  rw [applyRes, if_neg, retried]
  rcases hwhich with h | h <;> simp [hend, hphase, h]

/-- What an entry that RES leaves was before: either no command that RES acts on, and the same, or one that is neither
pushed nor dropped. -/
theorem applyRes_some (hend : tl.trapAtEnd = false) (h : applyRes tl q res = some k) :
    (¬ actedOn tl q ∧ k = q) ∨ (res ≠ 1 ∧ k.pushed = false) := by
  by_cases hacts : actedOn tl q
  · rw [applyRes_actedOn hend hacts] at h
    split at h
    · simp at h
    · next hstays =>
      rw [Bool.or_eq_true, not_or, decide_eq_true_eq, Bool.not_eq_true] at hstays
      obtain ⟨hpushed, hres⟩ := hstays
      refine .inr ⟨hres, ?_⟩
      split at h <;> (cases h; exact hpushed)
  · rw [applyRes_other hacts, Option.some.injEq] at h
    exact .inl ⟨hacts, h.symm⟩

end

/-! ### The return (R187, R369) -/

/-- With no trap pending none is delivered. -/
theorem deliverPending_nil {s : State} {t : Nat} (h : (s.tile t).pending = []) : deliverPending s t = s := by
  simp [deliverPending, h, nextPending]

/-- A tile after the `eret` of a trap of engine `e`, before pending traps. -/
def afterEret (tl : Tile) (e : Engine) : Tile :=
  { tl.setQueue e ((tl.queue e).filterMap (applyRes tl · (tl.trapCause.toNat / 2 ^ 10 % 4))) with
    inHandler := false, trapNoCmd := false, trapAtEnd := false, trapEntry := none
    cntC := { pc := tl.trapPc.toNat % 2 ^ 14, st := .running, ended := false } }

/-- An `eret` acts on the queue of the engine that ENG names, and on no other. -/
theorem queue_afterEret (tl : Tile) (e f : Engine) : (afterEret tl e).queue f =
    if f = e then (tl.queue e).filterMap (applyRes tl · (tl.trapCause.toNat / 2 ^ 10 % 4)) else tl.queue f := by
  rw [show (afterEret tl e).queue f = (tl.setQueue e _).queue f by cases f <;> rfl, queue_setQueue]
  by_cases hf : f = e
  · by_cases he : e = .C
    · simp [hf, he, Tile.queue]
    · simp [hf, he]
  · simp [hf]

theorem exec_eret (s : State) : exec .eret s = execEret s := rfl

section
variable {s : State}

/-- An `eret` in the handler, with `TRAPCAUSE` and `TRAPPC` sound and no trap pending, changes the tile as `afterEret` has
it, and no other. -/
theorem exec_eret_returns {e : Engine} (hin : (s.tile s.here).inHandler = true)
    (hsound : (s.tile s.here).badAt (opmCsr 0x009) 16 = false) (hpending : (s.tile s.here).pending = [])
    (heng : (s.tile s.here).trapCause.toNat / 2 ^ 30 % 4 = engCode e) :
    exec .eret s = .next (s.setTile s.here (afterEret (s.tile s.here) e)) := by
  have hexec : exec .eret s = .next (returnFromTrap s s.here) := by
    simp [exec_eret, execEret, hin, hsound]
  have hreturn : returnFromTrap s s.here =
      deliverPending (s.setTile s.here (afterEret (s.tile s.here) e)) s.here := by
    simp only [returnFromTrap, heng]
    cases e <;> rfl
  rw [hexec, hreturn, deliverPending_nil (by simp [afterEret, hpending])]

/-- ENG always names an engine. -/
theorem exists_engCode (n : Nat) : ∃ e, n % 4 = engCode e := by
  have : n % 4 = 0 ∨ n % 4 = 1 ∨ n % 4 = 2 ∨ n % 4 = 3 := by omega
  rcases this with h | h | h | h
  · exact ⟨.C, h⟩
  · exact ⟨.L, h⟩
  · exact ⟨.X, h⟩
  · exact ⟨.S, h⟩

end

/-! ### The obligation -/

theorem exec_brk (s : State) : exec .brk s = runC s fun _ _ => trap .BRKPT := rfl

theorem exec_trap (imm : BitVec 14) (s : State) :
    exec (.trap imm) s = runC s fun _ _ => .error (.trap .SYSCALL imm) := rfl

/-- `brk` and `trap` trap at themselves, and `trap` enters the handler with its immediate in INFO. -/
theorem trapWords : Parts.TrapWords := by
  intro imm s
  have htrap : exec (.trap imm) s = traps s .SYSCALL imm := by rw [exec_trap, runC_trap rfl]
  refine ⟨by rw [exec_brk, runC_trap rfl], htrap, rfl, fun hout hen hlull hpc => ?_⟩
  refine ⟨enterHandler s s.here .C .SYSCALL imm (pcOf s) false none, ?enters, ?pc, ?code, ?info, ?x, ?memory⟩
  case enters => rw [htrap, traps, deliverTrap_enters hout hen rfl hlull]
  case pc => rw [enterHandler_trapPc, BitVec.toNat_ofNat, Nat.mod_eq_of_lt hpc]
  case code => exact enterHandler_trapCause_C.1
  case info => exact enterHandler_trapCause_C.2
  case x => exact enterHandler_keeps.2
  case memory => exact enterHandler_keeps.1

/-- What `eret` checks, and where C goes on. -/
theorem eretPlace : Parts.Return := by
  intro s
  refine ⟨fun hout => ?outside, fun hin hbad => ?unsound, fun hin hsound hpending => ?returns⟩
  case outside => simp [exec_eret, execEret, hout, traps, pcOf]
  case unsound => simp [exec_eret, execEret, hin, hbad, traps, pcOf]
  case returns =>
    obtain ⟨e, heng⟩ := exists_engCode ((s.tile s.here).trapCause.toNat / 2 ^ 30)
    refine ⟨_, exec_eret_returns hin hsound hpending heng, ?_⟩
    simp only [tile_setTile_self]
    exact ⟨rfl, rfl, rfl, by simp [afterEret], sameMemory_onTile (f := fun tl => afterEret tl e) (by simp [afterEret]),
      fun v hv => tile_setTile_ne s _ hv⟩

/-- What RES does to the commands of the engine that ENG names, and that the other queues stay. -/
theorem returnActs : Parts.ReturnActs := by
  intro s e tl hin hsound hpending heng
  refine ⟨_, exec_eret_returns hin hsound hpending heng, fun f hf => ?stays, fun he hend => ?acts⟩
  case stays =>
    rw [tile_setTile_self, queue_afterEret]
    split
    · next hfe =>
      have hatEnd : tl.trapAtEnd = true := hf.resolve_left (not_not_intro hfe)
      have hall : (applyRes tl · (tl.trapCause.toNat / 2 ^ 10 % 4)) = some := funext fun q => applyRes_atEnd hatEnd
      rw [hfe, hall, List.filterMap_some]
    · rfl
  case acts =>
    intro acts res
    have hqueue : ((s.setTile s.here (afterEret (s.tile s.here) e)).tile s.here).queue e =
        (tl.queue e).filterMap (applyRes tl · res) := by
      rw [tile_setTile_self, queue_afterEret, if_pos rfl]
    simp only [hqueue, List.mem_filterMap]
    refine ⟨fun q hq hother => ⟨q, hq, applyRes_other hother⟩, fun hdrop k hk => ?dropped, fun q hq hacts hown => ?own,
      fun k hk hpushed => ?pushed⟩
    case dropped =>
      obtain ⟨q, hq, hk⟩ := hk
      obtain ⟨hother, rfl⟩ := (applyRes_some hend hk).resolve_right fun h => h.1 hdrop
      exact ⟨hq, hother⟩
    case own =>
      have happly := applyRes_actedOn (res := res) hend hacts
      refine ⟨fun hretry => ⟨retried tl q, ⟨q, hq, ?_⟩, rfl, rfl, rfl, rfl, rfl, rfl, rfl, rfl⟩,
        fun hkeep => ⟨q, hq, ?_⟩⟩
      · simpa [hown, hretry] using happly
      · simpa [hown, hkeep] using happly
    case pushed =>
      obtain ⟨q, hq, hk⟩ := hk
      obtain ⟨hother, rfl⟩ := (applyRes_some hend hk).resolve_right fun h => by simp [h.2] at hpushed
      exact ⟨hq, hother⟩

/-- Settles O32: the words that trap, the checks and the place of the return, and what RES does at it. -/
theorem trapInstructions : Obligations.TrapInstructions := ⟨trapWords, eretPlace, returnActs⟩

end Sys2Proof.Proofs
end

section
/-! Writes of a scratchpad (R309): the bytes they write, and what they leave of every tile. -/

namespace Sys2Proof.Proofs

open Sys2Proof Sys2Proof.Machine Sys2Proof.Laws

/-! ### What monitors and updates leave (R334, R354) -/

/-- A tile without what a write of a scratchpad changes beside its bytes: zero flags, poison, old bytes, monitors and
update batches. -/
def besideWrites (tl : Tile) : Tile :=
  { tl with zflags := [], poison := [], xOld := [], mon := [], fired := 0, batches := [] }

/-- Every tile has stayed, but for what a write changes beside its bytes. -/
def TilesStay (s s' : State) : Prop := ∀ u, besideWrites (s'.tile u) = besideWrites (s.tile u)

theorem TilesStay.refl (s : State) : TilesStay s s := fun _ => rfl

theorem TilesStay.of_tiles {s s' : State} (h : s'.tiles = s.tiles) : TilesStay s s' :=
  fun u => by simp only [State.tile, h]

theorem TilesStay.trans {s s' s'' : State} (h : TilesStay s s') (h' : TilesStay s' s'') : TilesStay s s'' :=
  fun u => (h' u).trans (h u)

theorem TilesStay.onTile {s : State} {t : Nat} {f : Tile → Tile} (h : ∀ tl, besideWrites (f tl) = besideWrites tl) :
    TilesStay s (s.onTile t f) := by
  intro u
  rw [tile_onTile]
  split
  · next hu => rw [h, hu]
  · rfl

theorem TilesStay.foldl {α : Type} {f : State → α → State} (h : ∀ s a, TilesStay s (f s a)) (l : List α)
    (s : State) : TilesStay s (l.foldl f s) :=
  List.foldlRecOn l f (motive := TilesStay s) (.refl s) fun s' hs' a _ => hs'.trans (h s' a)

theorem TilesStay.scratch {s s' : State} (h : TilesStay s s') (u : Nat) : (s'.tile u).scratch = (s.tile u).scratch := by
  show (besideWrites (s'.tile u)).scratch = (besideWrites (s.tile u)).scratch
  rw [h u]

theorem TilesStay.linkIn {s s' : State} (h : TilesStay s s') (u : Nat) : (s'.tile u).linkIn = (s.tile u).linkIn := by
  show (besideWrites (s'.tile u)).linkIn = (besideWrites (s.tile u)).linkIn
  rw [h u]

/-- Firing changes the monitor entries and the FIRED bits of a tile. -/
theorem besideWrites_fire (tl : Tile) (hit : MonEntry → Bool) : besideWrites (tl.fire hit) = besideWrites tl := by
  refine List.foldlRecOn tl.mon _ (motive := fun tl' => besideWrites tl' = besideWrites tl) rfl fun tl' htl' e _ => ?_
  dsimp only
  split <;> exact htl'

theorem fireScratch_stays (s : State) (u first last : Nat) : TilesStay s (fireScratch s u first last) :=
  .foldl (fun _ _ => .onTile fun tl => besideWrites_fire tl _) _ s

theorem closeBatch_stays (s : State) (u k : Nat) : TilesStay s (closeBatch s u k) := by
  unfold closeBatch
  dsimp only
  split
  · exact .onTile fun _ => rfl
  · exact TilesStay.trans (.onTile (f := fun tl => { tl with batches := tErase tl.batches k }) fun _ => rfl) (.of_tiles rfl)

theorem setBatch_stays (s : State) (u k : Nat) (fs : List Flit) :
    TilesStay s (s.onTile u fun tl => { tl with batches := tSet [] tl.batches k fs }) := .onTile fun _ => rfl

theorem addUpdate_stays (s : State) (u k line : Nat) (bytes : Table Byte) (cls : BitVec 4) :
    TilesStay s (addUpdate s u k line bytes cls) := by
  have hstamp : TilesStay s { s with stamp := s.stamp + 1 } := .of_tiles rfl
  have hclosed := hstamp.trans (closeBatch_stays _ u k)
  unfold addUpdate
  dsimp only
  split
  · split
    · exact (hstamp.trans (setBatch_stays _ u k _)).trans (closeBatch_stays _ u k)
    · exact hstamp.trans (setBatch_stays _ u k _)
  · split
    · exact hstamp.trans (setBatch_stays _ u k _)
    · split
      · exact hstamp.trans (setBatch_stays _ u k _)
      · split
        · exact (hclosed.trans (setBatch_stays _ u k _)).trans (closeBatch_stays _ u k)
        · exact hclosed.trans (setBatch_stays _ u k _)

theorem forwardEntry_stays (s : State) (u k off : Nat) (bytes : List Byte) (cls : BitVec 4) :
    TilesStay s (forwardEntry s u k off bytes cls) := by
  unfold forwardEntry
  dsimp only
  split
  · exact .refl s
  · refine .foldl (fun s i => ?_) _ s
    split
    · exact addUpdate_stays _ _ _ _ _ _
    · exact .refl s

theorem forward_stays (s : State) (u off : Nat) (bytes : List Byte) (cls : BitVec 4) :
    TilesStay s (forward s u off bytes cls) := .foldl (fun s k => forwardEntry_stays s u k off bytes cls) _ s

/-! ### A write of the scratchpad (R309) -/

/-- A write of a scratchpad writes its bytes. -/
theorem scratchWrite_stays (s : State) (u off : Nat) (bytes : List Byte) (cls : BitVec 4) (fwd byX : Bool) :
    TilesStay (s.onTile u fun tl => { tl with scratch := tl.scratch.writeBytes off bytes })
      (scratchWrite s u off bytes cls fwd byX) := by
  cases bytes with
  | nil =>
    intro v
    rw [tile_onTile]
    split
    · next hv => rw [hv]; rfl
    · rfl
  | cons b bs =>
    have hbytes (zf po : Tile → Table Bool) (xo : Tile → Table Byte) :
        TilesStay (s.onTile u fun tl => { tl with scratch := tl.scratch.writeBytes off (b :: bs) })
          (s.onTile u fun tl => { tl with scratch := tl.scratch.writeBytes off (b :: bs), zflags := zf tl, poison := po tl,
                                          xOld := xo tl }) := by
      intro v
      rw [tile_onTile, tile_onTile]
      split <;> rfl
    unfold scratchWrite
    dsimp only [List.isEmpty_cons]
    rw [if_neg Bool.false_ne_true]
    split
    · exact ((hbytes _ _ _).trans (fireScratch_stays _ _ _ _)).trans (forward_stays _ _ _ _ _)
    · exact (hbytes _ _ _).trans (fireScratch_stays _ _ _ _)

/-- A byte of any scratchpad after a write of one. -/
theorem byte_scratchWrite (s : State) (u off : Nat) (bytes : List Byte) (cls : BitVec 4) (fwd byX : Bool) (v x : Nat) :
    ((scratchWrite s u off bytes cls fwd byX).tile v).scratch.byte x =
      if v = u ∧ off ≤ x ∧ x < off + bytes.length then bytes.getD (x - off) 0 else (s.tile v).scratch.byte x := by
  rw [(scratchWrite_stays s u off bytes cls fwd byX).scratch, tile_onTile]
  by_cases hv : v = u
  · simp [hv, byte_writeBytes]
  · simp [hv]

/-- A write of a scratchpad leaves the words of the inputs. -/
@[simp] theorem linkIn_scratchWrite (s : State) (u off : Nat) (bytes : List Byte) (cls : BitVec 4) (fwd byX : Bool)
    (v : Nat) : ((scratchWrite s u off bytes cls fwd byX).tile v).linkIn = (s.tile v).linkIn := by
  rw [(scratchWrite_stays s u off bytes cls fwd byX).linkIn, tile_onTile]
  split
  · next hv => rw [hv]
  · rfl

/-- A byte of a number written out, the least significant first. -/
theorem getElem?_natBytes (n v i : Nat) (h : i < n) : (natBytes n v)[i]? = some (BitVec.ofNat 8 (v / 256 ^ i)) := by
  induction n generalizing v i with
  | zero => omega
  | succ n ih =>
    cases i with
    | zero => simp [natBytes]
    | succ i => simp [natBytes, ih (v / 256) i (by omega), Nat.div_div_eq_div_mul, Nat.pow_succ']

@[simp] theorem length_natBytes (n v : Nat) : (natBytes n v).length = n := by
  induction n generalizing v with
  | zero => rfl
  | succ n ih => simp [natBytes, ih]

/-- Byte `i` of a doubleword. -/
theorem getD_natBytes_word (w : Word) {i : Nat} (h : i < 8) :
    (natBytes 8 w.toNat).getD i 0 = w.extractLsb' (8 * i) 8 := by
  rw [List.getD_eq_getElem?_getD, getElem?_natBytes 8 _ i h, Option.getD_some]
  apply BitVec.eq_of_toNat_eq
  simp [Nat.shiftRight_eq_div_pow, Nat.pow_mul]

end Sys2Proof.Proofs
end

section
/-! The words of a transfer phase (R188, R328-R330): `lpoll`, `mux` and `tx`, and `TransferPhases`. -/

namespace Sys2Proof.Proofs

open Sys2Proof Sys2Proof.Machine Sys2Proof.Laws

/-! ### `lpoll` (R188) -/

/-- The bits of a sum of four distinct powers of two, of which some are left out. -/
theorem testBit_sum_of_four : ∀ none0 none1 none2 none3 : Bool, ∀ k < 4,
    ((if none0 then 0 else 1) + (if none1 then 0 else 2) + (if none2 then 0 else 4) + (if none3 then 0 else 8)).testBit k =
      [!none0, !none1, !none2, !none3].getD k false := by decide

/-- Bit `k` of the mask: input `k`, of four, holds a word. -/
theorem getLsbD_lpollMask (tl : Tile) (k : Nat) :
    (lpollMask tl).getLsbD k = (decide (k < 4) && !(tGet [] tl.linkIn k).isEmpty) := by
  have hmask : lpollMask tl = BitVec.ofNat 64 ((if (tGet [] tl.linkIn 0).isEmpty then 0 else 1) +
      (if (tGet [] tl.linkIn 1).isEmpty then 0 else 2) + (if (tGet [] tl.linkIn 2).isEmpty then 0 else 4) +
      (if (tGet [] tl.linkIn 3).isEmpty then 0 else 8)) := by
    simp [lpollMask, List.range_succ]
  rw [hmask]
  by_cases hk : k < 4
  · rw [BitVec.getLsbD_ofNat, testBit_sum_of_four _ _ _ _ k hk]
    match k, hk with
    | 0, _ | 1, _ | 2, _ | 3, _ => rfl
  · have hlt : ∀ n < 16, n.testBit k = false := fun n hn =>
      Nat.testBit_lt_two_pow (Nat.lt_of_lt_of_le hn (Nat.pow_le_pow_right (n := 2) (by omega) (show 4 ≤ k by omega)))
    rw [BitVec.getLsbD_ofNat, hlt _ (by split <;> split <;> split <;> split <;> omega)]
    simp [hk]

theorem exec_lpoll (d : BitVec 5) (s : State) : exec (.lpoll d) s = runC s (lpollBody d) := rfl

/-- `lpoll` outside a phase. -/
theorem lpollBody_outside {s : State} {t : Nat} (d : BitVec 5) (hp : (s.tile t).phase = none) :
    lpollBody d t s = trap .LINKPH := by simp [lpollBody, hp, check, trap, bind, Except.bind]

/-- `lpoll` in a phase, to a register of the file. -/
theorem lpollBody_inside {s : State} {t : Nat} {d : BitVec 5} {g : BitVec 6} (hp : (s.tile t).phase = some g)
    (hd : isLink d = false) :
    lpollBody d t s = .ok (s.onTile t (·.setX d.toNat (lpollMask (s.tile t)))) := by
  simp only [lpollBody, hp, Option.isSome_some, check, if_true, bind, Except.bind, writeReg_file hd,
    checkLinks_file (s := s) (t := t) (reads := []) (writes := [d]) (by simp) (by simpa using hd)]

/-! ### `mux` (R330) -/

theorem exec_mux (w so e n : BitVec 3) (s : State) : exec (.mux w so e n) s = runC s (muxBody w so e n) := rfl

/-- The source of each output, north first. -/
def withSources (n e so w : BitVec 3) (tl : Tile) : Tile :=
  { tl with forward := (List.range 4).foldl (fun m d => tSet 0 m d (([n, e, so, w][d]?).getD 0)) [] }

theorem source_withSources (n e so w : BitVec 3) (tl : Tile) (d : Nat) :
    (withSources n e so w tl).source d = (([n, e, so, w][d]?).getD 0).toNat := by
  match d with
  | 0 | 1 | 2 | 3 | d + 4 => simp [withSources, Tile.source, List.range_succ, tGet_tSet]

/-- `mux` outside a phase. -/
theorem muxBody_outside {s : State} {t : Nat} (w so e n : BitVec 3) (hp : (s.tile t).phase = none) :
    muxBody w so e n t s = trap .LINKPH := by simp only [muxBody, hp]

/-- `mux` in a phase, where no output is driven towards a tile outside the group. -/
theorem muxBody_inside {s : State} {t : Nat} {w so e n : BitVec 3} {g : BitVec 6} (hp : (s.tile t).phase = some g)
    (hn : n = 0 ∨ (s.phaseNeighbour t g 0).isSome) (he : e = 0 ∨ (s.phaseNeighbour t g 1).isSome)
    (hso : so = 0 ∨ (s.phaseNeighbour t g 2).isSome) (hw : w = 0 ∨ (s.phaseNeighbour t g 3).isSome) :
    muxBody w so e n t s = .ok (forwardInputs (s.onTile t (withSources n e so w)) t) := by
  have hdriven : ((List.range 4).all fun d =>
      ([n, e, so, w][d]?).getD 0 == 0 || (s.phaseNeighbour t g d).isSome) = true := by
    simpa [List.range_succ] using ⟨hn, he, hso, hw⟩
  simp only [muxBody, hp, hdriven, check, if_true, bind, Except.bind]
  rfl

/-! ### Words sent and received (R328, R329) -/

/-- A tile that has sent a word. -/
def withSent (d : Nat) (v : Word) (tl : Tile) : Tile :=
  { tl with linkOut := tSet [] tl.linkOut d (tGet [] tl.linkOut d ++ [v]) }

/-- A word is sent where the link has room. -/
theorem sendLink_free {s : State} {t d : Nat} {v : Word} (h : s.linkFill t d < 8) :
    sendLink s t d v = .ok (s.onTile t (withSent d v)) := if_pos h

/-- A word sent fills its link by one. -/
theorem linkFill_sent {s : State} {t d : Nat} (v : Word) (h : s.linkFill t d < 8) :
    (s.onTile t (withSent d v)).linkFill t d = s.linkFill t d + 1 := by
  unfold State.linkFill at h ⊢
  cases hu : neighbour t d with
  | none => simp [hu] at h
  | some u =>
    have hin : ((s.onTile t (withSent d v)).tile u).linkIn = (s.tile u).linkIn := by
      rw [tile_onTile]
      split
      · next hut => rw [hut]; rfl
      · rfl
    simp only [hin, tile_onTile_self, withSent, tGet_tSet_self, List.length_append, List.length_singleton]
    omega

/-- Words that the link has room for are all sent, in their order, and no memory changes. -/
theorem txSend_all {t d : Nat} (ws : List Word) : ∀ s : State, s.linkFill t d + ws.length ≤ 8 →
    ∃ s', txSend s t d ws = (s', []) ∧ sameMemory s s' ∧
      tGet [] (s'.tile t).linkOut d = tGet [] (s.tile t).linkOut d ++ ws := by
  induction ws with
  | nil => exact fun s _ => ⟨s, rfl, sameMemory_refl s, by simp⟩
  | cons w ws ih =>
    intro s hroom
    rw [List.length_cons] at hroom
    have hfree : s.linkFill t d < 8 := by omega
    obtain ⟨s', hsend, hmem, hout⟩ := ih (s.onTile t (withSent d w)) (by rw [linkFill_sent w hfree]; omega)
    refine ⟨s', by simp only [txSend, sendLink_free hfree, hsend], ?_, by simp [hout, withSent]⟩
    exact sameMemory_trans (sameMemory_onTile (f := withSent d w) rfl) hmem

/-- Words that the input holds are all received: popped, and stored one after another. -/
theorem txRecv_all {t d : Nat} (n : Nat) : ∀ (s : State) (off : Nat), n ≤ (tGet [] (s.tile t).linkIn d).length →
    ∃ s', txRecv s t d n off = (s', 0, off + 8 * n) ∧
      tGet [] (s'.tile t).linkIn d = (tGet [] (s.tile t).linkIn d).drop n ∧
      ∀ u x, (s'.tile u).scratch.byte x = if u = t ∧ off ≤ x ∧ x < off + 8 * n
        then ((tGet [] (s.tile t).linkIn d).getD ((x - off) / 8) 0).extractLsb' (8 * ((x - off) % 8)) 8
        else (s.tile u).scratch.byte x := by
  induction n with
  | zero =>
    intro s off _
    refine ⟨s, rfl, rfl, fun u x => ?_⟩
    rw [if_neg (by omega)]
  | succ n ih =>
    intro s off hlen
    obtain ⟨w, ws, hws⟩ : ∃ w ws, tGet [] (s.tile t).linkIn d = w :: ws := by
      cases h : tGet [] (s.tile t).linkIn d with
      | nil => simp [h] at hlen
      | cons w ws => exact ⟨w, ws, rfl⟩
    let popped := s.onTile t fun tl => { tl with linkIn := tSet [] tl.linkIn d ws }
    let stored := scratchWrite popped t off (natBytes 8 w.toNat) 0 true false
    have hpop : popLink s t d = .ok (w, popped) := by simp only [popLink, hws]; rfl
    have hrest : tGet [] (stored.tile t).linkIn d = ws := by simp [stored, popped]
    obtain ⟨s', hrecv, hin, hbytes⟩ := ih stored (off + 8) (by rw [hrest]; simpa [hws] using hlen)
    refine ⟨s', ?_, by rw [hin, hrest, hws, List.drop_succ_cons], fun u x => ?_⟩
    · simp only [txRecv, hpop]
      rw [hrecv, show off + 8 + 8 * n = off + 8 * (n + 1) by omega]
    · have hpopped : (popped.tile u).scratch = (s.tile u).scratch := scratch_of_sameMemory (sameMemory_onTile rfl) u
      rw [hbytes, hrest, byte_scratchWrite, length_natBytes, hpopped, hws]
      by_cases hu : u = t
      · by_cases hfirst : off ≤ x ∧ x < off + 8
        · rw [if_neg (by omega), if_pos ⟨hu, hfirst⟩, if_pos ⟨hu, by omega, by omega⟩,
            getD_natBytes_word w (by omega), show (x - off) / 8 = 0 by omega, show (x - off) % 8 = x - off by omega]
          rfl
        · by_cases hlater : off + 8 ≤ x ∧ x < off + 8 + 8 * n
          · rw [if_pos ⟨hu, hlater⟩, if_pos ⟨hu, by omega, by omega⟩,
              show (x - off) / 8 = (x - (off + 8)) / 8 + 1 by omega,
              show (x - off) % 8 = (x - (off + 8)) % 8 by omega]
            rfl
          · rw [if_neg (by omega), if_neg (by omega), if_neg (by omega)]
      · simp [hu]

/-! ### `tx` (R329) -/

@[simp] theorem length_txWords (m : Memory) (n : Nat) : ∀ off, (txWords m off n).length = n := by
  induction n with
  | zero => exact fun _ => rfl
  | succ n ih => exact fun off => by simp [txWords, ih]

/-- A `tx` whose halves can both be made at once is done. -/
theorem txAdvance_done {s s1 s2 : State} {t dest : Nat} {st : TxState}
    (hsend : txSend s t st.outDir.toNat st.toSend = (s1, []))
    (hrecv : txRecv s1 t st.inDir.toNat st.toRecv st.dest = (s2, 0, dest)) :
    txAdvance s t st = .ok (s2.onTile t fun tl => { tl with cwait := none }) := by
  simp [txAdvance, hsend, hrecv]

/-- An access of the own scratchpad that meets no lapsed region passes, if the subscriber table can be read. -/
theorem checkLapsed_quiet {s : State} {t off n : Nat} (hsubs : n = 0 ∨ (s.tile t).subsBad = false)
    (hlapsed : lapsedAt (s.tile t) off n = none) : checkLapsed s t (.scratch t off) n = .ok () := by
  have hread : (n ≠ 0 && (s.tile t).subsBad) = false := by rcases hsubs with h | h <;> simp [h]
  simp only [checkLapsed, if_true, hread, Bool.false_eq_true, if_false, hlapsed]

/-- A run of no bytes passes. -/
theorem checkLapsed_empty {s : State} {t off : Nat} : checkLapsed s t (.scratch t off) 0 = .ok () :=
  checkLapsed_quiet (.inl rfl) (by simp [lapsedAt])

/-- Some of the registers of a sound list of the file. -/
theorem inFile_of_subset {s : State} {rs rs' : List (BitVec 5)} (h : inFile s rs) (hsub : rs' ⊆ rs) : inFile s rs' :=
  fun r hr => h r (hsub hr)

/-- A `tx` that has not begun starts. -/
theorem exec_tx_begins {s : State} (d a b : BitVec 5) (sen ren : BitVec 1) (dir dir' : BitVec 2)
    (hwait : (s.tile s.here).cwait = none) :
    exec (.tx d a b sen ren dir dir') s = runC s (txStart d a b (sen == 1) (ren == 1) dir dir') := by
  show runC s (txBody d a b sen ren dir dir') = _
  simp only [runC, txBody, hwait]

section
variable {s : State} {d a b : BitVec 5} {dir dir' : BitVec 2} {g : BitVec 6} {off : Nat}

/-- A `tx` outside a phase. -/
theorem txStart_outside {sen ren : Bool} {t : Nat} (hp : (s.tile t).phase = none) :
    txStart d a b sen ren dir dir' t s = trap .LINKPH := by simp only [txStart, hp]

/-- A `tx` that sends more than 4,096 doublewords. -/
theorem txStart_send_range (hp : (s.tile s.here).phase = some g) (hfile : inFile s [a, b, d])
    (hn : 4096 < (xr s b).toNat) : txStart d a b true false dir dir' s.here s = trap .RANGE := by
  have hab := inFile_links (inFile_of_subset hfile (show [a, b] ⊆ [a, b, d] by simp))
  have hn' : ¬ (xr s b).toNat ≤ 4096 := by omega
  simp [txStart, hp, checkLinks_file (s := s) (t := s.here) (writes := []) hab, readReg_file hfile, check, trap, bind,
    Except.bind, hn']

/-- A `tx` that only sends passes its checks, and its words go. -/
theorem txStart_send (hp : (s.tile s.here).phase = some g) (hfile : inFile s [a, b, d]) (hn : (xr s b).toNat ≤ 4096)
    (hhome : txHome s s.here (xr s a) (8 * (xr s b).toNat) = .ok off)
    (hnb : (s.phaseNeighbour s.here g dir.toNat).isSome) (hsource : (s.tile s.here).source dir.toNat = 0)
    (hpoison : poisoned (s.tile s.here).poison off (8 * (xr s b).toNat) 64 = false)
    (hlapsed : checkLapsed s s.here (.scratch s.here off) (8 * (xr s b).toNat) = .ok ()) :
    txStart d a b true false dir dir' s.here s = txAdvance s s.here
      { toSend := txWords (s.tile s.here).scratch off (xr s b).toNat, outDir := dir, toRecv := 0, inDir := dir'
        dest := 0 } := by
  have hab := inFile_links (inFile_of_subset hfile (show [a, b] ⊆ [a, b, d] by simp))
  simp [txStart, hp, checkLinks_file (s := s) (t := s.here) (writes := []) hab, readReg_file hfile, check, bind,
    Except.bind, hn, hhome, hnb, hsource, hpoison, hlapsed, checkLapsed_empty]

/-- A `tx` that only receives passes its checks, and its words come. -/
theorem txStart_receive (hp : (s.tile s.here).phase = some g) (hfile : inFile s [a, b, d]) (hn : (xr s b).toNat ≤ 4096)
    (hhome : txHome s s.here (xr s d) (8 * (xr s b).toNat) = .ok off)
    (hnb : (s.phaseNeighbour s.here g dir.toNat).isSome) (hforward : (s.tile s.here).forwarded dir.toNat = false)
    (hpubs : (xr s b).toNat = 0 ∨ (s.tile s.here).pubsBad = false)
    (hlapsed : checkLapsed s s.here (.scratch s.here off) (8 * (xr s b).toNat) = .ok ()) :
    txStart d a b false true dir' dir s.here s = txAdvance s s.here
      { toSend := [], outDir := dir', toRecv := (xr s b).toNat, inDir := dir, dest := off } := by
  have hbd := inFile_links (inFile_of_subset hfile (show [b, d] ⊆ [a, b, d] by simp))
  simp [txStart, hp, checkLinks_file (s := s) (t := s.here) (writes := []) hbd, readReg_file hfile, check, bind,
    Except.bind, hn, hhome, hnb, hforward, hpubs, hlapsed, checkLapsed_empty]

end

/-! ### The obligation -/

/-- Settles O25: outside a phase the three words trap; in one `mux` sets the sources, `lpoll` reads the inputs, and a half
of a `tx` that can be made at once is. -/
theorem transferPhases : Obligations.TransferPhases := by
  intro s d a b w so e n dir dir' g tl
  refine ⟨fun hp => ⟨?muxOutside, ?lpollOutside, fun hwait => ?txOutside⟩,
    fun hp => ⟨fun hn he hso hw => ?mux, fun hd => ?lpoll, fun hfile hwait => ⟨fun hn => ?range, ?send, ?receive⟩⟩⟩
  case muxOutside => rw [exec_mux, runC_trap (muxBody_outside w so e n hp)]
  case lpollOutside => rw [exec_lpoll, runC_trap (lpollBody_outside d hp)]
  case txOutside => rw [exec_tx_begins d a b 1 0 dir dir' hwait, runC_trap (txStart_outside hp)]
  case mux =>
    refine ⟨s.onTile s.here (withSources n e so w), ?_, by simp [withSources]; rfl, ?_⟩
    · rw [exec_mux, runC_ok (muxBody_inside hp hn he hso hw)]
    · simp only [tile_onTile_self, source_withSources]
      exact ⟨rfl, rfl, rfl, rfl⟩
  case lpoll =>
    refine ⟨lpollMask tl, ?_, getLsbD_lpollMask tl⟩
    rw [exec_lpoll, runC_ok (lpollBody_inside hp hd)]
    rfl
  case range => rw [exec_tx_begins d a b 1 0 dir dir' hwait]; exact runC_trap (txStart_send_range hp hfile hn)
  case send =>
    intro off hn hhome hnb hsource hpoison hlapsed hsubs hroom
    have hlen : (txWords tl.scratch off (xr s b).toNat).length = (xr s b).toNat := length_txWords _ _ _
    obtain ⟨s1, hsend, hmem, hout⟩ := txSend_all (txWords tl.scratch off (xr s b).toNat) s (hlen.symm ▸ hroom)
    refine ⟨s1.onTile s.here fun tl => { tl with cwait := none }, ?_, sameMemory_trans hmem (sameMemory_onTile rfl), ?_⟩
    · rw [exec_tx_begins d a b 1 0 dir dir' hwait]
      exact runC_ok ((txStart_send hp hfile hn hhome hnb hsource hpoison
        (checkLapsed_quiet (hsubs.imp_left fun h => by simp [h]) hlapsed)).trans (txAdvance_done hsend rfl))
    · simpa using hout
  case receive =>
    rintro off _ hn hhome hnb hforward hlapsed htables rfl hlen
    obtain ⟨s1, hrecv, hin, hbytes⟩ := txRecv_all (xr s b).toNat s off hlen
    refine ⟨s1.onTile s.here fun tl => { tl with cwait := none }, ?_, by simpa using hin, fun u x => ?_⟩
    · rw [exec_tx_begins d a b 0 1 dir' dir hwait]
      exact runC_ok ((txStart_receive hp hfile hn hhome hnb hforward (htables.imp (fun h => by simp [h]) And.right)
        (checkLapsed_quiet (htables.imp (fun h => by simp [h]) And.left) hlapsed)).trans (txAdvance_done rfl hrecv))
    · rw [scratch_of_sameMemory (sameMemory_onTile rfl) u, hbytes]

end Sys2Proof.Proofs
end

section
/-! The weight latch (R222-R227, R235): the bodies of `wld` and `wswap`, the lines that a write phase installs, the give
tokens of a `wld` that a nest replays, and `WeightLatch`. -/

namespace Sys2Proof.Proofs

open Sys2Proof Sys2Proof.Machine Sys2Proof.Laws

/-! ### `wswap` (R227) -/

theorem exec_wswap (wl ws gl gs : BitVec 1) (s : State) : exec (.wswap wl ws gl gs) s = runCmd .X s wswapBody := rfl

/-- `wswap` waits for a write phase. -/
theorem wswapBody_pending {s : State} {t : Nat} (h : (s.tile t).wpend.isSome = true) :
    wswapBody t s = .error .stall := by simp only [wswapBody, h, if_true]

/-- Without one it exchanges the halves. -/
theorem wswapBody_free {s : State} {t : Nat} (h : (s.tile t).wpend = none) :
    wswapBody t s = .ok (s.onTile t fun tl => { tl with actW := !tl.actW }) := by simp [wswapBody, h]

/-! ### The read phase of `wld` (R223-R226) -/

theorem exec_wld (wl ws gl gs : BitVec 1) (gw : BitVec 4) (sf : BitVec 3) (s : State) :
    exec (.wld wl ws gl gs gw sf) s = runCmd .X s (wldBody gw sf) := rfl

theorem exec_wldPort (wl ws gl gs : BitVec 1) (port : BitVec 2) (sf : BitVec 3) (km1 : BitVec 8) (s : State) :
    exec (.wldPort wl ws gl gs port sf km1) s = runCmd .X s (wldPortBody port sf km1) := rfl

/-- What a command changes that touches the pending write phase alone. -/
theorem xFrame_onTile_wpend (s : State) (t : Nat) (p : Tile → Option (Table Byte × Nat)) :
    xFrame s (s.onTile t fun tl => { tl with wpend := p tl }) := by
  refine ⟨sameMemory_onTile rfl, fun v => ?_⟩
  by_cases hv : v = t
  · simp [hv]
  · simp [tile_onTile_ne s _ hv]

theorem xFrame_startWrite (s : State) (t sf kw : Nat) (rows : List (List Nat)) : xFrame s (startWrite s t sf kw rows) :=
  xFrame_onTile_wpend s t _

/-- A write phase is pending once it is started. -/
theorem wpend_startWrite (s : State) (t sf kw : Nat) (rows : List (List Nat)) :
    ((startWrite s t sf kw rows).tile t).wpend.isSome = true := by simp [startWrite]

section
variable {s : State} {t : Nat} {gw : BitVec 4} {port : BitVec 2} {sf : BitVec 3} {km1 : BitVec 8} {f : Nat}

/-- `wld` waits for the write phase of another. -/
theorem wldBody_pending (h : (s.tile t).wpend.isSome = true) : wldBody gw sf t s = .error .stall := by
  simp only [wldBody, h, if_true]

/-- A reserved source format, with a descriptor. -/
theorem wldBody_reserved (hw : (s.tile t).wpend = none) (hf : sFormat sf = none) : wldBody gw sf t s = trap .ILLOP := by
  simp [wldBody, wldPlan, hw, hf, check, trap, bind, Except.bind]

/-- A reserved source format, with a port. -/
theorem wldPortBody_reserved (hw : (s.tile t).wpend = none) (hf : sFormat sf = none) :
    wldPortBody port sf km1 t s = trap .ILLOP := by simp [wldPortBody, hw, hf, check, trap, bind, Except.bind]

/-- A `wld` whose checks pass and whose elements can be read starts the write phase of its rows. -/
theorem wldBody_reads {r : Tlr} {sp : List Span} {rows : List (List Nat)} (hw : (s.tile t).wpend = none)
    (hplan : wldPlan s t gw sf = .ok (r, sp)) (hguards : guards s t sp = .ok s) (hf : sFormat sf = some f)
    (hrows : (List.range (if 1 ≤ Tlr.rank r then Tlr.win r 1 else 1)).mapM (fun (k : Nat) =>
      (List.range (min (Tlr.win r 0) 64)).mapM fun (j : Nat) =>
        readElem s t .X r (elemBits f) (Tlr.resolveAt r (Tlr.coordsAt r j k) false)) = .ok rows) :
    wldBody gw sf t s = .ok (startWrite s t f (if 1 ≤ Tlr.rank r then Tlr.win r 1 else 1) rows) := by
  simp only [wldBody, hw, hplan, hguards, hf, Option.isSome_none, Bool.false_eq_true, if_false, Option.getD_some, bind,
    Except.bind] at hrows ⊢
  simp only [hrows, liftStop]

/-- A `wld` that has not begun, and whose words stand in a port that owes no error, starts the write phase of their rows. -/
theorem wldPortBody_takes {s2 : State} (hw : (s.tile t).wpend = none) (hf : sFormat sf = some f)
    (hk : km1.toNat + 1 ≤ if sf = 2 then 128 else 256) (hprog : s.progOf t .X = .start)
    (hport : tGet 0 (s.tile t).cfgErr port.toNat = 0)
    (htake : takeWords (s.onProg t .X fun p => { p with begun := true }) t port.toNat (portWords f (km1.toNat + 1)) =
      (s2, true)) :
    wldPortBody port sf km1 t s = .ok (startWrite s2 t f (km1.toNat + 1)
      ((List.range (km1.toNat + 1)).map (portRow f ((s2.progOf t .X).words.map (·.data))))) := by
  have hrange : check (km1.toNat + 1 ≤ if sf = 2 then 128 else 256) .RANGE = .ok () := if_pos (decide_eq_true hk)
  have hbegun : (s.progOf t .X).begun = false := by rw [hprog]; rfl
  have hwords : (s.progOf t .X).words = [] := by rw [hprog]; rfl
  have hformat : check (some f).isSome .ILLOP = .ok () := rfl
  have hchecked : checkPort s t port.toNat = .ok s := if_pos hport
  simp only [wldPortBody, hw, hf, hformat, hrange, hbegun, hwords, hchecked, htake, Option.isSome_none, Option.getD_some,
    Bool.false_eq_true, if_false, List.length_nil, Nat.sub_zero, Bool.not_true, bind, Except.bind]

end

/-! ### Tables cut at a key -/

section
variable {α : Type}

theorem tFind_append (m m' : Table α) (k : Nat) : tFind (m ++ m') k = (tFind m k).or (tFind m' k) := by
  induction m with
  | nil => rfl
  | cons e m ih =>
    obtain ⟨j, v⟩ := e
    simp only [List.cons_append, tFind, ih]
    split <;> rfl

/-- A table cut down to the keys of a set. -/
theorem tFind_filter_key (p : Nat → Bool) (m : Table α) (k : Nat) :
    tFind (m.filter fun e => p e.1) k = if p k then tFind m k else none := by
  induction m with
  | nil => simp [tFind]
  | cons e m ih =>
    obtain ⟨j, v⟩ := e
    by_cases hk : k = j
    · cases hp : p j <;> simp [hk, hp, tFind, hk ▸ ih]
    · cases hp : p j <;> simp [hk, hp, tFind, ih]

/-- A key that no entry has is not listed. -/
theorem tFind_eq_none {m : Table α} {k : Nat} (h : ∀ e ∈ m, e.1 ≠ k) : tFind m k = none := by
  induction m with
  | nil => rfl
  | cons e m ih =>
    obtain ⟨hk, hrest⟩ := List.forall_mem_cons.1 h
    simp only [tFind, if_neg (Ne.symm hk), ih hrest]

/-- A run of keys replaced by a table of such keys. -/
theorem tGet_replaceKeys (d : α) (m : Table α) {mid : Table α} {lo hi : Nat} (hmid : ∀ e ∈ mid, lo ≤ e.1 ∧ e.1 < hi)
    (k : Nat) : tGet d (keysBelow m lo ++ mid ++ keysFrom m hi) k =
      if lo ≤ k ∧ k < hi then tGet d mid k else tGet d m k := by
  have hbelow : tFind (keysBelow m lo) k = if k < lo then tFind m k else none := by
    simpa [keysBelow] using tFind_filter_key (fun j => decide (j < lo)) m k
  have hfrom : tFind (keysFrom m hi) k = if hi ≤ k then tFind m k else none := by
    simpa [keysFrom] using tFind_filter_key (fun j => decide (hi ≤ j)) m k
  simp only [tGet, tFind_append, hbelow, hfrom]
  by_cases hin : lo ≤ k ∧ k < hi
  · rw [if_neg (by omega), if_neg (by omega), if_pos hin]
    simp
  · have hnone : tFind mid k = none := tFind_eq_none fun e he hk => hin (hk ▸ hmid e he)
    rw [hnone, if_neg hin]
    by_cases hlow : k < lo
    · cases hfind : tFind m k <;> simp [hlow]
    · simp [hlow, show hi ≤ k by omega]

end

/-! ### The end of a write phase (R224, R226) -/

section
variable (tl : Tile) (bytes : Table Byte) (lines : Nat)

@[simp] theorem wpend_writeLatch : (writeLatch tl bytes lines).wpend = none := by unfold writeLatch; split <;> rfl
@[simp] theorem qX_writeLatch : (writeLatch tl bytes lines).qX = tl.qX := by unfold writeLatch; split <;> simp
@[simp] theorem actW_writeLatch : (writeLatch tl bytes lines).actW = tl.actW := by unfold writeLatch; split <;> simp
@[simp] theorem scratch_writeLatch : (writeLatch tl bytes lines).scratch = tl.scratch := by
  unfold writeLatch; split <;> simp
@[simp] theorem tokXL_writeLatch : (writeLatch tl bytes lines).tokXL = tl.tokXL := by unfold writeLatch; split <;> simp
@[simp] theorem tokXS_writeLatch : (writeLatch tl bytes lines).tokXS = tl.tokXS := by unfold writeLatch; split <;> simp

/-- The lines of the load stand in the latch whole, and the rest of it is as it was. -/
theorem latch_writeLatch {bytes : Table Byte}
    (h : ∀ e ∈ bytes, inactiveBase tl ≤ e.1 ∧ e.1 < inactiveBase tl + 64 * lines) (x : Nat) :
    tGet 0 (writeLatch tl bytes lines).latch x =
      if inactiveBase tl ≤ x ∧ x < inactiveBase tl + 64 * lines then tGet 0 bytes x else tGet 0 tl.latch x := by
  rw [← tGet_replaceKeys 0 tl.latch h x]
  unfold writeLatch
  split <;> rfl

/-- The active half keeps its line count. -/
theorem activeLw_writeLatch : activeLw (writeLatch tl bytes lines) = activeLw tl := by
  simp only [activeLw, actW_writeLatch]
  unfold writeLatch
  split <;> simp

/-- The inactive half takes the line count of the load. -/
theorem inactiveLw_writeLatch :
    (if tl.actW then (writeLatch tl bytes lines).lw0 else (writeLatch tl bytes lines).lw1) = lines := by
  unfold writeLatch
  split <;> rfl

end

/-- The end of a write phase that no entry of the queue holds. -/
theorem exec_wldWritePhaseEnd {s : State} {t lines : Nat} {bytes : Table Byte}
    (hpend : (s.tile t).wpend = some (bytes, lines))
    (hphase : (s.tile t).qX.find? (fun q => (s.tile t).inWritePhase q) = none) :
    exec (.wldWritePhaseEnd t) s = .next (endNestWld (s.setTile t (writeLatch (s.tile t) bytes lines)) t) := by
  show execWldWritePhaseEnd t s = _
  simp only [execWldWritePhaseEnd, hpend, hphase]

/-! ### The give tokens of a `wld` that a nest replays (R141, R235) -/

/-- No nest has a `wld` in its write phase. -/
theorem endNestWld_none {s : State} {t : Nat}
    (h : (s.tile t).qX.find? (fun q => (q.nest.bind (·.wgive)).isSome) = none) : endNestWld s t = s := by
  simp only [endNestWld, h]

/-- The entry of a nest once the gives of its replayed `wld` are pushed, but for those that are still owed. -/
def afterGives (q : QEntry) (n : NestState) (owed : BitVec 2) : QEntry :=
  { q with owed := owed, nest := some { n with wgive := none } }

/-- The gives of a nest's `wld` are pushed, and its entry owes those that had no room. -/
theorem endNestWld_some {s : State} {t : Nat} {q : QEntry} {n : NestState} {g : BitVec 2}
    (hfind : (s.tile t).qX.find? (fun q => (q.nest.bind (·.wgive)).isSome) = some q) (hn : q.nest = some n)
    (hg : n.wgive = some g) (howed : q.owed = 0) :
    endNestWld s t = s.onTile t fun tl => { (tl.pushGives .X g).1 with
      qX := tl.qX.map fun k => if k.id = q.id then afterGives q n (tl.pushGives .X g).2 else k } := by
  simp only [endNestWld, hfind, QEntry.giveTo, howed, hn, Option.bind_some, hg, Option.getD_some, Option.map_some, ne_eq,
    not_true, if_false]
  rfl

/-- A give is pushed where it is made and its FIFO has room. -/
theorem give_room (made : Bool) (held : Nat) :
    (made && decide (held < tokenDepth)) = true ↔ made = true ∧ held < 8 := by
  rw [Bool.and_eq_true, decide_eq_true_eq]; rfl

/-- A give of X to L is pushed if its FIFO has room. -/
theorem tokXL_pushGives (tl : Tile) (g : BitVec 2) :
    (tl.pushGives .X g).1.tokXL = tl.tokXL + (if g.getLsbD 1 ∧ tl.tokXL < 8 then 1 else 0) := by
  simp only [Tile.pushGives, give_room]
  split <;> rfl

/-- A give of X to S is pushed if its FIFO has room. -/
theorem tokXS_pushGives (tl : Tile) (g : BitVec 2) :
    (tl.pushGives .X g).1.tokXS = tl.tokXS + (if g.getLsbD 0 ∧ tl.tokXS < 8 then 1 else 0) := by
  simp only [Tile.pushGives, give_room]
  split <;> rfl

/-- The bits of a give that stay owed, by whether each FIFO has room. -/
theorem owedBits_eq_zero : ∀ (g : BitVec 2) (room1 room0 : Bool),
    ((if g.getLsbD 1 && room1 then 0 else g &&& 2) ||| (if g.getLsbD 0 && room0 then 0 else g &&& 1)) = (0 : BitVec 2) ↔
      (g.getLsbD 1 = true → room1 = true) ∧ (g.getLsbD 0 = true → room0 = true) := by decide

/-- X owes nothing after a push where each FIFO that it gives to has room. -/
theorem owed_pushGives_eq_zero (tl : Tile) (g : BitVec 2) : (tl.pushGives .X g).2 = 0 ↔
    (g.getLsbD 1 = true → tl.tokXL < 8) ∧ (g.getLsbD 0 = true → tl.tokXS < 8) := by
  have hbits := owedBits_eq_zero g (decide (tl.tokXL < tokenDepth)) (decide (tl.tokXS < tokenDepth))
  rwa [decide_eq_true_eq, decide_eq_true_eq] at hbits

/-! ### The obligation -/

/-- Settles O42: `wld` and `wswap` by the ends of their bodies, and the end of a write phase by the latch that it leaves and the
gives that it makes. -/
theorem weightLatch : Obligations.WeightLatch := by
  intro wl ws gl gs gw port sf km1 s tl
  refine ⟨fun hpend => ⟨?swapWaits, ?loadWaits⟩,
    fun hfree => ⟨?swaps, rfl, rfl, fun hf => ⟨?reserved, ?reservedPort⟩, ?reads, ?takes⟩, ?ends, ?gives⟩
  case swapWaits => rw [exec_wswap, runCmd_stall (wswapBody_pending hpend)]
  case loadWaits => rw [exec_wld, runCmd_stall (wldBody_pending hpend)]
  case swaps => rw [exec_wswap, runCmd_ok (wswapBody_free hfree)]
  case reserved => rw [exec_wld, runCmd_trap (wldBody_reserved hfree hf)]
  case reservedPort => rw [exec_wldPort, runCmd_trap (wldPortBody_reserved hfree hf)]
  case reads =>
    intro r sp f rows hplan hguards hf kw hrows
    refine ⟨?_, xFrame_startWrite .., wpend_startWrite ..⟩
    rw [exec_wld, runCmd_ok (wldBody_reads hfree hplan hguards hf hrows)]
  case takes =>
    intro f hf hk hprog hport s2 htake
    rw [exec_wldPort, runCmd_ok (wldPortBody_takes hfree hf hk hprog hport htake)]
  case ends =>
    intro bytes lines hpend hphase hnest hbytes
    refine ⟨s.setTile s.here (writeLatch tl bytes lines), ?_, ?_⟩
    · rw [exec_wldWritePhaseEnd hpend hphase, endNestWld_none (by simpa using hnest)]
    · simp only [tile_setTile_self]
      exact ⟨wpend_writeLatch .., actW_writeLatch .., fun v hv => tile_setTile_ne s _ hv,
        sameMemory_onTile (f := fun tl => writeLatch tl bytes lines) (scratch_writeLatch ..),
        latch_writeLatch tl lines hbytes, activeLw_writeLatch .., inactiveLw_writeLatch ..⟩
  case gives =>
    intro bytes lines q n g hpend hphase hnest hn hg howed
    refine ⟨_, exec_wldWritePhaseEnd hpend hphase, ?_⟩
    rw [endNestWld_some (by simpa using hnest) hn hg howed]
    simp only [tile_onTile_self, tile_setTile_self, tokXL_pushGives, tokXS_pushGives, tokXL_writeLatch, tokXS_writeLatch]
    refine ⟨by simp [Tile.pushGives], ?memory, rfl, rfl, fun k hk hid => ?entry⟩
    case memory =>
      exact sameMemory_trans (sameMemory_onTile (f := fun tl => writeLatch tl bytes lines) (scratch_writeLatch ..))
        (sameMemory_onTile (by simp [Tile.pushGives]))
    case entry =>
      obtain ⟨k0, -, rfl⟩ := List.mem_map.1 hk
      by_cases hk0 : k0.id = q.id
      · rw [if_pos hk0]
        exact ⟨rfl, by simpa [afterGives] using owed_pushGives_eq_zero (writeLatch tl bytes lines) g⟩
      · rw [if_neg hk0] at hid
        exact absurd hid hk0

end Sys2Proof.Proofs
end

section
/-! Subscriptions of C (R344-R349): the checks and the answers of `sub`, the updates that `unsub` and `resync` discard, the lines
that a `resync` copies, and `Subscriptions`. -/

namespace Sys2Proof.Proofs

open Sys2Proof Sys2Proof.Machine Sys2Proof.Laws

/-! ### Tables and runs of bytes -/

theorem tGet_tErase {α : Type} (d : α) (m : Table α) (k j : Nat) :
    tGet d (tErase m k) j = if j = k then d else tGet d m j := by
  rw [tGet, tFind_tErase]
  split <;> rfl

@[simp] theorem length_readBytes (m : Memory) (a n : Nat) : (m.readBytes a n).length = n := by
  induction n generalizing a with
  | zero => rfl
  | succ n ih => simp [Memory.readBytes, ih]

theorem getD_readBytes (m : Memory) (a : Nat) {n i : Nat} (h : i < n) : (m.readBytes a n).getD i 0 = m.byte (a + i) := by
  induction n generalizing a i with
  | zero => omega
  | succ n ih =>
    cases i with
    | zero => rfl
    | succ i =>
      have hi := ih (a + 1) (Nat.lt_of_succ_lt_succ h)
      rw [Nat.add_assoc, Nat.add_comm 1 i] at hi
      exact hi

/-! ### Poison after a write of one whole line (R311) -/

/-- Of an aligned line of a scratchpad, the poison of that line alone is asked. -/
theorem poisoned_line (m : Table Bool) {off : Nat} (h : off % 64 = 0) :
    poisoned m off 64 64 = m.any fun e => e.2 && decide (e.1 = off / 64) := by
  have hline : ∀ ln, (64 * ln < off + 64 ∧ off < 64 * ln + 64) ↔ ln = off / 64 := by intro ln; omega
  simp [poisoned, ← hline, Bool.and_assoc]

/-- A write of an aligned line clears its poison alone. -/
theorem clearPoison_line (m : Table Bool) {off : Nat} (h : off % 64 = 0) :
    clearPoison m off 64 64 = tErase m (off / 64) := by
  have hfirst : (off + 64 - 1) / 64 = off / 64 := by omega
  have hnext : ¬ 64 * (off / 64 + 1) + 64 ≤ off + 64 := by omega
  have hcovered : 64 * (off / 64) + 64 ≤ off + 64 := by omega
  simp only [clearPoison, hfirst, Nat.div_self (show 0 < 64 by decide), List.range_succ, List.range_zero, List.nil_append,
    List.foldl_append, List.foldl_cons, List.foldl_nil, Nat.add_zero, if_pos hcovered, if_neg hnext]

theorem mem_tErase {α : Type} {m : Table α} {k : Nat} {e : Nat × α} (h : e ∈ tErase m k) : e.1 ≠ k := by
  induction m with
  | nil => simp [tErase] at h
  | cons x rest ih =>
    obtain ⟨k', v⟩ := x
    by_cases hk : k = k'
    · exact ih (by simpa [tErase, hk] using h)
    · rw [tErase, if_neg hk, List.mem_cons] at h
      rcases h with rfl | h
      · exact fun hk' => hk hk'.symm
      · exact ih h

theorem mem_tInsert_self {α : Type} (m : Table α) (k : Nat) (v : α) : (k, v) ∈ tInsert m k v := by
  induction m with
  | nil => simp [tInsert]
  | cons x rest ih =>
    obtain ⟨k', v'⟩ := x
    rw [tInsert]
    split
    · exact List.mem_cons_self
    · split
      · exact List.mem_cons_self
      · exact List.mem_cons_of_mem _ ih

theorem poisoned_erased (m : Table Bool) {off : Nat} (h : off % 64 = 0) : poisoned (tErase m (off / 64)) off 64 64 = false := by
  rw [poisoned_line _ h, List.any_eq_false]
  intro e he
  simp [mem_tErase he]

theorem poisoned_set (m : Table Bool) {off : Nat} (h : off % 64 = 0) : poisoned (tSet false m (off / 64) true) off 64 64 = true := by
  rw [poisoned_line _ h, List.any_eq_true]
  exact ⟨(off / 64, true), mem_tInsert_self m _ true, by simp⟩

/-! ### A write of the scratchpad that is not forwarded -/

theorem poison_fire (tl : Tile) (hit : MonEntry → Bool) : (tl.fire hit).poison = tl.poison := by
  refine List.foldlRecOn tl.mon _ (motive := fun tl' : Tile => tl'.poison = tl.poison) rfl fun tl' htl' e _ => ?_
  dsimp only
  split <;> exact htl'

/-- What a write that forms no updates leaves as it is: the updates under way, the memories, and every tile's poison. -/
def AsideStays (s s' : State) : Prop :=
  s'.flits = s.flits ∧ s'.devMem = s.devMem ∧ s'.hostMem = s.hostMem ∧ ∀ v, (s'.tile v).poison = (s.tile v).poison

/-- Monitors that fire leave all of that. -/
theorem fireScratch_aside (s : State) (u first last : Nat) : AsideStays s (fireScratch s u first last) := by
  refine List.foldlRecOn _ _ (motive := AsideStays s) ⟨rfl, rfl, rfl, fun _ => rfl⟩ fun s' hs' e _ => ?_
  obtain ⟨hflits, hdev, hhost, hpoison⟩ := hs'
  refine ⟨hflits, hdev, hhost, fun v => ?_⟩
  rw [tile_onTile]
  split
  · next hv => rw [poison_fire, ← hv, hpoison]
  · exact hpoison v

/-- A write that forms no updates, of some bytes: of all that, it changes the poison of the lines that it covers whole. -/
theorem scratchWrite_aside (s : State) (u off : Nat) {bytes : List Byte} (cls : BitVec 4) (byX : Bool) (h : bytes ≠ []) :
    AsideStays (s.onTile u fun tl => { tl with poison := clearPoison tl.poison off bytes.length 64 })
      (scratchWrite s u off bytes cls false byX) := by
  have hne : bytes.isEmpty = false := by simpa using h
  simp only [scratchWrite, hne, Bool.false_eq_true, if_false]
  obtain ⟨hflits, hdev, hhost, hpoison⟩ := fireScratch_aside (s.onTile u fun tl =>
      { tl with scratch := tl.scratch.writeBytes off bytes, zflags := clearZero tl.zflags off bytes.length
                poison := clearPoison tl.poison off bytes.length 64
                xOld := noteOld tl.xOld tl.scratch off byX bytes.length }) u (off / 64) ((off + bytes.length - 1) / 64)
  refine ⟨hflits, hdev, hhost, fun v => (hpoison v).trans ?_⟩
  rw [tile_onTile, tile_onTile]
  split <;> rfl

/-! ### Updates discarded (R346, R348) -/

/-- A part of every tile that a change of one tile leaves. -/
theorem part_onTile {β : Type} (p : Tile → β) (s : State) (t : Nat) {f : Tile → Tile} (v : Nat)
    (h : ∀ tl, p (f tl) = p tl := by intro _; rfl) : p ((s.onTile t f).tile v) = p (s.tile v) := by
  rw [tile_onTile]
  split
  · next hv => rw [h, hv]
  · rfl

/-- A change that leaves the scratchpad of every tile leaves the memories. -/
theorem sameMemory_part {s : State} {t : Nat} {f : Tile → Tile} (h : ∀ tl, (f tl).scratch = tl.scratch := by intro _; rfl) :
    sameMemory s (s.onTile t f) := sameMemory_onTile (h _)

theorem tile_withFlits (s : State) (fs : List FlitInFlight) (v : Nat) : ({ s with flits := fs } : State).tile v = s.tile v := rfl
theorem tile_withRings (s : State) (rs : List SpillRing) (v : Nat) : ({ s with rings := rs } : State).tile v = s.tile v := rfl

section
variable (s : State) (t i : Nat) (e : SubEntry)

/-- A part of a tile that holds neither its batches nor its subscriber table is left when updates are discarded. -/
theorem part_discardUpdates {β : Type} (p : Tile → β) (hbatches : ∀ tl b, p { tl with batches := b } = p tl)
    (hsubs : ∀ tl q, p { tl with subs := q } = p tl) (v : Nat) : p ((discardUpdates s t i e).tile v) = p (s.tile v) := by
  refine (part_onTile p _ t v fun tl => hsubs tl _).trans ?_
  rw [tile_withRings, tile_withFlits]
  cases hu : s.tileOfRel t e.pub.toNat with
  | none => rfl
  | some u => exact part_onTile p s u v fun tl => hbatches tl _

theorem sameMemory_discardUpdates : sameMemory s (discardUpdates s t i e) := by
  refine ⟨?dev, ?host, part_discardUpdates s t i e Tile.scratch (fun _ _ => rfl) fun _ _ => rfl⟩ <;>
    (unfold discardUpdates; cases s.tileOfRel t e.pub.toNat <;> rfl)

theorem not_mem_flits_discardUpdates : ∀ f ∈ (discardUpdates s t i e).flits, ¬ (f.subTile = t ∧ f.subIdx = i) := by
  intro f hf
  have hkept := (List.mem_filter.1 hf).2
  rintro ⟨rfl, rfl⟩
  simp at hkept

/-- The spill ring of the entry is empty. -/
theorem spillCnt_discardUpdates : (tGet SubEntry.zero ((discardUpdates s t i e).tile t).subs i).spillCnt = 0 := by
  rw [discardUpdates, tile_onTile_self]
  simp [SubEntry.cleared]

end

/-! ### The entry that an index names (R344) -/

section
variable {s : State} {t : Nat} {v : Word}

theorem validSub_range (h : 32 ≤ v.toNat) : validSub s t v = trap .RANGE := by
  have hv : ¬ v.toNat < 32 := by omega
  simp [validSub, check, hv, trap, bind, Except.bind]

theorem validSub_valid (hv : v.toNat < 32) (hgood : (s.tile t).badAt (opmSub v.toNat) subBytes = false)
    (hstate : (tGet SubEntry.zero (s.tile t).subs v.toNat).state ≠ 0) :
    validSub s t v = .ok (v.toNat, tGet SubEntry.zero (s.tile t).subs v.toNat) := by
  simp only [validSub, check, hv, hgood, hstate, ne_eq, not_false_eq_true, decide_true, Bool.not_false, if_true, bind, Except.bind]

end

/-! ### `sub` (R345) -/

theorem exec_sub (d a b : BitVec 5) (s : State) : exec (.subSubscribe d a b) s = runC s (subscribeBody d a b) := rfl

/-- What `sub` does past its checks, by the lowest free places of the subscriber's and of the publisher's table. -/
def subAnswer (s : State) (d : BitVec 5) (g : SubArgs) : Option Nat → Option Nat → Res State
  | none, _ => .ok (put s d (BitVec.ofInt 64 (-1)))
  | some _, none => .ok (put s d (BitVec.ofInt 64 (-2)))
  | some i, some e =>
    if g.spillK = 0 then .ok (put (installSub s s.here g i e) d (BitVec.ofNat 64 i))
    else match (s.tile s.here).cwait with
      | some (.spill _ none) => .error .stall
      | some (.spill _ (some false)) => .ok (put s d (BitVec.ofInt 64 (-3)))
      | some (.spill _ (some true)) => .ok (put (installSub s s.here g i e) d (BitVec.ofNat 64 i))
      | _ => .error (.wait { s.onTile s.here (fun tl => { tl with cwait := some (.spill g.spillK.toNat none) }) with
          spillAsks := s.spillAsks ++ [s.here] })

section
variable {s : State} {d a b : BitVec 5} (h : inFile s [a, b]) (hd : isLink d = false)

include h hd

/-- `sub` traps at the first of its checks that fails. -/
theorem subscribeBody_trap {c : Cause} (hchecks : subChecks s s.here (xr s a) (xr s b) = .error (.trap c 0)) :
    subscribeBody d a b s.here s = .error (.trap c 0) := by
  simp only [subscribeBody, checkLinks_file (writes := [d]) (s := s) (inFile_links h) (by simpa using hd), bind, Except.bind,
    readReg_file h (show a ∈ [a, b] by simp), readReg_file h (show b ∈ [a, b] by simp), hchecks]

theorem subscribeBody_checked {g : SubArgs} {si pi : Option Nat} (hchecks : subChecks s s.here (xr s a) (xr s b) = .ok g)
    (hsubs : (s.tile s.here).badAt (opmSub 0) (32 * subBytes) = false)
    (hpubs : (s.tile g.pub).badAt (opmPub 0) (32 * pubBytes) = false)
    (hsi : lowestFree (fun k => (tGet SubEntry.zero (s.tile s.here).subs k).state ≠ 0) = si)
    (hpi : lowestFree (fun k => (tGet PubEntry.zero (s.tile g.pub).pubs k).valid) = pi) :
    subscribeBody d a b s.here s = subAnswer s d g si pi := by
  simp only [subscribeBody, checkLinks_file (writes := [d]) (s := s) (inFile_links h) (by simpa using hd), bind, Except.bind,
    readReg_file h (show a ∈ [a, b] by simp), readReg_file h (show b ∈ [a, b] by simp), hchecks, hsubs, hpubs, check,
    Bool.not_false, Bool.and_self, if_true, hsi, hpi, writeReg_file hd]
  cases si with
  | none => rfl
  | some i =>
    cases pi with
    | none => rfl
    | some e => rfl

end

/-! ### `unsub` (R346) -/

theorem exec_unsub (a : BitVec 5) (s : State) : exec (.unsub a) s = runC s (unsubBody a) := rfl

/-- The state after an `unsub`: entry `i` of tile `t` is gone with its updates, and so is the entry of its publisher `u`. -/
def unsubscribed (s : State) (t i : Nat) (e : SubEntry) (u : Nat) : State :=
  ((discardUpdates s t i e).onTile u fun tl => { tl with pubs := tErase tl.pubs e.pubIdx.toNat }).onTile t fun tl =>
    { tl with subs := tErase tl.subs i }

section
variable (s : State) (t i : Nat) (e : SubEntry) (u : Nat)

theorem subs_unsubscribed : tGet SubEntry.zero ((unsubscribed s t i e u).tile t).subs i = .zero := by
  rw [unsubscribed, tile_onTile_self, tGet_tErase, if_pos rfl]

theorem pubs_unsubscribed : tGet PubEntry.zero ((unsubscribed s t i e u).tile u).pubs e.pubIdx.toNat = .zero := by
  have hpubs : ((unsubscribed s t i e u).tile u).pubs = tErase ((discardUpdates s t i e).tile u).pubs e.pubIdx.toNat :=
    (part_onTile Tile.pubs _ t u).trans (by rw [tile_onTile_self])
  rw [hpubs, tGet_tErase, if_pos rfl]

/-- A part of a tile that holds neither its batches nor its tables is left by an `unsub`. -/
theorem part_unsubscribed {β : Type} (p : Tile → β) (hbatches : ∀ tl b, p { tl with batches := b } = p tl)
    (hsubs : ∀ tl q, p { tl with subs := q } = p tl) (hpubs : ∀ tl q, p { tl with pubs := q } = p tl) (v : Nat) :
    p ((unsubscribed s t i e u).tile v) = p (s.tile v) := by
  calc p ((unsubscribed s t i e u).tile v)
    _ = p (((discardUpdates s t i e).onTile u fun tl => { tl with pubs := tErase tl.pubs e.pubIdx.toNat }).tile v) :=
      part_onTile p _ t v fun tl => hsubs tl _
    _ = p ((discardUpdates s t i e).tile v) := part_onTile p _ u v fun tl => hpubs tl _
    _ = p (s.tile v) := part_discardUpdates s t i e p hbatches hsubs v

theorem sameMemory_unsubscribed : sameMemory s (unsubscribed s t i e u) := by
  unfold unsubscribed
  exact sameMemory_trans (sameMemory_trans (sameMemory_discardUpdates s t i e) sameMemory_part) sameMemory_part

end

theorem unsubBody_range {s : State} {a : BitVec 5} (h : inFile s [a]) (hv : 32 ≤ (xr s a).toNat) :
    unsubBody a s.here s = trap .RANGE := by
  simp only [unsubBody, checkLinks_file (writes := []) (s := s) (inFile_links h) (by simp), bind, Except.bind,
    readReg_file h (List.mem_singleton_self a), validSub_range hv, trap]

theorem unsubBody_valid {s : State} {a : BitVec 5} {e : SubEntry} {u : Nat} (h : inFile s [a])
    (hvalid : validSub s s.here (xr s a) = .ok ((xr s a).toNat, e)) (hu : s.tileOfRel s.here e.pub.toNat = some u) :
    unsubBody a s.here s = .ok (unsubscribed s s.here (xr s a).toNat e u) := by
  simp only [unsubBody, checkLinks_file (writes := []) (s := s) (inFile_links h) (by simp), bind, Except.bind,
    readReg_file h (List.mem_singleton_self a), hvalid, hu, unsubscribed]

/-! ### `pflush` (R347) -/

theorem exec_pflush (s : State) : exec .pflush s = runC s pflushBody := rfl

/-- A `pflush` that begins closes the batches, and waits where an update that the tile has formed is unsettled. -/
theorem pflushBody_begins {s : State} {t : Nat} (hfree : (s.tile t).cwait = none)
    (hgood : (s.tile t).badAt (opmPub 0) (32 * pubBytes) = false) :
    pflushBody t s =
      if unsettledBefore (closeBatches s t) t (closeBatches s t).stamp then
        .error (.wait ((closeBatches s t).onTile t fun tl => { tl with cwait := some (.flush (closeBatches s t).stamp) }))
      else .ok (closeBatches s t) := by
  simp only [pflushBody, hfree, hgood, Bool.false_eq_true, if_false]

/-! ### `subq` (R349) -/

theorem exec_subq (d a : BitVec 5) (s : State) : exec (.subq d a) s = runC s (subqBody d a) := rfl

section
variable {s : State} {d a : BitVec 5} (h : inFile s [a]) (hd : isLink d = false)

include h hd

theorem subqBody_range (hv : 32 ≤ (xr s a).toNat) : subqBody d a s.here s = trap .RANGE := by
  simp only [subqBody, checkLinks_file (writes := [d]) (s := s) (inFile_links h) (by simpa using hd), bind, Except.bind,
    readReg_file h (List.mem_singleton_self a), check, decide_eq_false (Nat.not_lt.2 hv), Bool.false_eq_true, if_false, trap]

theorem subqBody_reads (hv : (xr s a).toNat < 32) (hgood : (s.tile s.here).badAt (opmSub (xr s a).toNat) subBytes = false) :
    subqBody d a s.here s = .ok (put s d (subqValue (tGet SubEntry.zero (s.tile s.here).subs (xr s a).toNat))) := by
  simp only [subqBody, checkLinks_file (writes := [d]) (s := s) (inFile_links h) (by simpa using hd), bind, Except.bind,
    readReg_file h (List.mem_singleton_self a), check, decide_eq_true hv, hgood, Bool.not_false, if_true, writeReg_file hd, put]

end

/-! ### `resync` (R348, R364) -/

theorem exec_resync (a : BitVec 5) (s : State) : exec (.resync a) s = runC s (resyncBody a) := rfl

section
variable {s : State} {a : BitVec 5}

theorem resyncBody_range (h : inFile s [a]) (hfree : (s.tile s.here).cwait = none) (hv : 32 ≤ (xr s a).toNat) :
    resyncBody a s.here s = trap .RANGE := by
  simp only [resyncBody, hfree, checkLinks_file (writes := []) (s := s) (inFile_links h) (by simp), bind, Except.bind,
    readReg_file h (List.mem_singleton_self a), validSub_range hv, trap]

theorem resyncBody_begins {i : Nat} {e : SubEntry} (h : inFile s [a]) (hfree : (s.tile s.here).cwait = none)
    (hvalid : validSub s s.here (xr s a) = .ok (i, e)) :
    resyncBody a s.here s =
      .error (.wait ((discardUpdates s s.here i e).onTile s.here fun tl => { tl with cwait := some (.resync i 0) })) := by
  simp only [resyncBody, hfree, checkLinks_file (writes := []) (s := s) (inFile_links h) (by simp), bind, Except.bind,
    readReg_file h (List.mem_singleton_self a), hvalid]

theorem resyncBody_line {t i k u : Nat} (hat : (s.tile t).cwait = some (.resync i k))
    (hk : k < (tGet SubEntry.zero (s.tile t).subs i).lines.toNat)
    (hu : s.tileOfRel t (tGet SubEntry.zero (s.tile t).subs i).pub.toNat = some u) :
    let e := tGet SubEntry.zero (s.tile t).subs i
    resyncBody a t s = .error (.wait
      ((copyLine (discardLine s t u i e k) t u e k).onTile t fun tl => { tl with cwait := some (.resync i (k + 1)) })) := by
  simp only [resyncBody, hat, if_pos hk, resyncLine, hu]

theorem resyncBody_ends {i k : Nat} (h : inFile s [a]) (hat : (s.tile s.here).cwait = some (.resync i k))
    (hk : (tGet SubEntry.zero (s.tile s.here).subs i).lines.toNat ≤ k) :
    resyncBody a s.here s = .ok (s.onTile s.here fun tl =>
      { tl with subs := tSet .zero tl.subs i ((tGet .zero tl.subs i).cleared 1) }) := by
  simp only [resyncBody, hat, if_neg (Nat.not_lt.2 hk), resyncEnd, bind, Except.bind, readReg_file h (List.mem_singleton_self a)]

end

/-! ### One line of a `resync` -/

section
variable (s : State) (t u i : Nat) (e : SubEntry) (k : Nat)

/-- A part of a tile that does not hold its batches is left when the updates of a line are discarded. -/
theorem part_discardLine {β : Type} (p : Tile → β) (hbatches : ∀ tl b, p { tl with batches := b } = p tl) (v : Nat) :
    p ((discardLine s t u i e k).tile v) = p (s.tile v) := by
  rw [discardLine, tile_withFlits]
  exact part_onTile p s u v fun tl => hbatches tl _

theorem not_mem_flits_discardLine :
    ∀ f ∈ (discardLine s t u i e k).flits, ¬ (f.subTile = t ∧ f.subIdx = i ∧ f.flit.line = k) := by
  intro f hf
  have hkept := (List.mem_filter.1 hf).2
  rintro ⟨rfl, rfl, rfl⟩
  simp at hkept

/-- The write of a `copyLine`: line `k` of the published region, at its place in the subscriber region, with no updates formed. -/
def writeLine : State :=
  scratchWrite s t (e.soff.toNat + 64 * k) ((s.tile u).scratch.readBytes (e.poff.toNat + 64 * k) 64) 0 false false

theorem writeLine_aside : AsideStays
    (s.onTile t fun tl => { tl with poison := clearPoison tl.poison (e.soff.toNat + 64 * k) 64 64 }) (writeLine s t u e k) := by
  have hwrite := scratchWrite_aside s t (e.soff.toNat + 64 * k)
    (bytes := (s.tile u).scratch.readBytes (e.poff.toNat + 64 * k) 64) 0 false (List.cons_ne_nil _ _)
  rwa [length_readBytes] at hwrite

/-- The bytes of the line are written, and no other byte. -/
theorem byte_writeLine (v x : Nat) : ((writeLine s t u e k).tile v).scratch.byte x =
    if v = t ∧ e.soff.toNat + 64 * k ≤ x ∧ x < e.soff.toNat + 64 * k + 64
    then (s.tile u).scratch.byte (e.poff.toNat + (x - e.soff.toNat)) else (s.tile v).scratch.byte x := by
  rw [writeLine, byte_scratchWrite, length_readBytes]
  split
  · next hin =>
    obtain ⟨-, hlo, hhi⟩ := hin
    have hplace : e.poff.toNat + 64 * k + (x - (e.soff.toNat + 64 * k)) = e.poff.toNat + (x - e.soff.toNat) := by omega
    rw [getD_readBytes _ _ (by omega), hplace]
  · rfl

variable {s u e k}

theorem copyLine_clean (h : poisoned (s.tile u).poison (e.poff.toNat + 64 * k) 64 64 = false) :
    copyLine s t u e k = writeLine s t u e k := if_neg (Bool.eq_false_iff.1 h)

theorem copyLine_poisoned (h : poisoned (s.tile u).poison (e.poff.toNat + 64 * k) 64 64 = true) :
    copyLine s t u e k = (writeLine s t u e k).onTile t fun tl =>
      { tl with poison := tSet false tl.poison ((e.soff.toNat + 64 * k) / 64) true } := if_pos h

variable (s u e k)

theorem copyLine_aside : (copyLine s t u e k).flits = s.flits ∧ (copyLine s t u e k).devMem = s.devMem ∧
    (copyLine s t u e k).hostMem = s.hostMem := by
  obtain ⟨hflits, hdev, hhost, -⟩ := writeLine_aside s t u e k
  cases hbad : poisoned (s.tile u).poison (e.poff.toNat + 64 * k) 64 64 with
  | false => rw [copyLine_clean t hbad]; exact ⟨hflits, hdev, hhost⟩
  | true =>
    rw [copyLine_poisoned t hbad, flits_onTile, devMem_onTile, hostMem_onTile]
    exact ⟨hflits, hdev, hhost⟩

theorem scratch_copyLine (v : Nat) : ((copyLine s t u e k).tile v).scratch = ((writeLine s t u e k).tile v).scratch := by
  cases hbad : poisoned (s.tile u).poison (e.poff.toNat + 64 * k) 64 64 with
  | false => rw [copyLine_clean t hbad]
  | true => rw [copyLine_poisoned t hbad]; exact part_onTile Tile.scratch _ t v

/-- An aligned line that a `copyLine` writes is poisoned where the line that it reads is. -/
theorem poisoned_copyLine (halign : e.soff.toNat % 64 = 0) :
    poisoned ((copyLine s t u e k).tile t).poison (e.soff.toNat + 64 * k) 64 64 =
      poisoned (s.tile u).poison (e.poff.toNat + 64 * k) 64 64 := by
  have hline : (e.soff.toNat + 64 * k) % 64 = 0 := by omega
  obtain ⟨-, -, -, hpoison⟩ := writeLine_aside s t u e k
  cases hbad : poisoned (s.tile u).poison (e.poff.toNat + 64 * k) 64 64 with
  | false => rw [copyLine_clean t hbad, hpoison, tile_onTile_self, clearPoison_line _ hline, poisoned_erased _ hline]
  | true => rw [copyLine_poisoned t hbad, tile_onTile_self, poisoned_set _ hline]

end

/-! ### The obligation -/

/-- `sub`, `unsub`, `pflush` and `subq`, by the ends of their bodies. -/
theorem subscriptionWords : Parts.SubscriptionWords := by
  intro d a b s tl
  refine ⟨?sub, ?subTraps, ?subq, ?range, ?unsub, ?pflush⟩
  case sub =>
    intro h hd g hchecks hsubs hpubs si pi
    have hbody {ki kp : Option Nat} (hsi : si = ki) (hpi : pi = kp) : subscribeBody d a b s.here s = subAnswer s d g ki kp :=
      subscribeBody_checked h hd hchecks hsubs hpubs hsi hpi
    rw [exec_sub]
    refine ⟨fun i e hsi hpi => ⟨?installs, ?asks, ?granted, ?refused⟩, ?full, ?pubFull⟩
    case installs => exact fun hk => runC_ok ((hbody hsi hpi).trans (if_pos hk))
    case asks =>
      intro hk hwait
      exact runC_wait ((hbody hsi hpi).trans (by rw [subAnswer, if_neg hk, hwait]))
    case granted =>
      intro n hk hwait
      exact runC_ok ((hbody hsi hpi).trans (by rw [subAnswer, if_neg hk, hwait]))
    case refused =>
      intro n hk hwait
      exact runC_ok ((hbody hsi hpi).trans (by rw [subAnswer, if_neg hk, hwait]))
    case full => exact fun hsi => runC_ok (hbody hsi rfl)
    case pubFull => exact fun i hsi hpi => runC_ok (hbody hsi hpi)
  case subTraps => exact fun h hd c hchecks => runC_trap (subscribeBody_trap h hd hchecks)
  case subq => exact fun h hd hv hgood => runC_ok (subqBody_reads h hd hv hgood)
  case range =>
    exact fun h hd hv => ⟨runC_trap (subqBody_range h hd hv), runC_trap (unsubBody_range h hv),
      fun hfree => runC_trap (resyncBody_range h hfree hv)⟩
  case unsub =>
    intro h hv hgood u i e hstate hu
    refine ⟨_, runC_ok (unsubBody_valid h (validSub_valid hv hgood hstate) hu), subs_unsubscribed s s.here i e u,
      pubs_unsubscribed s s.here i e u, not_mem_flits_discardUpdates s s.here i e, sameMemory_unsubscribed s s.here i e u, ?_⟩
    exact part_unsubscribed s s.here i e u Tile.x (fun _ _ => rfl) (fun _ _ => rfl) fun _ _ => rfl
  case pflush =>
    intro hfree hgood s1
    have hbody := pflushBody_begins hfree hgood
    exact ⟨fun hsettled => runC_ok (hbody.trans (if_neg (Bool.eq_false_iff.1 hsettled))),
      fun hunsettled => runC_wait (hbody.trans (if_pos hunsettled))⟩

/-- `resync`, by its beginning, one line, and its end. -/
theorem resync : Parts.Resync := by
  intro a s u i tl e h
  refine ⟨?begins, ?line, ?ends⟩
  case begins =>
    rintro rfl hv hstate hgood hfree
    refine ⟨_, runC_wait (resyncBody_begins h hfree (validSub_valid hv hgood hstate)), by rw [tile_onTile_self], ?flits, ?ring,
      ?memory⟩
    case flits =>
      rw [flits_onTile]
      exact not_mem_flits_discardUpdates s s.here _ e
    case ring =>
      rw [part_onTile Tile.subs _ s.here s.here]
      exact spillCnt_discardUpdates s s.here _ e
    case memory =>
      exact sameMemory_trans (sameMemory_discardUpdates s s.here _ e) sameMemory_part
  case line =>
    intro k hat hk hu
    let s1 := discardLine s s.here u i e k
    obtain ⟨hflits, hdev, hhost⟩ := copyLine_aside s1 s.here u e k
    have hscratch : ∀ v, (s1.tile v).scratch = (s.tile v).scratch :=
      part_discardLine s s.here u i e k Tile.scratch fun _ _ => rfl
    have hpoison : (s1.tile u).poison = (s.tile u).poison :=
      part_discardLine s s.here u i e k Tile.poison (fun _ _ => rfl) u
    refine ⟨_, runC_wait (resyncBody_line hat hk hu), ?wait, ?flits, ?dev, ?host, ?poison, fun v x => ?byte⟩
    case wait => rw [tile_onTile_self]
    case flits =>
      rw [flits_onTile, hflits]
      exact not_mem_flits_discardLine s s.here u i e k
    case dev =>
      rw [devMem_onTile, hdev]
      rfl
    case host =>
      rw [hostMem_onTile, hhost]
      rfl
    case poison =>
      intro halign
      rw [part_onTile Tile.poison _ s.here s.here, ← hpoison]
      exact poisoned_copyLine s1 s.here u e k halign
    case byte =>
      rw [part_onTile Tile.scratch _ s.here v, scratch_copyLine, byte_writeLine, hscratch, hscratch]
  case ends =>
    intro k hat hk
    exact runC_ok (resyncBody_ends h hat hk)

/-- Settles O30: the words by the ends of their bodies, and a copied line as one write that forms no updates. That the updates under
way are discarded at one instant is the model's choice (log 29). -/
theorem subscriptions : Obligations.Subscriptions := ⟨subscriptionWords, resync⟩

end Sys2Proof.Proofs
end
